-- ==== Sys2Proof/Word.lean ====
section
/-! DEFINITION. The words of the HK-820 (R8, R15): bytes, 32-bit and 64-bit words, and the words of the
three instruction streams. -/

namespace Sys2Proof

/-- One byte, the smallest addressable unit (R8). -/
abbrev Byte := BitVec 8
/-- A lane register, a scalar word (R15, R210). -/
abbrev W32 := BitVec 32
/-- A scalar register, a matrix word (R15, R210). -/
abbrev W64 := BitVec 64
/-- A lane word (R15, R20). -/
abbrev W96 := BitVec 96

end Sys2Proof
end

