-- ==== Sys2Proof/Machine/Bits.lean ====
section
/-! DEFINITION. Bit fields, sign extension, byte order and sparse tables: the helpers every other file of the
machine uses. -/

namespace Sys2Proof.Bits

/-- Bits hi:lo of a natural number. -/
def field (n lo len : Nat) : Nat := (n >>> lo) % 2 ^ len
/-- Bit k of a natural number. -/
def bit (n k : Nat) : Bool := Nat.testBit n k
/-- The natural number with bit k set to the value given. -/
def setBit (n k : Nat) (b : Bool) : Nat :=
  if b then n ||| 2 ^ k else if Nat.testBit n k then n - 2 ^ k else n
/-- A w-bit pattern read as a two's complement integer. -/
def toInt (w n : Nat) : Int := if Nat.testBit n (w - 1) then (n : Int) - 2 ^ w else n
/-- An integer modulo 2^w, as a natural number. -/
def ofInt (w : Nat) (i : Int) : Nat := (i % (2 ^ w : Nat)).toNat
/-- A w-bit pattern sign-extended to 64 bits. -/
def sext64 (w n : Nat) : W64 := BitVec.ofInt 64 (toInt w n)
/-- The bytes of a value, little-endian (R8). -/
def bytesOf : Nat → Nat → List Byte
  | 0, _ => []
  | k + 1, n => BitVec.ofNat 8 n :: bytesOf k (n / 256)
/-- The value of bytes, little-endian (R8). -/
def ofBytes : List Byte → Nat
  | [] => 0
  | b :: bs => b.toNat + 256 * ofBytes bs
/-- A value of k bytes at offset o of a byte list; bytes past its end read 0. -/
def leAt (bs : List Byte) (o k : Nat) : Nat := ofBytes ((bs.drop o).take k)
/-- The set bits of a mask below n, ascending. -/
def bitsOf (n mask : Nat) : List Nat := (List.range n).filter (fun i => Nat.testBit mask i)
/-- The number of set bits below n. -/
def popCount (n mask : Nat) : Nat := (bitsOf n mask).length
/-- The mask of a list of bit numbers. -/
def maskOf (l : List Nat) : Nat := l.foldl (fun m i => m ||| 2 ^ i) 0
/-- Bits of a that are not in b. -/
def andNot (a b : Nat) : Nat := a ^^^ (a &&& b)
/-- The lowest set bit below n, if any. -/
def lowest (n mask : Nat) : Option Nat := (List.range n).find? (fun i => Nat.testBit mask i)
/-- Rounding up to a multiple. -/
def roundUp (n k : Nat) : Nat := (n + k - 1) / k * k
/-- The first answer among several checks. -/
def firstSome {α : Type} : List (Option α) → Option α
  | [] => none
  | some a :: _ => some a
  | none :: l => firstSome l
/-- Replacement of element i of a list. -/
def setAt {α : Type} : List α → Nat → α → List α
  | [], _, _ => []
  | _ :: l, 0, x => x :: l
  | y :: l, n + 1, x => y :: setAt l n x
/-- Removal of element i of a list. -/
def dropAt {α : Type} : List α → Nat → List α
  | [], _ => []
  | _ :: l, 0 => l
  | y :: l, n + 1 => y :: dropAt l n

end Sys2Proof.Bits

namespace Sys2Proof

/-- A sparse table: key and value pairs, keys rising. -/
abbrev NMap (α : Type) := List (Nat × α)

namespace NMap

/-- The value at a key. -/
def get? {α : Type} : NMap α → Nat → Option α
  | [], _ => none
  | (k, v) :: m, n => if k = n then some v else get? m n
/-- The value at a key, or a default. -/
def getD {α : Type} (m : NMap α) (n : Nat) (d : α) : α := (get? m n).getD d
/-- The table with a value at a key. -/
def set {α : Type} : NMap α → Nat → α → NMap α
  | [], n, x => [(n, x)]
  | (k, v) :: m, n, x => if k = n then (n, x) :: m else if n < k then (n, x) :: (k, v) :: m else (k, v) :: set m n x
/-- The table without a key. -/
def erase {α : Type} : NMap α → Nat → NMap α
  | [], _ => []
  | (k, v) :: m, n => if k = n then erase m n else (k, v) :: erase m n
/-- The table with the value at a key changed, where it holds one. -/
def modify {α : Type} (f : α → α) : NMap α → Nat → NMap α
  | [], _ => []
  | (k, v) :: m, n => if k = n then (k, f v) :: m else (k, v) :: modify f m n
/-- The table with every value changed. -/
def mapV {α : Type} (f : Nat → α → α) : NMap α → NMap α
  | [] => []
  | (k, v) :: m => (k, f k v) :: mapV f m
/-- The table with the entries that a test keeps. -/
def keep {α : Type} (f : Nat → α → Bool) : NMap α → NMap α
  | [] => []
  | (k, v) :: m => if f k v then (k, v) :: keep f m else keep f m
/-- The keys, and the first entry that a test finds. -/
def keys {α : Type} (m : NMap α) : List Nat := List.map (fun x => x.1) m
def findV {α : Type} (f : Nat → α → Bool) : NMap α → Option (Nat × α)
  | [] => none
  | (k, v) :: m => if f k v then some (k, v) else findV f m

end NMap

end Sys2Proof
end

