-- ==== Sys2Proof/Syntax.lean ====
section
/-! DEFINITION. The syntax of the HK-820: field records of the word forms (Tables 1-1 to 1-4), the operands of
the events, and the one inductive of instructions. -/

namespace Sys2Proof

/-- IMM32 of a scalar S-X memory word (Table 1-2). -/
structure SXMem where
  off : BitVec 20
  ord : BitVec 2
  obs : BitVec 5
  wid : BitVec 3
  sgn : BitVec 1
  deriving DecidableEq, Repr, Inhabited

/-- The head that every lane word shares, bits 81:35 (Table 1-3). -/
structure LaneHead where
  fmt : BitVec 4
  mfmt : BitVec 4
  prd : BitVec 4
  pdst : BitVec 3
  dst : BitVec 8
  sa : BitVec 8
  sb : BitVec 8
  nega : BitVec 1
  negb : BitVec 1
  absa : BitVec 1
  absb : BitVec 1
  fea : BitVec 1
  feb : BitVec 1
  rua : BitVec 1
  rub : BitVec 1
  deriving DecidableEq, Repr, Inhabited

/-- A lane word of form L3, its OP and SUB left to the constructor (Table 1-3). -/
structure L3 extends LaneHead where
  sc : BitVec 8
  negc : BitVec 1
  absc : BitVec 1
  fec : BitVec 1
  ruc : BitVec 1
  clp : BitVec 2
  scl : BitVec 3
  rm : BitVec 3
  obs : BitVec 5
  ord : BitVec 2
  ch : BitVec 2
  aux : BitVec 6
  deriving DecidableEq, Repr, Inhabited

/-- A lane word of form LI (Table 1-3). -/
structure LI extends LaneHead where
  imm : BitVec 32
  rm : BitVec 3
  deriving DecidableEq, Repr, Inhabited

/-- A matrix word of form M-A (Table 1-4). -/
structure MA where
  sub : BitVec 4
  acc : BitVec 6
  sa : BitVec 2
  sb : BitVec 2
  af : BitVec 4
  bf : BitVec 4
  rm : BitVec 3
  sat : BitVec 1
  mrp : BitVec 2
  mcp : BitVec 2
  kc : BitVec 12
  qk : BitVec 4
  acb : BitVec 6
  omi : BitVec 4
  deriving DecidableEq, Repr, Inhabited

/-- A matrix word of form M-P (Table 1-4). -/
structure MP where
  rc : BitVec 1
  pi : BitVec 2
  cnt : BitVec 7
  first : BitVec 6
  qs : BitVec 4
  omi : BitVec 4
  deriving DecidableEq, Repr, Inhabited

/-- A stream of the module: a scalar stream, a split of a lane stream, or a matrix sequencer (R15). -/
inductive StreamId where
  | scalar (core slot : Nat)
  | split (core slot k : Nat)
  | seq (core block : Nat)
  deriving DecidableEq, Repr, Inhabited

/-- A record forwarded to a queue home of this module (R348). -/
structure RemoteRecord where
  part : Nat
  queue : Nat
  srcDev : Nat
  data : List Byte
  /-- The signature that it carries, where its run has `.rel` (R349). -/
  rel : Option (BitVec 512) := none
  deriving DecidableEq, Repr, Inhabited

/-- A remote load, store or atomic as it arrives from a peer (R103, R104). -/
structure RemoteReq where
  srcDev : Nat
  tag : Nat
  addr : Nat
  len : Nat
  mask : Nat
  data : List Byte
  op : Nat
  x : Nat
  y : Nat
  age : Nat
  /-- Whether it is an acquire and a release, and the signature that a release carries (R130, R133, R134). -/
  acq : Bool
  rel : Bool
  sig : BitVec 512
  /-- The generation of the home's table that the requesting core has seen (R131). -/
  gen : Nat
  deriving DecidableEq, Repr, Inhabited

/-- One segment of an RMA transfer as it arrives from a peer (R106, R107). -/
structure RmaSegment where
  srcDev : Nat
  tag : Nat
  key : Nat
  seq : Nat
  incarnation : Nat
  kind : Nat
  roff : Nat
  len : Nat
  op : Nat
  x : Nat
  y : Nat
  data : List Byte
  deriving DecidableEq, Repr, Inhabited

/-- A Fumarole summary as it arrives (R357). -/
structure SummaryMsg where
  part : Nat
  queue : Nat
  dev : Nat
  backlog : Nat
  age : Nat
  weight : Nat
  deriving DecidableEq, Repr, Inhabited

/-- What one peer device reports in a termination round (R358). -/
structure TermReport where
  dev : Nat
  quiet : Bool
  sent : Nat
  received : Nat
  deriving DecidableEq, Repr, Inhabited

/-- What an event brings from outside its agent: which party and which entry it concerns, and the data that arrive
with it. Each event reads the fields that its meaning names and no other; `errs` is met by every access of the step. -/
structure Input where
  stream : StreamId
  core : Nat
  slot : Nat
  unit : Nat
  idx : Nat
  die : Nat
  port : Nat
  vc : Nat
  part : Nat
  addr : Nat
  len : Nat
  op : Nat
  x : Nat
  y : Nat
  value : W64
  bytes : List Byte
  ok : Bool
  nums : List Nat
  req : RemoteReq
  seg : RmaSegment
  rcd : RemoteRecord
  summary : SummaryMsg
  reports : List TermReport
  /-- The places where the step meets an error of a memory's check: the kind of memory with its 32-byte unit, and the subcode of Table
  5-5, or 0 for a single bit that is corrected and counted (R110, R148). -/
  errs : List (Nat × Nat)
  /-- What the answer of a peer brings of the entry and the generation of its signature table (R130, R131). -/
  all : Bool
  sig : BitVec 512
  gen : Nat
  deriving DecidableEq, Repr, Inhabited

/-- The instructions of the three streams, and after them the events of the agents that fetch no word
(the last 85 rows of the opcode table): one constructor per row. The instructions with operands come first. An
event's operands are in the record Input; a hint's bits have no meaning (R34) and are not kept; and the
sequencer's control words of form M-C take QD and IMM48 from the word register of the State. -/
inductive Instr where
  /-- SADD (R252). -/
  | sadd (d a b : BitVec 6) (f : BitVec 3)
  /-- SSUB (R252). -/
  | ssub (d a b : BitVec 6) (f : BitVec 3)
  /-- SMUL (R252). -/
  | smul (d a b : BitVec 6) (f : BitVec 3)
  /-- SMULH (R252). -/
  | smulh (d a b : BitVec 6) (f : BitVec 3)
  /-- SMIN (R252). -/
  | smin (d a b : BitVec 6) (f : BitVec 3)
  /-- SMAX (R252). -/
  | smax (d a b : BitVec 6) (f : BitVec 3)
  /-- SABS (R252). -/
  | sabs (d a : BitVec 6) (f : BitVec 3)
  /-- SNEG (R252). -/
  | sneg (d a : BitVec 6) (f : BitVec 3)
  /-- SADDC (R252). -/
  | saddc (d a b : BitVec 6) (f : BitVec 3)
  /-- SAND (R252). -/
  | sand (d a b : BitVec 6) (f : BitVec 3)
  /-- SOR (R252). -/
  | sor (d a b : BitVec 6) (f : BitVec 3)
  /-- SXOR (R252). -/
  | sxor (d a b : BitVec 6) (f : BitVec 3)
  /-- SNOT (R252). -/
  | snot (d a : BitVec 6) (f : BitVec 3)
  /-- SSHL (R252). -/
  | sshl (d a b : BitVec 6) (f : BitVec 3)
  /-- SSHR (R252). -/
  | sshr (d a b : BitVec 6) (f : BitVec 3)
  /-- SSRA (R252). -/
  | ssra (d a b : BitVec 6) (f : BitVec 3)
  /-- SPOPC (R252). -/
  | spopc (d a : BitVec 6) (f : BitVec 3)
  /-- SCLZ (R252). -/
  | sclz (d a : BitVec 6) (f : BitVec 3)
  /-- SBREV (R252). -/
  | sbrev (d a : BitVec 6) (f : BitVec 3)
  /-- SMOV (R252). -/
  | smov (d a : BitVec 6) (f : BitVec 3)
  /-- SCMP (R253). -/
  | scmp (d a b : BitVec 6) (c : BitVec 5) (f : BitVec 3)
  /-- SFADD (R254). -/
  | sfadd (d a b : BitVec 6) (f : BitVec 3)
  /-- SFMUL (R254). -/
  | sfmul (d a b : BitVec 6) (f : BitVec 3)
  /-- SFMIN (R254). -/
  | sfmin (d a b : BitVec 6) (f : BitVec 3)
  /-- SFMAX (R254). -/
  | sfmax (d a b : BitVec 6) (f : BitVec 3)
  /-- SCVT (R254). -/
  | scvt (d a : BitVec 6) (t f : BitVec 3)
  /-- SFCMP (R254). -/
  | sfcmp (d a b : BitVec 6) (c : BitVec 5) (f : BitVec 3)
  /-- SADD_IMM (R255). -/
  | saddImm (d a : BitVec 6) (i : BitVec 13)
  /-- SMUL_IMM (R255). -/
  | smulImm (d a : BitVec 6) (i : BitVec 13)
  /-- SAND_IMM (R255). -/
  | sandImm (d a : BitVec 6) (i : BitVec 13)
  /-- SOR_IMM (R255). -/
  | sorImm (d a : BitVec 6) (i : BitVec 13)
  /-- SXOR_IMM (R255). -/
  | sxorImm (d a : BitVec 6) (i : BitVec 13)
  /-- SSHL_IMM (R255). -/
  | sshlImm (d a n : BitVec 6)
  /-- SSHR_IMM (R255). -/
  | sshrImm (d a n : BitVec 6)
  /-- SSRA_IMM (R255). -/
  | ssraImm (d a n : BitVec 6)
  /-- SBFE (R255). -/
  | sbfe (d a : BitVec 6) (l : BitVec 7) (p : BitVec 6)
  /-- SBFI (R255). -/
  | sbfi (d a : BitVec 6) (l : BitVec 7) (p : BitVec 6)
  /-- SLD (R144). -/
  | sld (d a : BitVec 6) (i : BitVec 13)
  /-- SST (R144). -/
  | sst (d a : BitVec 6) (i : BitVec 13)
  /-- CPY (R170). -/
  | cpy (a b : BitVec 6) (e : BitVec 1) (m : BitVec 2)
  /-- CPYG (R171). -/
  | cpyg (a b : BitVec 6) (e x : BitVec 1)
  /-- CSEAL (R173). -/
  | cseal (d : BitVec 6)
  /-- CWAIT (R175). -/
  | cwait (a : BitVec 6)
  /-- CPOLL (R176). -/
  | cpoll (d a : BitVec 6)
  /-- OMAP (R180). -/
  | omap (a : BitVec 6) (k : BitVec 4)
  /-- OSTAT (R186). -/
  | ostat (d : BitVec 6) (k : BitVec 3)
  /-- TDEF (R204). -/
  | tdef (a b : BitVec 6)
  /-- TRDS (R205). -/
  | trds (a b : BitVec 6)
  /-- TKILL (R206). -/
  | tkill (a : BitVec 6)
  /-- TQRY (R207). -/
  | tqry (d a : BitVec 6)
  /-- SNAPDEF (R314). -/
  | snapdef (a b : BitVec 6)
  /-- SNAP (R302). -/
  | snap (a : BitVec 6)
  /-- SACC (R307). -/
  | sacc (a : BitVec 6)
  /-- SREJ (R308). -/
  | srej (a : BitVec 6) (o : BitVec 5)
  /-- SQRY (R315). -/
  | sqry (d a : BitVec 6)
  /-- SSWEEP (R311). -/
  | ssweep (a : BitVec 6)
  /-- BAR (R336). -/
  | bar (d : BitVec 6) (sc : BitVec 3)
  /-- NBINIT (R337). -/
  | nbinit (n : BitVec 4) (a : BitVec 6)
  /-- NBARR (R337). -/
  | nbarr (n : BitVec 4)
  /-- NBWAIT (R337). -/
  | nbwait (n : BitVec 4) (a : BitVec 6)
  /-- CTRADD (R359). -/
  | ctradd (a b : BitVec 6) (o : BitVec 5)
  /-- CTRWAIT (R359). -/
  | ctrwait (a b : BitVec 6) (o : BitVec 5)
  /-- TICKET (R360). -/
  | ticket (d a b : BitVec 6)
  /-- DIFFMAX (R360). -/
  | diffmax (d a b : BitVec 6)
  /-- LAUNCH (R361). -/
  | launch (d a b : BitVec 6)
  /-- LAUNCH_DIRECT (R361). -/
  | launchDirect (d a b : BitVec 6)
  /-- RMPUT (R114). -/
  | rmput (a b : BitVec 6) (e : BitVec 1)
  /-- RMGET (R114). -/
  | rmget (a b : BitVec 6) (e : BitVec 1)
  /-- RMATOM (R115). -/
  | rmatom (d a b : BitVec 6) (w : BitVec 1) (op : BitVec 3)
  /-- RMATOM_CAS (R115). -/
  | rmatomCas (d a b : BitVec 6) (w : BitVec 1)
  /-- RMFLUSH (R116). -/
  | rmflush (a : BitVec 6)
  /-- KEYSET (R117). -/
  | keyset (d a b : BitVec 6) (r : BitVec 3)
  /-- KEYREV (R118). -/
  | keyrev (a : BitVec 6)
  /-- FLUSHP (R119). -/
  | flushp (a : BitVec 6)
  /-- FENCE (R135). -/
  | fence (o : BitVec 5)
  /-- LINV (R145). -/
  | linv (a b : BitVec 6)
  /-- LWB (R145). -/
  | lwb (a b : BitVec 6)
  /-- SAPER (R90). -/
  | saper (d a : BitVec 6)
  /-- PPROBE (R91). -/
  | pprobe (d a : BitVec 6) (k : BitVec 2)
  /-- TLBI_RANGE (R92). -/
  | tlbiRange (a b : BitVec 6)
  /-- TLBI_SSET (R92). -/
  | tlbiSset (a : BitVec 6)
  /-- SFMT (R224). -/
  | sfmt (a : BitVec 6)
  /-- TRIALON (R396). -/
  | trialon (a b : BitVec 6)
  /-- TRIALOFF (R396). -/
  | trialoff (d : BitVec 6)
  /-- PROG (R397). -/
  | prog (c : BitVec 3)
  /-- BKPT (R393). -/
  | bkpt (c : BitVec 5)
  /-- TRAP (R376). -/
  | trap (a : BitVec 6) (c : BitVec 5)
  /-- SYSR (R375). -/
  | sysr (d : BitVec 6) (n : BitVec 11)
  /-- SYSW (R375). -/
  | sysw (a : BitVec 6) (n : BitVec 11)
  /-- PREQ (R378). -/
  | preq (d a b : BitVec 6)
  /-- PREQ_RST (R378). -/
  | preqRst (d a b : BitVec 6)
  /-- HALT (R379). -/
  | halt (d a : BitVec 6)
  /-- SRET (R340). -/
  | sret (a : BitVec 6)
  /-- SPAUSE (R322). -/
  | spause (a : BitVec 6)
  /-- SBR_Z (R340). -/
  | sbrZ (a : BitVec 6) (o : BitVec 20)
  /-- SBR_NZ (R340). -/
  | sbrNz (a : BitVec 6) (o : BitVec 20)
  /-- SJMP (R340). -/
  | sjmp (o : BitVec 20)
  /-- SCALL (R340). -/
  | scall (a : BitVec 6) (o : BitVec 20)
  /-- LISSUE (R319). -/
  | lissue (w0 w1 w2 w3 : BitVec 6) (t : BitVec 32)
  /-- SLI (R256). -/
  | sli (d : BitVec 6) (i : BitVec 32)
  /-- SLIH (R256). -/
  | slih (d : BitVec 6) (i : BitVec 32)
  /-- SLEA (R256). -/
  | slea (d a b n : BitVec 6) (i : BitVec 32)
  /-- SSEL (R256). -/
  | ssel (d a b c : BitVec 6)
  /-- SLD_X (R144). -/
  | sldX (d a : BitVec 6) (x : SXMem)
  /-- SST_X (R144). -/
  | sstX (d a : BitVec 6) (x : SXMem)
  /-- SATOM (R141). -/
  | satom (d a b : BitVec 6) (op : BitVec 3) (x : SXMem)
  /-- SCAS (R141). -/
  | scas (d a b n : BitVec 6) (x : SXMem)
  /-- FADD (R233). -/
  | fadd (w : L3)
  /-- FMUL (R233). -/
  | fmul (w : L3)
  /-- FFMA (R233). -/
  | ffma (w : L3)
  /-- FMIN (R234). -/
  | fmin (w : L3)
  /-- FMAX (R234). -/
  | fmax (w : L3)
  /-- FRND (R236). -/
  | frnd (w : L3)
  /-- FCMP (R235). -/
  | fcmp (w : L3)
  /-- FDIVC (R233). -/
  | fdivc (w : L3)
  /-- FRCP (R237). -/
  | frcp (w : L3)
  /-- FRSQ (R237). -/
  | frsq (w : L3)
  /-- FSQRT (R237). -/
  | fsqrt (w : L3)
  /-- FEX2 (R237). -/
  | fex2 (w : L3)
  /-- FLG2 (R237). -/
  | flg2 (w : L3)
  /-- FSIN (R237). -/
  | fsin (w : L3)
  /-- FCOS (R237). -/
  | fcos (w : L3)
  /-- BFADD2 (R238). -/
  | bfadd2 (w : L3)
  /-- BFMUL2 (R238). -/
  | bfmul2 (w : L3)
  /-- BFFMA2 (R238). -/
  | bffma2 (w : L3)
  /-- BFMIN2 (R238). -/
  | bfmin2 (w : L3)
  /-- BFMAX2 (R238). -/
  | bfmax2 (w : L3)
  /-- DADD (R233). -/
  | dadd (w : L3)
  /-- DMUL (R233). -/
  | dmul (w : L3)
  /-- DFMA (R233). -/
  | dfma (w : L3)
  /-- DMIN (R234). -/
  | dmin (w : L3)
  /-- DMAX (R234). -/
  | dmax (w : L3)
  /-- DCMP (R235). -/
  | dcmp (w : L3)
  /-- DRCP (R237). -/
  | drcp (w : L3)
  /-- DRSQ (R237). -/
  | drsq (w : L3)
  /-- DSQRT (R237). -/
  | dsqrt (w : L3)
  /-- IADD (R240). -/
  | iadd (w : L3)
  /-- ISUB (R240). -/
  | isub (w : L3)
  /-- IMUL (R240). -/
  | imul (w : L3)
  /-- IMULH (R240). -/
  | imulh (w : L3)
  /-- IMAD (R240). -/
  | imad (w : L3)
  /-- IMIN (R240). -/
  | imin (w : L3)
  /-- IMAX (R240). -/
  | imax (w : L3)
  /-- IABS (R240). -/
  | iabs (w : L3)
  /-- INEG (R240). -/
  | ineg (w : L3)
  /-- IADDC (R241). -/
  | iaddc (w : L3)
  /-- ICMP (R235). -/
  | icmp (w : L3)
  /-- AND (R242). -/
  | land (w : L3)
  /-- OR (R242). -/
  | lor (w : L3)
  /-- XOR (R242). -/
  | lxor (w : L3)
  /-- NOT (R242). -/
  | lnot (w : L3)
  /-- SHL (R242). -/
  | shl (w : L3)
  /-- SHR (R242). -/
  | shr (w : L3)
  /-- SRA (R242). -/
  | sra (w : L3)
  /-- BFE (R243). -/
  | bfe (w : L3)
  /-- BFI (R243). -/
  | bfi (w : L3)
  /-- POPC (R242). -/
  | popc (w : L3)
  /-- CLZ (R242). -/
  | clz (w : L3)
  /-- BREV (R242). -/
  | brev (w : L3)
  /-- CVT (R244). -/
  | cvt (w : L3)
  /-- MOV (R245). -/
  | mov (w : L3)
  /-- SEL (R245). -/
  | sel (w : L3)
  /-- PLOP (R246). -/
  | plop (w : L3)
  /-- MOV_W (R245). -/
  | movW (w : L3)
  /-- LANEID (R245). -/
  | laneid (w : L3)
  /-- MOVI (R245). -/
  | movi (w : LI)
  /-- FADD_IMM (R228). -/
  | faddImm (w : LI)
  /-- FMUL_IMM (R228). -/
  | fmulImm (w : LI)
  /-- FFMA_IMM (R228). -/
  | ffmaImm (w : LI)
  /-- FMIN_IMM (R228). -/
  | fminImm (w : LI)
  /-- FMAX_IMM (R228). -/
  | fmaxImm (w : LI)
  /-- FCMP_IMM (R228). -/
  | fcmpImm (w : LI)
  /-- FDIVC_IMM (R228). -/
  | fdivcImm (w : LI)
  /-- BFADD2_IMM (R238). -/
  | bfadd2Imm (w : LI)
  /-- BFMUL2_IMM (R238). -/
  | bfmul2Imm (w : LI)
  /-- BFFMA2_IMM (R238). -/
  | bffma2Imm (w : LI)
  /-- BFMIN2_IMM (R238). -/
  | bfmin2Imm (w : LI)
  /-- BFMAX2_IMM (R238). -/
  | bfmax2Imm (w : LI)
  /-- DADD_IMM (R239). -/
  | daddImm (w : LI)
  /-- DMUL_IMM (R239). -/
  | dmulImm (w : LI)
  /-- DFMA_IMM (R239). -/
  | dfmaImm (w : LI)
  /-- DMIN_IMM (R239). -/
  | dminImm (w : LI)
  /-- DMAX_IMM (R239). -/
  | dmaxImm (w : LI)
  /-- DCMP_IMM (R239). -/
  | dcmpImm (w : LI)
  /-- IADD_IMM (R228). -/
  | iaddImm (w : LI)
  /-- ISUB_IMM (R228). -/
  | isubImm (w : LI)
  /-- IMUL_IMM (R228). -/
  | imulImm (w : LI)
  /-- IMULH_IMM (R228). -/
  | imulhImm (w : LI)
  /-- IMAD_IMM (R228). -/
  | imadImm (w : LI)
  /-- IMIN_IMM (R228). -/
  | iminImm (w : LI)
  /-- IMAX_IMM (R228). -/
  | imaxImm (w : LI)
  /-- IADDC_IMM (R241). -/
  | iaddcImm (w : LI)
  /-- ICMP_IMM (R228). -/
  | icmpImm (w : LI)
  /-- AND_IMM (R228). -/
  | landImm (w : LI)
  /-- OR_IMM (R228). -/
  | lorImm (w : LI)
  /-- XOR_IMM (R228). -/
  | lxorImm (w : LI)
  /-- SHL_IMM (R242). -/
  | shlImm (w : LI)
  /-- SHR_IMM (R242). -/
  | shrImm (w : LI)
  /-- SRA_IMM (R242). -/
  | sraImm (w : LI)
  /-- BFE_IMM (R243). -/
  | bfeImm (w : LI)
  /-- BFI_IMM (R243). -/
  | bfiImm (w : LI)
  /-- SHFL (R248). -/
  | shfl (w : L3)
  /-- SHFL_IMM (R248). -/
  | shflImm (w : LI)
  /-- VOTE (R249). -/
  | vote (w : L3)
  /-- GRED (R250). -/
  | gred (w : L3)
  /-- GSCAN (R250). -/
  | gscan (w : L3)
  /-- LD (R139). -/
  | ld (w : L3)
  /-- ST (R139). -/
  | st (w : L3)
  /-- ATOM (R141). -/
  | atom (w : L3)
  /-- CAS (R141). -/
  | cas (w : L3)
  /-- PREF (R143). -/
  | pref (w : L3)
  /-- LD_IMM (R31). -/
  | ldImm (w : LI)
  /-- ST_IMM (R31). -/
  | stImm (w : LI)
  /-- PREF_IMM (R31). -/
  | prefImm (w : LI)
  /-- FEZ (R162). -/
  | fez (w : L3)
  /-- FESET (R162). -/
  | feset (w : L3)
  /-- FEQ (R163). -/
  | feq (w : L3)
  /-- LCPY (R172). -/
  | lcpy (w : L3)
  /-- TDEFV (R208). -/
  | tdefv (w : L3)
  /-- TRD (R209). -/
  | trd (w : L3)
  /-- PUSHM (R222). -/
  | pushm (w : L3)
  /-- POPM (R222). -/
  | popm (w : L3)
  /-- LFMT (R225). -/
  | lfmt (w : L3)
  /-- RDSPEC (R226). -/
  | rdspec (w : L3)
  /-- ENQ (R345). -/
  | enq (w : L3)
  /-- ENQD (R346). -/
  | enqd (w : L3)
  /-- LANE_FENCE (R297). -/
  | laneFence (w : L3)
  /-- BRA (R326). -/
  | bra (w : LI)
  /-- LCALL (R332). -/
  | lcall (w : LI)
  /-- LEXIT (R329). -/
  | lexit (w : L3)
  /-- LANE_BKPT (R393). -/
  | laneBkpt (w : L3)
  /-- LANE_PROG (R397). -/
  | laneProg (w : L3)
  /-- LANE_TRAP (R376). -/
  | laneTrap (w : L3)
  /-- MMA (R262). -/
  | mma (w : MA)
  /-- MMAQ (R268). -/
  | mmaq (w : MA)
  /-- MZERO (R270). -/
  | mzero (w : MA)
  /-- MLDA (R271). -/
  | mlda (w : MA)
  /-- MSTA (R274). -/
  | msta (w : MA)
  /-- MADDA (R272). -/
  | madda (w : MA)
  /-- MPRD_CNT (R277). -/
  | mprdCnt (w : MP)
  /-- MPRD_Q (R277). -/
  | mprdQ (w : MP)
  /-- MSCL_SET (R273). -/
  | msclSet (w : MP)
  /-- MSCL_CLR (R273). -/
  | msclClr (w : MP)
  /-- TLBI_CTX (R92). -/
  | tlbiCtx
  /-- RFT (R371). -/
  | rft
  /-- RFT_SKIP (R371). -/
  | rftSkip
  /-- SEXIT (R322). -/
  | sexit
  /-- LSYNC (R321). -/
  | lsync
  /-- SHINT (R34). -/
  | shint
  /-- LEND (R330). -/
  | lend
  /-- WIDE (R333). -/
  | wide
  /-- ENDW (R334). -/
  | endw
  /-- LRET (R332). -/
  | lret
  /-- HINT (R34). -/
  | hint
  /-- MNBA (R278). -/
  | mnba
  /-- MNBW (R278). -/
  | mnbw
  /-- MWAITS (R279). -/
  | mwaits
  /-- MLOOP (R280). -/
  | mloop
  /-- MEND (R280). -/
  | mend
  /-- MJMP (R281). -/
  | mjmp
  /-- MSAFE (R282). -/
  | msafe
  /-- MEXIT (R282). -/
  | mexit
  /-- MHINT (R34). -/
  | mhint
  /-- SRSEED_WRITE (R69). -/
  | srseedWrite
  /-- RLWAYS_WRITE (R125). -/
  | rlwaysWrite
  /-- PARK_RESUME (R14). -/
  | parkResume
  /-- PRODUCER_WRITE (R215). -/
  | producerWrite
  /-- LANE_BLOCK_START (R320). -/
  | laneBlockStart
  /-- REQUEST_TABLE_GRANT (R137). -/
  | requestTableGrant
  /-- FAULT_RESOLVED (R87). -/
  | faultResolved
  /-- FAULT_FATAL (R87). -/
  | faultFatal
  /-- MASKED_WRITEBACK (R123). -/
  | maskedWriteback
  /-- FILL_RETURN (R405). -/
  | fillReturn
  /-- REMOTE_LINE_AGE_EXPIRY (R126). -/
  | remoteLineAgeExpiry
  /-- WAITLIST_RESEND (R160). -/
  | waitlistResend
  /-- COPY_START (R164). -/
  | copyStart
  /-- COPY_UNIT_WRITE (R166). -/
  | copyUnitWrite
  /-- COPY_COMPLETE (R174). -/
  | copyComplete
  /-- FETCHER_DELIVER (R182). -/
  | fetcherDeliver
  /-- MATRIX_UNIT_COMPLETE (R261). -/
  | matrixUnitComplete
  /-- SEQUENCER_SAVE_TIMEOUT (R372). -/
  | sequencerSaveTimeout
  /-- TILE_OP_ACCEPT (R191). -/
  | tileOpAccept
  /-- TILE_DEFINED (R194). -/
  | tileDefined
  /-- TILE_DEFINE_FAIL (R195). -/
  | tileDefineFail
  /-- TILE_READ_COMPLETE (R197). -/
  | tileReadComplete
  /-- TILE_KILL_EFFECT (R198). -/
  | tileKillEffect
  /-- TILE_PLACEMENT_MOVE (R200). -/
  | tilePlacementMove
  /-- TILE_DEADLOCK (R201). -/
  | tileDeadlock
  /-- RUN_APPEND (R347). -/
  | runAppend
  /-- REMOTE_RECORD_ARRIVAL (R348). -/
  | remoteRecordArrival
  /-- REFILL_MOVE (R350). -/
  | refillMove
  /-- PORT_FORWARD (R102). -/
  | portForward
  /-- FLIT_RECEIVE (R110). -/
  | flitReceive
  /-- ESCAPE_TREE_REBUILD (R100). -/
  | escapeTreeRebuild
  /-- XOFF (R96). -/
  | xoff
  /-- XON (R96). -/
  | xon
  /-- PORT_XOFF (R96). -/
  | portXoff
  /-- PROGRESS_TIMER_EXPIRY (R101). -/
  | progressTimerExpiry
  /-- REMOTE_LOAD_REQUEST (R103). -/
  | remoteLoadRequest
  /-- REMOTE_STORE_ARRIVAL (R103). -/
  | remoteStoreArrival
  /-- REMOTE_ATOMIC_REQUEST (R103). -/
  | remoteAtomicRequest
  /-- RMA_SEGMENT_ARRIVAL (R107). -/
  | rmaSegmentArrival
  /-- RMA_CHANNEL_CLOSE (R107). -/
  | rmaChannelClose
  /-- ACK_RECEIVE (R103). -/
  | ackReceive
  /-- NACK_RECEIVE (R111). -/
  | nackReceive
  /-- RETRY_RECEIVE (R112). -/
  | retryReceive
  /-- RESEND_TIMER_EXPIRY (R108). -/
  | resendTimerExpiry
  /-- SUMMARY_SEND (R357). -/
  | summarySend
  /-- SUMMARY_RECEIVE (R357). -/
  | summaryReceive
  /-- TERMINATION_ROUND (R358). -/
  | terminationRound
  /-- SINTER_MERGE_DONE (R307). -/
  | sinterMergeDone
  /-- SINTER_RESTORE_DONE (R308). -/
  | sinterRestoreDone
  /-- SINTER_GROW_DONE (R310). -/
  | sinterGrowDone
  /-- SINTER_SWEEP_DONE (R311). -/
  | sinterSweepDone
  /-- SNAPDEF_TAGS_DONE (R314). -/
  | snapdefTagsDone
  /-- PREEMPT (R372). -/
  | preempt
  /-- HOST_WRITE (R381). -/
  | hostWrite
  /-- HOST_READ (R381). -/
  | hostRead
  /-- HOST_ATOMIC (R380). -/
  | hostAtomic
  /-- DOORBELL (R363). -/
  | doorbell
  /-- CONTROL_WINDOW_WRITE (R380). -/
  | controlWindowWrite
  /-- PARTITION_RESET (R386). -/
  | partitionReset
  /-- DBGEN (R393). -/
  | dbgen
  /-- DEBUG_STOP (R392). -/
  | debugStop
  /-- STOP_DUMP (R392). -/
  | stopDump
  /-- DEBUG_RESUME (R392). -/
  | debugResume
  /-- DEBUG_STEP (R392). -/
  | debugStep
  /-- COMMAND_START (R362). -/
  | commandStart
  /-- COMMAND_COMPLETE (R362). -/
  | commandComplete
  /-- GEYSER_AGEING_STEP (R364). -/
  | geyserAgeingStep
  /-- STEAL_REQ_SEND (R365). -/
  | stealReqSend
  /-- STEAL_REQ (R365). -/
  | stealReq
  /-- STEAL_GRANT (R365). -/
  | stealGrant
  /-- VECTOR_PENDING_SEND (R383). -/
  | vectorPendingSend
  /-- PARTITION_DESCRIPTOR_WRITE (R382). -/
  | partitionDescriptorWrite
  /-- POWER_ON (R388). -/
  | powerOn
  /-- SPDM_GET_VERSION (R389). -/
  | spdmGetVersion
  /-- SPDM_GET_CAPABILITIES (R389). -/
  | spdmGetCapabilities
  /-- SPDM_NEGOTIATE_ALGORITHMS (R389). -/
  | spdmNegotiateAlgorithms
  /-- SPDM_GET_DIGESTS (R389). -/
  | spdmGetDigests
  /-- SPDM_GET_CERTIFICATE (R389). -/
  | spdmGetCertificate
  /-- SPDM_CHALLENGE (R389). -/
  | spdmChallenge
  /-- SPDM_GET_MEASUREMENTS (R389). -/
  | spdmGetMeasurements
  /-- SPDM_UNSUPPORTED_REQUEST (R389). -/
  | spdmUnsupportedRequest
  /-- POWER_MEASUREMENT (R390). -/
  | powerMeasurement
  /-- THERMAL_TRIP (R390). -/
  | thermalTrip
  /-- STALL_SAMPLE (R395). -/
  | stallSample
  /-- ACCEPTED_BY_HOST_MEMORY (R133). -/
  | acceptedByHostMemory
  deriving DecidableEq, Repr, Inhabited

/-- The party whose step comes next: a stream that issues, an event, or an egress port that starts a packet (R95). -/
inductive Turn where
  | scalar (core slot : Nat)
  | lane (core slot : Nat)
  | seq (core block : Nat)
  | event (i : Instr)
  | egress (port : Nat)
  | idle
  deriving DecidableEq, Repr, Inhabited

end Sys2Proof
end

