-- ==== Sys2Proof/Machine/Encoding.lean ====
section
/-! DEFINITION. The decode checks of Table 1-13 that look at field values (orders 3, 4, 6 and 7), stated once for
the field records of an instruction; the decoder and well-formedness both use them. -/

namespace Sys2Proof.Encoding
open Bits

/-- How an instruction uses a source field: not at all, as a register, or as a field of its own. -/
inductive Use where
  | no
  | reg
  | raw
  deriving DecidableEq, Repr

/-- What a lane instruction accepts: one row of Table 11-3, 6-2, 7-3, 9-5, 10-5, 15-4 or 16-2. Masks have one bit
per accepted code. -/
structure LaneRow where
  fmts : Nat := 1
  fmt0 : Bool := false
  mfmt : Bool := false
  dst : Bool := true
  sa : Use := .no
  sb : Use := .no
  sc : Use := .no
  mods : Bool := false
  pdst : Bool := false
  rm : Nat := 1
  cs : Bool := false
  ords : Nat := 1
  obs : Bool := false
  ch : Bool := false
  aux : Nat := 0
  ru0 : Bool := false
  /-- RUC may be set although C is not read, since only R27 speaks of it. -/
  rucFree : Bool := false
  deriving DecidableEq, Repr

def fF32 : Nat := 2 ^ 5
def fBF2 : Nat := 2 ^ 7
def fF64 : Nat := 2 ^ 8
def fI32s : Nat := 1 + 2 + 4
def fInts : Nat := 1 + 2 + 4 + 8 + 16
def fAll : Nat := 511
/-- RM 0 to 4: any but rsr. -/
def rmAny : Nat := 31
/-- RM 0 to 5. -/
def rmRsr : Nat := 63

/-- A one-source, two-source or three-source arithmetic row (Table 11-3). -/
def arith (fmts n rm : Nat) (mods cs : Bool) : LaneRow :=
  { fmts, sa := .reg, sb := if 1 < n then .reg else .no, sc := if 2 < n then .reg else .no, rm, mods, cs }
/-- A compare row: the result goes to PDST (R235). -/
def cmp (fmts : Nat) (mods : Bool) : LaneRow :=
  { fmts, dst := false, sa := .reg, sb := .reg, mods, pdst := true, aux := 7 }
/-- A control row: every field but PRD must be zero. -/
def control (aux : Nat) : LaneRow := { fmt0 := true, dst := false, ru0 := true, aux }

/-- The row of an L3 instruction. DESIGN CHOICE: RM of a TDEFV is a field only where it rounds, for MFMT 1 to 6; Table 9-5 lists RM for every
TDEFV, and R26 wants it zero elsewhere (log 59). -/
def rowL3 : Instr → LaneRow
  | .fadd _ | .fmul _ | .fdivc _ => arith fF32 2 rmAny true true
  | .ffma _ => arith fF32 3 rmAny true true
  | .fmin _ | .fmax _ => arith fF32 2 1 true false
  | .frnd _ | .frcp _ | .frsq _ | .fsqrt _ | .fex2 _ | .flg2 _ | .fsin _ | .fcos _ => arith fF32 1 rmAny true false
  | .fcmp _ => cmp fF32 true
  | .bfadd2 _ | .bfmul2 _ => arith fBF2 2 rmAny true true
  | .bffma2 _ => arith fBF2 3 rmAny true true
  | .bfmin2 _ | .bfmax2 _ => arith fBF2 2 1 true false
  | .dadd _ | .dmul _ => arith fF64 2 rmAny true true
  | .dfma _ => arith fF64 3 rmAny true true
  | .dmin _ | .dmax _ => arith fF64 2 1 true false
  | .dcmp _ => cmp fF64 true
  | .drcp _ | .drsq _ | .dsqrt _ => arith fF64 1 rmAny true false
  | .iadd _ | .isub _ | .imin _ | .imax _ | .land _ | .lor _ | .lxor _ | .shl _ | .shr _ | .sra _ =>
    arith fInts 2 1 false false
  | .imul _ | .imulh _ | .bfe _ => arith fI32s 2 1 false false
  | .imad _ => arith fI32s 3 1 false false
  | .iabs _ | .ineg _ => arith (2 + 8) 1 1 false false
  | .iaddc _ => { arith fI32s 2 1 false false with pdst := true, aux := 7 }
  | .icmp _ => cmp fInts false
  | .lnot _ => arith fInts 1 1 false false
  | .bfi _ => arith 1 3 1 false false
  | .popc _ | .clz _ | .brev _ => arith 1 1 1 false false
  | .cvt w =>
    let src := w.aux.toNat % 16
    let isF (c : Nat) : Bool := c == 5 || c == 6 || c == 7 || c == 8
    { fmts := fAll - 1, sa := .reg, sb := if w.fmt.toNat = 7 then .reg else .no, mods := isF src,
      rm := 255, cs := isF w.fmt.toNat, aux := 31 }
  | .mov _ => arith fAll 1 1 false false
  | .sel _ => { arith fAll 2 1 false false with aux := 15 }
  | .plop _ => { dst := false, sa := .raw, sb := .raw, pdst := true, aux := 15, ru0 := true }
  | .movW _ => { fmts := fAll, aux := 3 }
  | .laneid _ => {}
  | .shfl _ => { arith (1 + 8) 2 1 false false with pdst := true, aux := 3 }
  | .vote _ => { sa := .raw, pdst := true, aux := 35 }
  | .gred w =>
    { fmts := fI32s + fF32 + fF64, sa := .reg, aux := 39,
      rm := if (w.fmt.toNat = 5 ∨ w.fmt.toNat = 8) ∧ w.aux.toNat % 8 = 0 then rmAny else 1 }
  | .gscan w =>
    { fmts := fI32s + fF32 + fF64, sa := .reg, aux := 15,
      rm := if (w.fmt.toNat = 5 ∨ w.fmt.toNat = 8) ∧ w.aux.toNat % 8 = 0 then rmAny else 1 }
  | .ld _ => { rucFree := true, fmts := fAll, mfmt := true, sa := .reg, aux := 31, ords := 3, obs := true, ch := true }
  | .st w =>
    { rucFree := true, fmts := fAll, mfmt := true, dst := false, sa := .reg, sb := .reg, aux := 31, ords := 5, obs := true, ch := true,
      rm := if 1 ≤ w.mfmt.toNat ∧ w.mfmt.toNat ≤ 6 then rmRsr else 1 }
  | .atom _ => { rucFree := true, fmts := fAll, sa := .reg, sb := .reg, aux := 63, ords := 15, obs := true, ch := true }
  | .cas _ => { fmts := fAll, sa := .reg, sb := .reg, sc := .reg, aux := 7, ords := 15, obs := true, ch := true }
  | .pref _ => { rucFree := true, fmts := 1, mfmt := true, dst := false, sa := .reg, aux := 31, ch := true }
  | .fez _ | .feset _ => { mfmt := true, dst := false, sa := .reg, sb := .reg, ru0 := true }
  | .feq _ => { mfmt := true, sa := .reg, ru0 := true }
  | .lcpy _ => { fmt0 := true, dst := false, sa := .reg, sb := .reg, sc := .reg }
  | .tdefv w =>
    { rucFree := true, fmts := fAll, mfmt := true, dst := false, sa := .reg, aux := 3,
      rm := if (1 ≤ w.mfmt.toNat ∧ w.mfmt.toNat ≤ 6) ∨ w.rm = 5 then rmAny else 1 }
  | .trd _ => { rucFree := true, fmts := fAll, mfmt := true, sa := .reg, sb := .reg, aux := 3 }
  | .pushm _ => { mfmt := true, dst := false, sa := .reg, sb := .raw, ru0 := true }
  | .popm _ => { mfmt := true, dst := false, sa := .raw, sb := .raw, ru0 := true }
  | .lfmt _ => { mfmt := true, dst := false, sa := .reg, ru0 := true }
  | .rdspec _ => { mfmt := true, aux := 63, ru0 := true }
  | .enq _ => { mfmt := true, dst := false, sa := .reg, aux := 3, ords := 5, obs := true, ru0 := true }
  | .enqd _ => { mfmt := true, dst := false, sa := .reg, sb := .reg, aux := 3, ords := 5, obs := true, ru0 := true }
  | .laneFence _ => { control 0 with obs := true }
  | .lexit _ => control 0
  | .laneBkpt _ | .laneTrap _ => control 63
  | .laneProg _ => control 7
  | _ => {}

/-- The row of an LI instruction: as its L3 counterpart, with the immediate in place of the last source (R31, R228). -/
def rowLI : Instr → LaneRow
  | .faddImm _ | .fmulImm _ | .fdivcImm _ => arith fF32 1 rmAny true false
  | .ffmaImm _ => arith fF32 2 rmAny true false
  | .fminImm _ | .fmaxImm _ => arith fF32 1 1 true false
  | .fcmpImm _ => { cmp fF32 true with sb := .no, rm := 255 }
  | .bfadd2Imm _ | .bfmul2Imm _ => arith fBF2 1 rmAny true false
  | .bffma2Imm _ => arith fBF2 2 rmAny true false
  | .bfmin2Imm _ | .bfmax2Imm _ => arith fBF2 1 1 true false
  | .daddImm _ | .dmulImm _ => arith fF64 1 rmAny true false
  | .dfmaImm _ => arith fF64 2 rmAny true false
  | .dminImm _ | .dmaxImm _ => arith fF64 1 1 true false
  | .dcmpImm _ => { cmp fF64 true with sb := .no, rm := 255 }
  | .iaddImm _ | .isubImm _ | .iminImm _ | .imaxImm _ | .landImm _ | .lorImm _ | .lxorImm _ | .shlImm _ | .shrImm _
  | .sraImm _ => arith fInts 1 1 false false
  | .imulImm _ | .imulhImm _ | .bfeImm _ => arith fI32s 1 1 false false
  | .imadImm _ => arith fI32s 2 1 false false
  | .iaddcImm _ => { arith fI32s 1 255 false false with pdst := true }
  | .icmpImm _ => { cmp fInts false with sb := .no, rm := 255 }
  | .bfiImm _ => arith 1 2 1 false false
  | .movi _ => { fmts := 1 + 8 + 16 }
  | .shflImm _ => { arith (1 + 8) 1 255 false false with pdst := true }
  | .ldImm _ => { fmts := fAll, mfmt := true, sa := .reg, mods := true, rm := 255 }
  | .stImm _ => { fmts := fAll, mfmt := true, dst := false, sa := .reg, sb := .reg, mods := true, rm := 255 }
  | .prefImm _ => { fmts := 1, mfmt := true, dst := false, sa := .reg, mods := true, rm := 255 }
  | .bra _ | .lcall _ => control 0
  | _ => {}

/-- True when a field that is not used is non-zero. -/
def stray {w : Nat} (used : Bool) (v : BitVec w) : Bool := !used && v != 0

/-- Check 3 on the head of a lane word: an unused field is non-zero (R33). -/
def headStray (r : LaneRow) (memLI : Bool) (h : LaneHead) : Bool :=
  let a := r.sa == .reg
  let b := r.sb == .reg
  (r.fmt0 && h.fmt != 0) || stray r.mfmt h.mfmt || stray r.pdst h.pdst || stray r.dst h.dst
    || stray (r.sa != .no) h.sa || stray (r.sb != .no) h.sb
    || stray (memLI || (r.mods && a)) h.nega || stray (memLI || (r.mods && a)) h.absa
    || stray (memLI || (r.mods && b)) h.negb || stray (memLI || (r.mods && b)) h.absb
    || stray a h.fea || stray b h.feb
    || (r.ru0 && stray a h.rua) || (r.ru0 && stray b h.rub)

/-- Check 3 on the L3 tail. -/
def tailStray (r : LaneRow) (w : L3) : Bool :=
  let c := r.sc == .reg
  stray c w.sc || stray (r.mods && c) w.negc || stray (r.mods && c) w.absc || stray c w.fec || stray (c || r.rucFree) w.ruc
    || stray r.cs w.clp || stray r.cs w.scl || stray (r.rm != 1) w.rm
    || stray r.obs w.obs || stray (r.ords != 1) w.ord || stray r.ch w.ch
    || (w.aux.toNat &&& (63 - r.aux)) != 0

/-- Check 4 common to every lane word: a code that the row does not accept. -/
def fmtBad (r : LaneRow) (h : LaneHead) : Bool := !r.fmt0 && !(bit r.fmts h.fmt.toNat)

/-- Check 4 on the L3 tail (Tables 1-6 and 1-7, R25). -/
def tailBad (r : LaneRow) (w : L3) : Bool :=
  !(bit r.rm w.rm.toNat) || (w.rm.toNat ≥ 6) || (r.cs && w.scl == 4)
    || !(bit r.ords w.ord.toNat)
    || (r.ords != 1 && ((w.ord != 0) != (w.obs != 0)))

/-- The registers that 64-bit FMT codes pair (R22, R232). -/
def pairFmt (fmt : Nat) : Bool := fmt == 3 || fmt == 4 || fmt == 8

/-- The registers that a memory access with MFMT 0 moves, and their alignment (Table 6-3). -/
def rawRegs (wid : Nat) : Nat × Nat := if wid = 3 then (2, 2) else if wid = 4 then (4, 4) else (1, 1)

/-- Elements per register of a converting access or a tile access (Tables 3-9 and 9-6). -/
def elemsPerReg (fmt : Nat) : Nat := if fmt = 7 then 2 else 1

/-- The accepted FMT of a converting access (Table 3-9), as a mask. -/
def mfmtFmts (mfmt : Nat) : Nat :=
  if mfmt = 1 then 2 ^ 5 + 2 ^ 6 + 2 ^ 7
  else if 2 ≤ mfmt ∧ mfmt ≤ 6 then 2 ^ 5 + 2 ^ 7
  else if mfmt = 7 then 2 + 1
  else if mfmt = 8 then 4 + 1
  else 0

/-- The element counts that Table 3-9 accepts, as a mask over the WID codes e1, e2, e4, e8. -/
def mfmtCounts (mfmt : Nat) : Nat :=
  if mfmt = 4 ∨ mfmt = 5 then 12 else if mfmt = 6 then 14 else 15

/-- Registers of an LD or ST: how many from the data register on, and their alignment. -/
def accessRegs (mfmt fmt wid : Nat) : Nat × Nat :=
  if mfmt = 0 then rawRegs wid else ((2 ^ wid + elemsPerReg fmt - 1) / elemsPerReg fmt, 1)

/-- Check 4 on the width, element count, FMT and GFE of LD, ST and PREF (Tables 1-8, 3-9, 6-3, R158). `gfeOk` has
one bit per accepted GFE code. -/
def accessBad (gfeOk mfmt fmt wid gfe ord : Nat) : Bool :=
  let bad := if mfmt = 0 then wid > 4 || fmt > 1 || (fmt == 1 && wid > 2)
    else mfmt > 8 || wid > 3 || !(bit (mfmtFmts mfmt) fmt) || !(bit (mfmtCounts mfmt) wid)
  bad || !(bit gfeOk gfe) || (gfe != 0 && (mfmt != 0 || ord != 0))
    || (ord != 0 && (mfmt != 0 || !(wid == 2 || wid == 3)))

/-- Check 4 on the type and width of ATOM (Table 6-2, R141). -/
def atomBad (fmt wid aop : Nat) : Bool :=
  if wid = 2 then !(fmt == 0 || fmt == 1 || fmt == 2 || fmt == 5) || (fmt == 5 && aop == 7)
  else if wid = 3 then !(fmt == 3 || fmt == 4) else true

/-- Check 4 on the type and width of CAS (Table 6-2). -/
def casBad (fmt wid : Nat) : Bool := if wid = 2 then fmt != 0 else if wid = 3 then fmt != 3 else true

/-- The FMT that a tile access accepts for an MFMT (Table 9-6), as a mask. -/
def tileFmts (mfmt : Nat) : Nat :=
  if mfmt = 0 then 1 + 2 + 4 + 2 ^ 5 + 2 ^ 8 + 8 + 16 else mfmtFmts mfmt

/-- Classes of a CVT type: 0 floating, 1 integer, 2 bf16x2. -/
def cvtClass (c : Nat) : Nat := if c = 5 ∨ c = 6 ∨ c = 8 then 0 else if c = 7 then 2 else 1

/-- Check 4 on CVT: a pairing, sat or RM outside Table 11-6. -/
def cvtBad (w : L3) : Bool :=
  let src := w.aux.toNat % 16
  let sat := w.aux.toNat ≥ 16
  let d := w.fmt.toNat
  let rm := w.rm.toNat
  if src > 8 || src == 7 || d == 0 then true
  else if cvtClass d = 2 then src != 5 || rm > 5
  else if cvtClass src = 0 ∧ cvtClass d = 0 then rm > 5 || (rm == 5 && d != 6)
  else if cvtClass src = 0 then sat || rm > 4
  else if cvtClass d = 0 then sat || rm > 4
  else rm != 0

/-- Check 4 of one L3 instruction beyond its row. A non-zero MFMT of PUSHM, POPM, LFMT, RDSPEC, ENQ and ENQD, for which Tables 10-5 and
16-2 give 0 and no subcode, counts as a value that is not accepted (log 59). -/
def extraL3 : Instr → Bool
  | .fcmp w | .dcmp w => w.pdst == 0
  | .icmp w => w.pdst == 0 || w.aux.toNat % 8 ≥ 6
  | .plop w => w.pdst == 0
  | .cvt w => cvtBad w
  | .vote w =>
    let kind := w.aux.toNat % 4
    let tos := w.aux.toNat ≥ 32
    w.sa.toNat ≥ 16 || (if tos then w.pdst != 0 else if kind = 3 then w.pdst != 0 else w.dst != 0)
  | .gred w | .gscan w =>
    let op := w.aux.toNat % 8
    op ≥ 6 || (op ≥ 3 && (w.fmt == 5 || w.fmt == 8))
  | .ld w => accessBad 7 w.mfmt.toNat w.fmt.toNat (w.aux.toNat % 8) (w.aux.toNat / 8 % 4) w.ord.toNat
  | .st w => accessBad 9 w.mfmt.toNat w.fmt.toNat (w.aux.toNat % 8) (w.aux.toNat / 8 % 4) w.ord.toNat
  | .pref w => accessBad 1 w.mfmt.toNat w.fmt.toNat (w.aux.toNat % 8) (w.aux.toNat / 8 % 4) w.ord.toNat
  | .atom w => atomBad w.fmt.toNat (w.aux.toNat % 8) (w.aux.toNat / 8)
  | .cas w => casBad w.fmt.toNat (w.aux.toNat % 8)
  | .fez w | .feset w | .feq w => w.mfmt != 0
  | .tdefv w | .trd w => !(bit (tileFmts w.mfmt.toNat) w.fmt.toNat)
  | .pushm w | .popm w => w.mfmt != 0 || w.sb.toNat < w.sa.toNat
  | .lfmt w | .enq w | .enqd w => w.mfmt != 0
  | .rdspec w => w.mfmt != 0 || w.aux.toNat ≥ 16
  | .laneFence w => w.obs == 0
  | _ => false

/-- GFE of a word of cell 0x28 (R31). -/
def gfeLI (w : LI) : Nat := w.nega.toNat * 2 + w.negb.toNat
/-- CH of a word of cell 0x28 (R31). -/
def chLI (w : LI) : Nat := w.absa.toNat * 2 + w.absb.toNat

/-- Check 4 of one LI instruction beyond its row. -/
def extraLI : Instr → Bool
  | .fcmpImm w | .dcmpImm w => w.pdst == 0
  | .icmpImm w => w.pdst == 0 || w.rm.toNat ≥ 6
  | .shflImm w => w.rm.toNat ≥ 4
  | .ldImm w => accessBad 7 w.mfmt.toNat w.fmt.toNat w.rm.toNat (gfeLI w) 0
  | .stImm w => accessBad 9 w.mfmt.toNat w.fmt.toNat w.rm.toNat (gfeLI w) 0
  | .prefImm w => accessBad 1 w.mfmt.toNat w.fmt.toNat w.rm.toNat (gfeLI w) 0
  | .bra w => w.imm.toNat % 65536 == 0
  | _ => false

/-- The register fields of a lane word as (first, count, alignment), for checks 6 and 7. -/
def laneRegs : Instr → List (Nat × Nat × Nat)
  | .ld w =>
    let r := accessRegs w.mfmt.toNat w.fmt.toNat (w.aux.toNat % 8)
    [(w.dst.toNat, r.1, r.2), (w.sa.toNat, 2, 2)]
  | .ldImm w =>
    let r := accessRegs w.mfmt.toNat w.fmt.toNat w.rm.toNat
    [(w.dst.toNat, r.1, r.2), (w.sa.toNat, 2, 2)]
  | .st w =>
    let r := accessRegs w.mfmt.toNat w.fmt.toNat (w.aux.toNat % 8)
    [(w.sa.toNat, 2, 2), (w.sb.toNat, r.1, r.2)]
  | .stImm w =>
    let r := accessRegs w.mfmt.toNat w.fmt.toNat w.rm.toNat
    [(w.sa.toNat, 2, 2), (w.sb.toNat, r.1, r.2)]
  | .atom w =>
    let n := if w.aux.toNat % 8 = 3 then 2 else 1
    [(w.dst.toNat, n, n), (w.sa.toNat, 2, 2), (w.sb.toNat, n, n)]
  | .cas w =>
    let n := if w.aux.toNat % 8 = 3 then 2 else 1
    [(w.dst.toNat, n, n), (w.sa.toNat, 2, 2), (w.sb.toNat, n, n), (w.sc.toNat, n, n)]
  | .pref w | .feq w => [(w.sa.toNat, 2, 2)] ++ (if w.dst = 0 then [(0, 1, 1)] else [(w.dst.toNat, 1, 1)])
  | .prefImm w => [(w.sa.toNat, 2, 2)]
  | .fez w | .feset w => [(w.sa.toNat, 2, 2), (w.sb.toNat, 1, 1)]
  | .lcpy w => [(w.sa.toNat, 2, 2), (w.sb.toNat, 2, 2), (w.sc.toNat, 1, 1)]
  | .tdefv w => let n := if pairFmt w.fmt.toNat then 2 else 1; [(w.sa.toNat, n, n)]
  | .trd w =>
    let n := if pairFmt w.fmt.toNat then 2 else 1
    [(w.dst.toNat, n, n), (w.sa.toNat, 1, 1), (w.sb.toNat, 1, 1)]
  | .pushm w | .popm w => [(w.sa.toNat, w.sb.toNat + 1 - w.sa.toNat, 1)]
  | .lfmt w => [(w.sa.toNat, 1, 1)]
  | .rdspec w => [(w.dst.toNat, 1, 1)]
  | .enq w => [(w.sa.toNat, 16, 1)]
  | .enqd w => [(w.sa.toNat, 16, 1), (w.sb.toNat, 1, 1)]
  | .shl w | .shr w | .sra w | .shfl w =>
    let n := if pairFmt w.fmt.toNat then 2 else 1
    [(w.dst.toNat, n, n), (w.sa.toNat, n, n), (w.sb.toNat, 1, 1)]
  | .cvt w =>
    let n := if pairFmt w.fmt.toNat then 2 else 1
    let m := if pairFmt (w.aux.toNat % 16) then 2 else 1
    [(w.dst.toNat, n, n), (w.sa.toNat, m, m)] ++ (if w.fmt = 7 then [(w.sb.toNat, 1, 1)] else [])
  | .vote w => if w.aux.toNat % 4 = 3 ∧ w.aux.toNat < 32 then [(w.dst.toNat, 1, 1)] else []
  | .gred w =>
    let n := if pairFmt w.fmt.toNat then 2 else 1
    (if w.aux.toNat < 32 then [(w.dst.toNat, n, n)] else []) ++ [(w.sa.toNat, n, n)]
  | _ => []

/-- The register fields of an arithmetic row, for checks 6 and 7 (Table 11-3). -/
def rowRegs (r : LaneRow) (h : LaneHead) (sc : Nat) : List (Nat × Nat × Nat) :=
  let n := if pairFmt h.fmt.toNat then 2 else 1
  (if r.dst then [(h.dst.toNat, n, n)] else []) ++ (if r.sa = .reg then [(h.sa.toNat, n, n)] else [])
    ++ (if r.sb = .reg then [(h.sb.toNat, n, n)] else []) ++ (if r.sc = .reg then [(sc, n, n)] else [])

/-- Check 6: a register at or above the group's allocation, or an S register above 63 (R33, R249, R250). -/
def regsBeyond (vregs : Nat) (l : List (Nat × Nat × Nat)) : Bool := l.any (fun r => decide (vregs < r.1 + r.2.1))
/-- Check 7: an odd register where a pair is required, or a base that is not aligned (R22, R139). -/
def regsOdd (l : List (Nat × Nat × Nat)) : Bool := l.any (fun r => r.1 % r.2.2 != 0)
/-- A lane result that goes to S[DST] with DST above 63. -/
def tosBeyond : Instr → Bool
  | .vote w | .gred w => w.aux.toNat ≥ 32 && w.dst.toNat ≥ 64
  | _ => false

/-- The subcode of the first failing check among 3, 4, 6 and 7. -/
def subcode (c3 c4 c6 c7 : Bool) : Option Nat :=
  if c3 then some 3 else if c4 then some 4 else if c6 then some 6 else if c7 then some 7 else none

/-- Registers of any lane word. -/
def allRegs (i : Instr) (r : LaneRow) (h : LaneHead) (sc : Nat) : List (Nat × Nat × Nat) :=
  match i with
  | .ld _ | .ldImm _ | .st _ | .stImm _ | .atom _ | .cas _ | .pref _ | .prefImm _ | .fez _ | .feset _ | .feq _ | .lcpy _
  | .tdefv _ | .trd _ | .pushm _ | .popm _ | .lfmt _ | .rdspec _ | .enq _ | .enqd _ | .shl _ | .shr _ | .sra _ | .shfl _
  | .cvt _ | .vote _ | .gred _ => laneRegs i
  | _ => rowRegs r h sc

/-- The checks 3, 4, 6 and 7 on an L3 instruction of a group with `vregs` lane registers. -/
def faultL3 (vregs : Nat) (i : Instr) (w : L3) : Option Nat :=
  let r := rowL3 i
  let regs := allRegs i r w.toLaneHead w.sc.toNat
  let plopStray := match i with
    | .plop w => w.sa.toNat ≥ 8 || w.sb.toNat ≥ 8
    | _ => false
  subcode (headStray r false w.toLaneHead || tailStray r w || plopStray)
    (fmtBad r w.toLaneHead || tailBad r w || extraL3 i) (regsBeyond vregs regs || tosBeyond i) (regsOdd regs)

/-- The checks 3, 4, 6 and 7 on an LI instruction of a group with `vregs` lane registers. -/
def faultLI (vregs : Nat) (i : Instr) (w : LI) : Option Nat :=
  let r := rowLI i
  let mem := match i with
    | .ldImm _ | .stImm _ | .prefImm _ => true
    | _ => false
  let regs := allRegs i r w.toLaneHead 0
  let immStray := match i with
    | .shflImm w => w.imm.toNat ≥ 32
    | _ => false
  -- RUB of a replaced source B must be zero (R228); MOVI replaces source A, so RUB is on a field that it does not read (R27)
  let rubStray := (match i with
    | .prefImm _ | .ldImm _ | .movi _ => false
    | _ => r.sb == .no) && w.rub != 0
  subcode (headStray r mem w.toLaneHead || stray (r.rm != 1) w.rm || immStray || rubStray)
    (fmtBad r w.toLaneHead || !(bit r.rm w.rm.toNat) || extraLI i) (regsBeyond vregs regs) (regsOdd regs)

/-- True when an MMA accepts the pair of formats (R24). -/
def mmaFmts (af bf : Nat) : Bool :=
  (af == 1 && bf == 1) || (af == 15 && bf == 15) || ((af == 7 || af == 8) && (bf == 7 || bf == 8))
    || (2 ≤ af && af ≤ 6 && 2 ≤ bf && bf ≤ 6)
/-- The formats of MSTA and MLDA (R24). -/
def mstaFmt (af : Nat) : Bool := (1 ≤ af && af ≤ 8) || af == 14 || af == 15

/-- The checks 3, 4 and 7 on a matrix word of form M-A (Table 12-5). The subcode of SAT = 1 on MMAQ, which R264 and Table 12-5 give
differently, is 0x03; so is that of RM 1 to 4 of an MSTA with AF 7 or 8, whose result R274 rounds to no floating-point format, though Table
12-5 lists RM among its fields (R26, log 59). -/
def faultMA (i : Instr) (w : MA) : Option Nat :=
  let af := w.af.toNat
  let bf := w.bf.toNat
  let accBad := w.acc.toNat ≥ 48
  let odd := w.acc.toNat % 2 == 1
  match i with
  | .mma _ =>
    subcode (w.rm != 0 || w.acb != 0 || w.omi != 0 || (w.kc != 0 && w.qk != 0))
      (accBad || !(mmaFmts af bf) || (w.sat == 1 && !(af == 7 || af == 8))) false (af == 15 && odd)
  | .mmaq _ =>
    subcode (w.rm != 0 || w.acb != 0 || w.omi != 0 || w.sat != 0 || (w.kc != 0 && w.qk != 0))
      (accBad || !(9 ≤ af && af ≤ 13 && af == bf) || (af == 9 && w.kc.toNat % 2 == 1)) false false
  | .mzero _ =>
    subcode (w.sa != 0 || w.sb != 0 || w.af != 0 || w.bf != 0 || w.rm != 0 || w.sat != 0 || w.mrp != 0 || w.mcp != 0
      || w.kc != 0 || w.qk != 0 || w.acb != 0 || w.omi != 0) accBad false (w.sub == 1 && odd)
  | .mlda _ =>
    subcode (w.sa != 0 || w.sb != 0 || w.bf != 0 || w.rm != 0 || w.sat != 0 || w.mrp != 0 || w.mcp != 0
      || w.kc != 0 || w.qk != 0 || w.acb != 0) (accBad || !(mstaFmt af)) false (af == 15 && odd)
  | .msta _ =>
    subcode (w.sa != 0 || w.sb != 0 || w.bf != 0 || w.kc != 0 || w.qk != 0 || w.acb != 0 || ((af == 7 || af == 8) && 1 ≤ w.rm.toNat && w.rm.toNat ≤ 4))
      (accBad || !(mstaFmt af) || w.rm.toNat ≥ 6 || (w.rm == 5 && !(1 ≤ af && af ≤ 6))) false (af == 15 && odd)
  | .madda _ =>
    subcode (w.sa != 0 || w.sb != 0 || w.af != 0 || w.bf != 0 || w.rm != 0 || w.sat != 0
      || w.kc != 0 || w.qk != 0 || w.omi != 0) (accBad || w.acb.toNat ≥ 48) false false
  | _ => none

/-- The checks 3 and 4 on a matrix word of form M-P (Table 12-5, R277). -/
def faultMP (i : Instr) (w : MP) : Option Nat :=
  match i with
  | .mprdCnt _ => subcode (w.qs != 0 || w.omi != 0) (w.cnt.toNat > 64) false false
  | .mprdQ _ => subcode (w.cnt != 0 || w.omi != 0) false false false
  | .msclSet _ => subcode (w.pi != 0 || w.cnt != 0 || w.first != 0 || w.qs != 0) false false false
  | .msclClr _ => subcode (w.pi != 0 || w.cnt != 0 || w.first != 0 || w.qs != 0 || w.omi != 0) false false false
  | _ => none

/-- Check 4 on ORD and OBS of a scalar memory word (R25). -/
def sxOrdBad (ords : Nat) (x : SXMem) : Bool := !(bit ords x.ord.toNat) || ((x.ord != 0) != (x.obs != 0))

/-- Integer scalar FMT 0 to 4 (R29). -/
def intFmtBad (f : BitVec 3) : Option Nat := if f.toNat > 4 then some 4 else none
/-- Floating scalar FMT 5 and 6 (R29). -/
def fpFmtBad (f : BitVec 3) : Option Nat := if f = 5 ∨ f = 6 then none else some 4

/-- The subcode of the first of the checks on field values that an instruction fails, in a group with `vregs` lane
registers; none for a well-formed instruction (R33). -/
def fault (vregs : Nat) (i : Instr) : Option Nat :=
  match i with
  | .sadd _ _ _ f | .ssub _ _ _ f | .smul _ _ _ f | .smulh _ _ _ f | .smin _ _ _ f | .smax _ _ _ f | .saddc _ _ _ f
  | .sand _ _ _ f | .sor _ _ _ f | .sxor _ _ _ f | .sshl _ _ _ f | .sshr _ _ _ f | .ssra _ _ _ f => intFmtBad f
  | .sabs _ _ f | .sneg _ _ f | .snot _ _ f | .spopc _ _ f | .sclz _ _ f | .sbrev _ _ f | .smov _ _ f => intFmtBad f
  | .scmp _ _ _ c f => if c.toNat > 5 then some 2 else intFmtBad f
  | .sfadd _ _ _ f | .sfmul _ _ _ f | .sfmin _ _ _ f | .sfmax _ _ _ f => fpFmtBad f
  | .scvt _ _ t f => if t = 7 then some 4 else fpFmtBad f
  | .sfcmp _ _ _ c f => if c.toNat > 7 then some 2 else fpFmtBad f
  | .sbfe _ _ l p | .sbfi _ _ l p => if l = 0 ∨ 64 < l.toNat ∨ 64 < p.toNat + l.toNat then some 4 else none
  | .cpy _ _ _ m => if m = 3 then some 4 else none
  | .bar _ sc => if 4 < sc.toNat then some 4 else none
  | .keyset _ _ _ r => if r = 0 then some 4 else none
  | .fence o => if o = 0 then some 4 else none
  | .pprobe d _ _ => if d = 63 then some 4 else if d.toNat % 2 = 1 then some 7 else none
  | .sldX _ _ x => if x.wid.toNat > 3 ∨ sxOrdBad 3 x then some 4 else none
  | .sstX _ _ x => if x.sgn = 1 then some 3 else if x.wid.toNat > 3 ∨ sxOrdBad 5 x then some 4 else none
  | .satom _ _ _ _ x => if x.wid.toNat < 2 ∨ x.wid.toNat > 3 ∨ x.sgn = 1 ∨ sxOrdBad 15 x then some 4 else none
  | .scas _ _ _ _ x => if x.sgn = 1 then some 3 else if x.wid.toNat < 2 ∨ x.wid.toNat > 3 ∨ sxOrdBad 15 x then some 4 else none
  | .mma w | .mmaq w | .mlda w | .msta w | .madda w => if w.sub ≠ 0 then some 2 else faultMA i w
  | .mzero w => if w.sub.toNat > 1 then some 2 else faultMA i w
  | .mprdCnt w | .mprdQ w | .msclSet w | .msclClr w => faultMP i w
  | .fadd w | .fmul w | .ffma w | .fmin w | .fmax w | .frnd w | .fcmp w | .fdivc w | .frcp w | .frsq w | .fsqrt w
  | .fex2 w | .flg2 w | .fsin w | .fcos w | .bfadd2 w | .bfmul2 w | .bffma2 w | .bfmin2 w | .bfmax2 w | .dadd w
  | .dmul w | .dfma w | .dmin w | .dmax w | .dcmp w | .drcp w | .drsq w | .dsqrt w | .iadd w | .isub w | .imul w
  | .imulh w | .imad w | .imin w | .imax w | .iabs w | .ineg w | .iaddc w | .icmp w | .land w | .lor w | .lxor w
  | .lnot w | .shl w | .shr w | .sra w | .bfe w | .bfi w | .popc w | .clz w | .brev w | .cvt w | .mov w | .sel w
  | .plop w | .movW w | .laneid w | .shfl w | .vote w | .gred w | .gscan w | .ld w | .st w | .atom w | .cas w
  | .pref w | .fez w | .feset w | .feq w | .lcpy w | .tdefv w | .trd w | .pushm w | .popm w | .lfmt w | .rdspec w
  | .enq w | .enqd w | .laneFence w | .lexit w |  .laneBkpt w | .laneProg w
  | .laneTrap w => faultL3 vregs i w
  | .movi w | .faddImm w | .fmulImm w | .ffmaImm w | .fminImm w | .fmaxImm w | .fcmpImm w | .fdivcImm w
  | .bfadd2Imm w | .bfmul2Imm w | .bffma2Imm w | .bfmin2Imm w | .bfmax2Imm w | .daddImm w | .dmulImm w
  | .dfmaImm w | .dminImm w | .dmaxImm w | .dcmpImm w | .iaddImm w | .isubImm w | .imulImm w | .imulhImm w
  | .imadImm w | .iminImm w | .imaxImm w | .iaddcImm w | .icmpImm w | .landImm w | .lorImm w | .lxorImm w
  | .shlImm w | .shrImm w | .sraImm w | .bfeImm w | .bfiImm w | .shflImm w | .ldImm w | .stImm w | .prefImm w
  | .bra w | .lcall w => faultLI vregs i w
  | _ => none

end Sys2Proof.Encoding
end

