-- ==== Sys2Proof/Machine/Numbers.lean ====
section
/-! DEFINITION. The number formats at rest, exact numbers, and the one rounding of R65 and R66 (Tables 3-1 to 3-8). -/

namespace Sys2Proof.Numbers
open Bits

/-- A floating-point format (Table 3-1): width, mantissa bits, exponent of the smallest subnormal, and the pattern of
the largest finite value. `kind` says what lies above it: 0 an infinity and NaNs, 1 one NaN (E4M3), 2 nothing. -/
structure Fmt where
  width : Nat
  mant : Nat
  step : Int
  top : Nat
  kind : Nat
  qnan : Nat
  deriving DecidableEq, Repr, Inhabited

def f64 : Fmt := ⟨64, 52, -1074, 0x7FEFFFFFFFFFFFFF, 0, 0x7FF8000000000000⟩
def f32 : Fmt := ⟨32, 23, -149, 0x7F7FFFFF, 0, 0x7FC00000⟩
def bf16 : Fmt := ⟨16, 7, -133, 0x7F7F, 0, 0x7FC0⟩
def e5m2 : Fmt := ⟨8, 2, -16, 0x7B, 0, 0x7F⟩
def e4m3 : Fmt := ⟨8, 3, -9, 0x7E, 1, 0x7F⟩
def e3m2 : Fmt := ⟨6, 2, -4, 0x1F, 2, 0⟩
def e2m3 : Fmt := ⟨6, 3, -3, 0x1F, 2, 0⟩
def e2m1 : Fmt := ⟨4, 1, -1, 0x7, 2, 0⟩

/-- A number: a NaN, an infinity, or (-1)^neg × m × 2^e with a signed zero at m = 0. -/
inductive Number where
  | nan
  | inf (neg : Bool)
  | fin (neg : Bool) (m : Nat) (e : Int)
  deriving DecidableEq, Repr, Inhabited

/-- The sign of a number; a NaN has none. -/
def neg : Number → Bool
  | .nan => false
  | .inf s => s
  | .fin s _ _ => s
def isNaN : Number → Bool
  | .nan => true
  | _ => false
def isInf : Number → Bool
  | .inf _ => true
  | _ => false
def isZero : Number → Bool
  | .fin _ 0 _ => true
  | _ => false
/-- The number with its sign inverted. -/
def negate : Number → Number
  | .nan => .nan
  | .inf s => .inf (!s)
  | .fin s m e => .fin (!s) m e
/-- The number without its sign. -/
def absolute : Number → Number
  | .nan => .nan
  | .inf _ => .inf false
  | .fin _ m e => .fin false m e

/-- The number a pattern stands for (R56). -/
def value (f : Fmt) (c : Nat) : Number :=
  let s := bit c (f.width - 1)
  let a := c % 2 ^ (f.width - 1)
  if f.top < a then (if f.kind = 0 ∧ a = f.top + 1 then .inf s else .nan)
  else
    let x := a / 2 ^ f.mant
    if x = 0 then .fin s a f.step else .fin s (2 ^ f.mant + a % 2 ^ f.mant) (f.step + (x : Int) - 1)

/-- The rounding modes of Table 3-7, with the 16 bits drawn for rsr (R67). -/
inductive Mode where
  | rne
  | rtz
  | rdn
  | rup
  | rsr (r : Nat)
  deriving DecidableEq, Repr, Inhabited

/-- The mode of an RM code 1 to 5; other codes are rne (R26, R230). -/
def modeOf (rm r : Nat) : Mode :=
  match rm with
  | 2 => .rtz
  | 3 => .rdn
  | 4 => .rup
  | 5 => .rsr r
  | _ => .rne

/-- The pattern with a sign. -/
def signed (f : Fmt) (s : Bool) (a : Nat) : Nat := if s then 2 ^ (f.width - 1) + a else a

/-- The pattern of a NaN (R58, Table 3-8). -/
def nanOf (f : Fmt) : Nat := f.qnan

/-- An infinite input (Table 3-8). -/
def infOf (f : Fmt) (sat s : Bool) : Nat :=
  if sat then signed f s f.top else
  match f.kind with
  | 0 => signed f s (f.top + 1)
  | 1 => signed f s (f.top + 1)
  | _ => signed f s f.top

/-- An overflowed result (Table 3-8). -/
def overflowOf (f : Fmt) (m : Mode) (sat s : Bool) : Nat :=
  if sat then signed f s f.top else
  match f.kind with
  | 0 =>
    match m with
    | .rtz => signed f s f.top
    | .rdn => if s then signed f s (f.top + 1) else signed f s f.top
    | .rup => if s then signed f s f.top else signed f s (f.top + 1)
    | _ => signed f s (f.top + 1)
  | 1 => signed f s (f.top + 1)
  | _ => signed f s f.top

/-- Whether a magnitude between a and a + 1 units goes to a + 1: `rem` of `2^sh` parts above a (Table 3-7, R67). -/
def roundsUp (m : Mode) (s : Bool) (a rem sh : Nat) : Bool :=
  match m with
  | .rne => 2 ^ sh < 2 * rem || (2 * rem == 2 ^ sh && a % 2 == 1)
  | .rtz => false
  | .rdn => s && rem != 0
  | .rup => !s && rem != 0
  | .rsr r => decide (r < 2 ^ 16 * rem / 2 ^ sh)

/-- RND of R65 with the overflow rule of R66 on a finite magnitude m × 2^e, plus a part of a unit where `sticky`. -/
def roundFin (f : Fmt) (md : Mode) (sat s : Bool) (m : Nat) (e : Int) (sticky : Bool) : Nat :=
  let m' := if sticky then 2 * m + 1 else m
  let e' := if sticky then e - 1 else e
  if m' = 0 then signed f s 0
  else
    let q := max ((Nat.log2 m' : Int) - f.mant + e') f.step
    let n :=
      if q ≤ e' then m' * 2 ^ (e' - q).toNat
      else
        let sh := (q - e').toNat
        let a := m' / 2 ^ sh
        if roundsUp md s a (m' % 2 ^ sh) sh then a + 1 else a
    let c := (q - f.step).toNat * 2 ^ f.mant + n
    if f.top < c then overflowOf f md sat s else signed f s c

/-- RND of any number (R65, R66, R58). -/
def round (f : Fmt) (md : Mode) (sat : Bool) : Number → Nat
  | .nan => nanOf f
  | .inf s => infOf f sat s
  | .fin s m e => roundFin f md sat s m e false

/-- A finite magnitude as a signed multiple of 2^e. -/
def signedInt (s : Bool) (m : Nat) : Int := if s then -(m : Int) else m

/-- The sign of an exact zero sum of two addends (R230). -/
def zeroSign (md : Mode) (s t : Bool) : Bool := if s = t then s else md == .rdn

/-- The exact sum (R230, R233); ∞ − ∞ is invalid. The mode decides the sign of a zero sum. -/
def add (md : Mode) : Number → Number → Number
  | .nan, _ => .nan
  | _, .nan => .nan
  | .inf s, .inf t => if s = t then .inf s else .nan
  | .inf s, _ => .inf s
  | _, .inf t => .inf t
  | .fin s m e, .fin t n g =>
    let q := min e g
    let i := signedInt s (m * 2 ^ (e - q).toNat) + signedInt t (n * 2 ^ (g - q).toNat)
    if i = 0 then .fin (if m = 0 ∧ n = 0 then zeroSign md s t else md == .rdn) 0 q else .fin (i < 0) i.natAbs q

/-- The exact product; ∞ × 0 is invalid (R233). -/
def mul : Number → Number → Number
  | .nan, _ => .nan
  | _, .nan => .nan
  | .inf s, y => if isZero y then .nan else .inf (s != neg y)
  | x, .inf t => if isZero x then .nan else .inf (neg x != t)
  | .fin s m e, .fin t n g => .fin (s != t) (m * n) (e + g)

/-- A × B + C with one rounding to come; invalid when A × B is ∞ × 0, even if C is NaN (R233). -/
def fma (md : Mode) (a b c : Number) : Number := add md (mul a b) c

/-- A number scaled by 2^k (R229). -/
def scale (k : Int) : Number → Number
  | .fin s m e => .fin s m (e + k)
  | x => x

/-- An exact result that may lie strictly between two neighbours of a fine grid. -/
structure Approx where
  num : Number
  sticky : Bool
  deriving DecidableEq, Repr, Inhabited

/-- An exact number as a result. -/
def exact (x : Number) : Approx := ⟨x, false⟩

/-- RND of a result (R229, R65). -/
def roundA (f : Fmt) (md : Mode) (sat : Bool) (k : Int) (x : Approx) : Nat :=
  match x.num with
  | .nan => nanOf f
  | .inf s => infOf f sat s
  | .fin s m e => roundFin f md sat s m (e + k) x.sticky

/-- The quotient A ÷ B (R233). -/
def div : Number → Number → Approx
  | .nan, _ => exact .nan
  | _, .nan => exact .nan
  | .inf _, .inf _ => exact .nan
  | .inf s, y => exact (.inf (s != neg y))
  | x, .inf t => exact (.fin (neg x != t) 0 0)
  | .fin s m e, .fin t n g =>
    if n = 0 then (if m = 0 then exact .nan else exact (.inf (s != t)))
    else
      let k : Nat := 130
      ⟨.fin (s != t) (m * 2 ^ k / n) (e - g - k), m * 2 ^ k % n != 0⟩

/-- The integer square root, one bit at a time from bit k − 1 down. -/
def isqrtGo (n : Nat) : Nat → Nat → Nat
  | 0, r => r
  | k + 1, r => if (r + 2 ^ k) * (r + 2 ^ k) ≤ n then isqrtGo n k (r + 2 ^ k) else isqrtGo n k r
/-- The integer square root. -/
def isqrt (n : Nat) : Nat := isqrtGo n (Nat.log2 n / 2 + 1) 0

/-- √x (R237, Table 11-5). -/
def sqrt : Number → Approx
  | .nan => exact .nan
  | .inf s => if s then exact .nan else exact (.inf false)
  | .fin s m e =>
    if m = 0 then exact (.fin s 0 e)
    else if s then exact .nan
    else
      let odd := e % 2 ≠ 0
      let n := (if odd then 2 * m else m) * 2 ^ 160
      let r := isqrt n
      ⟨.fin false r ((if odd then e - 1 else e) / 2 - 80), r * r != n⟩

/-- 1/√x (R237, Table 11-5). -/
def rsqrt : Number → Approx
  | .nan => exact .nan
  | .inf s => if s then exact .nan else exact (.fin false 0 0)
  | .fin s m e =>
    if m = 0 then exact (.inf s)
    else if s then exact .nan
    else
      let odd := e % 2 ≠ 0
      let n := if odd then 2 * m else m
      let h := (if odd then e - 1 else e) / 2
      let r := isqrt (2 ^ 260 / n)
      ⟨.fin false r (-130 - h), r * r * n != 2 ^ 260⟩

/-- True when x < y, for numbers that are not NaN; the two zeros are equal. -/
def lt : Number → Number → Bool
  | .inf s, .inf t => s && !t
  | .inf s, _ => s
  | _, .inf t => !t
  | .fin s m e, .fin t n g =>
    let q := min e g
    decide (signedInt s (m * 2 ^ (e - q).toNat) < signedInt t (n * 2 ^ (g - q).toNat))
  | _, _ => false

/-- minimumNumber and maximumNumber of two patterns (R234): a source pattern, or the canonical NaN. -/
def minMax (f : Fmt) (wantMax : Bool) (a b : Nat) : Nat :=
  let x := value f a
  let y := value f b
  if isNaN x then (if isNaN y then nanOf f else b)
  else if isNaN y then a
  else if isZero x && isZero y then (if neg x == neg y then a else if neg x == wantMax then b else a)
  else if lt x y != wantMax then a else b

/-- The condition of Table 11-4 on two numbers. -/
def fcond (c : Nat) (x y : Number) : Bool :=
  let un := isNaN x || isNaN y
  match c with
  | 0 => !un && !lt x y && !lt y x
  | 1 => un || lt x y || lt y x
  | 2 => !un && lt x y
  | 3 => !un && !lt y x
  | 4 => !un && lt y x
  | 5 => !un && !lt x y
  | 6 => un
  | _ => !un

/-- A number rounded to an integer (R236, R244): magnitude with sign. -/
def toIntegral (md : Mode) (s : Bool) (m : Nat) (e : Int) : Nat :=
  if 0 ≤ e then m * 2 ^ e.toNat
  else
    let sh := (-e).toNat
    let a := m / 2 ^ sh
    if roundsUp md s a (m % 2 ^ sh) sh then a + 1 else a

/-- An integer as a number; zero is positive. -/
def ofInteger (i : Int) : Number := .fin (i < 0) i.natAbs 0

/-- CLAMP of R229 on a pattern (Table 11-1). -/
def clamp (f : Fmt) (clp c : Nat) : Nat :=
  let x := value f c
  let one := round f .rne false (.fin false 1 0)
  let minusOne := round f .rne false (.fin true 1 0)
  match clp with
  | 1 => if isNaN x || neg x then 0 else if lt (.fin false 1 0) x then one else c
  | 2 => if isNaN x then 0 else if lt x (.fin true 1 0) then minusOne else if lt (.fin false 1 0) x then one else c
  | 3 => if isNaN x || neg x then 0 else c
  | _ => c

/-- The exponent of SCL (R229). -/
def sclExp (scl : Nat) : Int :=
  match scl with
  | 1 => 1
  | 2 => 2
  | 3 => 3
  | 5 => -1
  | 6 => -2
  | 7 => -3
  | _ => 0

/-- R229 whole: scale, one rounding, clamp. -/
def finish (f : Fmt) (md : Mode) (sat : Bool) (scl clp : Nat) (x : Approx) : Nat :=
  clamp f clp (roundA f md sat (sclExp scl) x)

/-- The format of an element format code (Table 1-5); integers and block formats have none. -/
def elemFmt : Nat → Option Fmt
  | 1 => some bf16
  | 2 => some e4m3
  | 3 => some e5m2
  | 4 => some e2m3
  | 5 => some e3m2
  | 6 => some e2m1
  | 14 => some f32
  | 15 => some f64
  | _ => none

/-- The bits of one element of a format code (R60). -/
def elemBits : Nat → Nat
  | 1 => 16
  | 2 | 3 | 7 | 8 | 10 | 13 => 8
  | 4 | 5 | 11 => 6
  | 6 | 9 | 12 => 4
  | 14 => 32
  | 15 => 64
  | _ => 32

/-- A pattern of one format as a pattern of a wider one: exact, with canonical NaNs (R58). -/
def widen (f g : Fmt) (c : Nat) : Nat := round g .rne false (value f c)

/-- One generator step (R68). -/
def rngStep (x : W32) : W32 := let y := x >>> 1; if x.getLsbD 0 then y ^^^ 0x80200003 else y
/-- n generator steps. -/
def rngSteps : Nat → W32 → W32
  | 0, x => x
  | n + 1, x => rngSteps n (rngStep x)
/-- One draw: the new generator state and the 16 bits (R68). -/
def draw (x : W32) : W32 × Nat := let y := rngSteps 16 x; (y, y.toNat % 65536)

/-- The BF16 pattern of the magnitude q(m) of a Q16N code (Table 3-6). -/
def q16nPattern : Nat → Nat
  | 0 => 0x3D2C
  | 1 => 0x3E02
  | 2 => 0x3E5D
  | 3 => 0x3E9F
  | 4 => 0x3ED5
  | 5 => 0x3F0B
  | 6 => 0x3F35
  | _ => 0x3F80
/-- The level of a Q16N code c, a sign bit c[3] and a magnitude index c[2:0]: (−1)^c[3] × q(c[2:0]) (R62). -/
def q16nLevel (c : Nat) : Number := value bf16 (32768 * (c / 8 % 2) + q16nPattern (c % 8))

end Sys2Proof.Numbers
end

