-- ==== Sys2Proof/Machine/Flags.lean ====
section
/-! DEFINITION. The conditions, carries and votes that become predicates or scalar results: Table 11-4, R241, R249 and
R252. The HK-820 has no other flags: it keeps no floating-point exception flags (R58). -/

namespace Sys2Proof.Flags
open Bits

/-- The condition of Table 11-4 on two w-bit integers, signed or unsigned. -/
def icond (c : Nat) (sgn : Bool) (w a b : Nat) : Bool :=
  let x : Int := if sgn then toInt w a else a
  let y : Int := if sgn then toInt w b else b
  match c with
  | 0 => decide (x = y)
  | 1 => decide (x ≠ y)
  | 2 => decide (x < y)
  | 3 => decide (x ≤ y)
  | 4 => decide (y < x)
  | _ => decide (y ≤ x)

/-- The carry out of a w-bit addition (R241, R252). -/
def carry (w a b cin : Nat) : Bool := decide (2 ^ w ≤ a + b + cin)

/-- The result of a vote over the contributing lanes (R249). -/
def vote (kind : Nat) (contrib q : W32) : Nat :=
  let t := contrib &&& q
  match kind with
  | 0 => if t = contrib then 1 else 0
  | 1 => if t = 0 then 0 else 1
  | 2 => if t = 0 ∨ t = contrib then 1 else 0
  | _ => t.toNat

end Sys2Proof.Flags
end

