-- ==== Sys2Proof/Machine/Transc.lean ====
section
/-! DEFINITION. The correctly rounded functions of Table 11-5 that are no algebraic: 2^x, log2 x, sin x and cos x of an
FP32 source. Each is enclosed between two fixed-point bounds at a growing precision, until both bounds round alike;
outside the exact cases of the table the value is irrational, so the bounds part from every rounding boundary. -/

namespace Sys2Proof.Transc
open Numbers

/-- The sum of a^k / k! in fixed point with p fraction bits, n terms from term k on; each term is cut. -/
def expTerms (p a : Nat) : Nat → Nat → Nat → Nat
  | 0, _, _ => 0
  | n + 1, k, t => t + expTerms p a n (k + 1) (t * a / 2 ^ p / (k + 1))
/-- exp of a fixed-point number in [0, 1). -/
def expFix (p a : Nat) : Nat := expTerms p a (p / 3 + 20) 0 (2 ^ p)

/-- The sum of z^(2k+1) / (2k+1) in fixed point: atanh z. `zz` is z². -/
def atanhTerms (p zz : Nat) : Nat → Nat → Nat → Nat
  | 0, _, _ => 0
  | n + 1, k, t => t / (2 * k + 1) + atanhTerms p zz n (k + 1) (t * zz / 2 ^ p)
/-- atanh of a fixed-point number z ≤ 1/3. -/
def atanhFix (p z : Nat) : Nat := atanhTerms p (z * z / 2 ^ p) (p / 3 + 10) 0 z
/-- ln 2 = 2 atanh (1/3). -/
def ln2 (p : Nat) : Nat := 2 * atanhFix p (2 ^ p / 3)

/-- atan of 1/n: the alternating sum of 1 / ((2k+1) n^(2k+1)), as positive and negative parts. -/
def atanTerms (n : Nat) : Nat → Nat → Nat → Int
  | 0, _, _ => 0
  | i + 1, k, t => (if k % 2 = 0 then ((t / (2 * k + 1) : Nat) : Int) else -((t / (2 * k + 1) : Nat) : Int)) + atanTerms n i (k + 1) (t / (n * n))
/-- π in fixed point, by 16 atan (1/5) − 4 atan (1/239). -/
def piFix (p : Nat) : Nat :=
  (16 * atanTerms 5 (p / 4 + 10) 0 (2 ^ p / 5) - 4 * atanTerms 239 (p / 14 + 10) 0 (2 ^ p / 239)).toNat

/-- The alternating sum of a^(2k+o) / (2k+o)!, for sin (o = 1) and cos (o = 0); `aa` is a². -/
def trigTerms (p aa o : Nat) : Nat → Nat → Nat → Int
  | 0, _, _ => 0
  | i + 1, k, t =>
    (if k % 2 = 0 then (t : Int) else -(t : Int)) +
      trigTerms p aa o i (k + 1) (t * aa / 2 ^ p / ((2 * k + 1 + o) * (2 * k + 2 + o)))

/-- An enclosure [lo, hi] of a magnitude, times 2^-p, with a sign. -/
structure Encl where
  neg : Bool
  lo : Nat
  hi : Nat
  deriving DecidableEq, Repr, Inhabited

/-- The rounding that an enclosure at precision p decides, if both bounds round alike. -/
def decided (md : Mode) (p : Nat) (k : Int) (e : Encl) : Option Nat :=
  let a := roundFin f32 md false e.neg e.lo (k - p) true
  let b := roundFin f32 md false e.neg e.hi (k - p) true
  if a = b then some a else none

/-- The first precision of a list that decides; the last bound where none does. -/
def search (md : Mode) (k : Int) (enc : Nat → Encl) : List Nat → Nat
  | [] => 0
  | [p] => roundFin f32 md false (enc p).neg (enc p).lo (k - p) true
  | p :: ps => match decided md p k (enc p) with
    | some c => c
    | none => search md k enc ps

/-- The working precisions. -/
def precisions : List Nat := [96, 192, 420, 900]
/-- The working precisions of sin and cos, whose argument reduction loses up to 128 bits. -/
def trigPrecisions : List Nat := [320, 480, 900]
/-- The bound on the accumulated cutting errors, in units. -/
def slack : Nat := 100000

/-- x × 2^p cut to an integer, for m × 2^e. -/
def fixOf (m : Nat) (e : Int) (p : Nat) : Nat :=
  let q := e + p
  if 0 ≤ q then m * 2 ^ q.toNat else m / 2 ^ (-q).toNat

/-- 2^x (R237). -/
def ex2 (md : Mode) (c : Nat) : Nat :=
  match value f32 c with
  | .nan => nanOf f32
  | .inf s => if s then 0 else 0x7F800000
  | .fin s m e =>
    if m = 0 then 0x3F800000
    else if (if 0 ≤ e then m * 2 ^ e.toNat else m / 2 ^ (-e).toNat) ≥ 1000 then
      (if s then roundFin f32 md false false 1 (-400) true else roundFin f32 md false false 1 1000 false)
    else
      let isInt := 0 ≤ e ∨ m % 2 ^ (-e).toNat = 0
      let whole := if 0 ≤ e then m * 2 ^ e.toNat else m / 2 ^ (-e).toNat
      if isInt then roundFin f32 md false false 1 (signedInt s whole) false
      else if whole = 0 ∧ m * 2 ^ 40 < 2 ^ (-e).toNat then
        (if s then roundFin f32 md false false (2 ^ 30 - 1) (-30) true else roundFin f32 md false false (2 ^ 30) (-30) true)
      else
        -- x = n + f with 0 < f < 1
        let n : Int := if s then -(whole : Int) - 1 else whole
        let enc (p : Nat) : Encl :=
          let fr := fixOf m e p % 2 ^ p
          let f := if s then 2 ^ p - fr else fr
          let a := expFix p (f * ln2 p / 2 ^ p)
          ⟨false, a - slack, a + slack⟩
        search md n enc precisions

/-- log2 x (R237). -/
def lg2 (md : Mode) (c : Nat) : Nat :=
  match value f32 c with
  | .nan => nanOf f32
  | .inf s => if s then nanOf f32 else 0x7F800000
  | .fin s m e =>
    if m = 0 then 0xFF800000
    else if s then nanOf f32
    else
      let l := Nat.log2 m
      let x : Int := l + e
      if m = 2 ^ l then round f32 md false (ofInteger x)
      else
        -- log2 (m × 2^e) = x + log2 (m / 2^l)
        let enc (p : Nat) : Encl :=
          let z := (m - 2 ^ l) * 2 ^ p / (m + 2 ^ l)
          let a : Int := x * 2 ^ p + ((2 * atanhFix p z * 2 ^ p / ln2 p : Nat) : Int)
          ⟨a < 0, a.natAbs - slack, a.natAbs + slack⟩
        search md 0 enc precisions

/-- sin x or cos x of a finite non-zero argument: the reduction x = k × π/2 + r and the series at r. -/
def trigEncl (wantCos s : Bool) (m : Nat) (e : Int) (p : Nat) : Encl :=
  let h := piFix (p + 160) / 2
  let x := fixOf m e (p + 160)
  let k := x / h
  let r := (x - k * h) / 2 ^ 160
  let aa := r * r / 2 ^ p
  let n := p / 4 + 20
  -- quadrant of sin |x|; cos |x| = sin (|x| + π/2)
  let q := (if wantCos then k + 1 else k) % 4
  let v : Int := if q % 2 = 0 then trigTerms p aa 1 n 0 r else trigTerms p aa 0 n 0 (2 ^ p)
  let minus := (if wantCos then false else s) != decide (2 ≤ q)
  ⟨minus, v.natAbs - slack, v.natAbs + slack⟩

/-- sin x (R237). -/
def sin (md : Mode) (c : Nat) : Nat :=
  match value f32 c with
  | .nan => nanOf f32
  | .inf _ => nanOf f32
  | .fin s m e =>
    if m = 0 then c
    else if e + Nat.log2 m < -40 then roundFin f32 md false s (m * 2 ^ 40 - 1) (e - 40) true
    else search md 0 (trigEncl false s m e) trigPrecisions

/-- cos x (R237). -/
def cos (md : Mode) (c : Nat) : Nat :=
  match value f32 c with
  | .nan => nanOf f32
  | .inf _ => nanOf f32
  | .fin s m e =>
    if m = 0 then 0x3F800000
    else if e + Nat.log2 m < -40 then roundFin f32 md false false (2 ^ 30 - 1) (-30) true
    else search md 0 (trigEncl true s m e) trigPrecisions

end Sys2Proof.Transc
end

