-- ==== Sys2Proof/Machine/Alu.lean ====
section
/-! DEFINITION. What the arithmetic units compute on patterns, without registers: integer and bit operations at a width
(R240 to R243, R252), floating-point operations (R233 to R239), conversions (R244) and the operators of the cross-lane
unit (R250). -/

namespace Sys2Proof.Alu
open Bits Numbers

/-! ## Integers -/

/-- A sum, difference or product modulo 2^w. -/
def iadd (w a b : Nat) : Nat := (a + b) % 2 ^ w
def isub (w a b : Nat) : Nat := (a + 2 ^ w - b % 2 ^ w) % 2 ^ w
def imul (w a b : Nat) : Nat := a * b % 2 ^ w
/-- The high half of a product (R240, R252). -/
def imulh (w : Nat) (sgn : Bool) (a b : Nat) : Nat :=
  if sgn then ofInt w (toInt w a * toInt w b / 2 ^ w) else a * b / 2 ^ w % 2 ^ w
/-- Minimum and maximum (R240). -/
def iminmax (w : Nat) (sgn wantMax : Bool) (a b : Nat) : Nat :=
  if Flags.icond 2 sgn w a b != wantMax then a else b
/-- |A| modulo 2^w; the most negative value returns itself (R240). -/
def iabs (w a : Nat) : Nat := if bit a (w - 1) then (2 ^ w - a) % 2 ^ w else a
def ineg (w a : Nat) : Nat := (2 ^ w - a % 2 ^ w) % 2 ^ w
/-- Bitwise operators on w bits (R242). -/
def band (a b : Nat) : Nat := a &&& b
def bor (a b : Nat) : Nat := a ||| b
def bxor (a b : Nat) : Nat := a ^^^ b
def bnot (w a : Nat) : Nat := 2 ^ w - 1 - a % 2 ^ w
/-- Shifts by c, which may reach the width (R242). -/
def shl (w a c : Nat) : Nat := if w ≤ c then 0 else a * 2 ^ c % 2 ^ w
def shr (w a c : Nat) : Nat := if w ≤ c then 0 else a / 2 ^ c
def sra (w a c : Nat) : Nat := ofInt w (toInt w a / 2 ^ (min c w))
/-- Set bits, leading zeros, reversal (R242, R252). -/
def popc (w a : Nat) : Nat := popCount w a
def clz (w a : Nat) : Nat := if a % 2 ^ w = 0 then w else w - 1 - Nat.log2 (a % 2 ^ w)
def brevGo (a w : Nat) : Nat → Nat
  | 0 => 0
  | i + 1 => (if bit a i then 2 ^ (w - 1 - i) else 0) + brevGo a w i
def brev (w a : Nat) : Nat := brevGo a w w
/-- Position and length of a bit field operand (R243). -/
def fieldOf (b : Nat) : Nat × Nat := let pos := b % 32; (pos, min (field b 8 6) (32 - pos))
/-- BFE (R243). -/
def bfe (sgn : Bool) (a b : Nat) : Nat :=
  let p := fieldOf b
  if p.2 = 0 then 0
  else
    let f := a / 2 ^ p.1 % 2 ^ p.2
    if sgn then ofInt 32 (toInt p.2 f) else f
/-- BFI (R243). -/
def bfi (a b c : Nat) : Nat :=
  let p := fieldOf b
  let m := (2 ^ p.2 - 1) * 2 ^ p.1
  andNot c m ||| ((a * 2 ^ p.1) &&& m)

/-! ## Floating point -/

/-- ABS, then NEG, on a pattern of a format (R27). -/
def modify (f : Fmt) (ab ng : Bool) (c : Nat) : Nat :=
  let a := if ab then c % 2 ^ (f.width - 1) else c
  if ng then a ^^^ 2 ^ (f.width - 1) else a

/-- How a floating result is finished (R229, R230). -/
structure Fin where
  md : Mode
  scl : Nat
  clp : Nat
  deriving DecidableEq, Repr, Inhabited

def fadd (f : Fmt) (o : Fin) (a b : Nat) : Nat :=
  finish f o.md false o.scl o.clp (exact (add o.md (value f a) (value f b)))
def fmul (f : Fmt) (o : Fin) (a b : Nat) : Nat := finish f o.md false o.scl o.clp (exact (mul (value f a) (value f b)))
def ffma (f : Fmt) (o : Fin) (a b c : Nat) : Nat :=
  finish f o.md false o.scl o.clp (exact (fma o.md (value f a) (value f b) (value f c)))
def fdiv (f : Fmt) (o : Fin) (a b : Nat) : Nat := finish f o.md false o.scl o.clp (div (value f a) (value f b))
def frcp (f : Fmt) (o : Fin) (a : Nat) : Nat := roundA f o.md false 0 (div (.fin false 1 0) (value f a))
def frsq (f : Fmt) (o : Fin) (a : Nat) : Nat := roundA f o.md false 0 (rsqrt (value f a))
def fsqrt (f : Fmt) (o : Fin) (a : Nat) : Nat := roundA f o.md false 0 (sqrt (value f a))
/-- FRND (R236). -/
def frnd (f : Fmt) (md : Mode) (a : Nat) : Nat :=
  match value f a with
  | .nan => nanOf f
  | .inf _ => a
  | .fin s m e => if m = 0 then a else round f .rne false (.fin s (toIntegral md s m e) 0)

/-- An operation on both halves of a bf16x2 pattern (R238). -/
def both (op : Nat → Nat) (a : Nat) : Nat := op (a % 65536) + 65536 * op (a / 65536 % 65536)
def both2 (op : Nat → Nat → Nat) (a b : Nat) : Nat := op (a % 65536) (b % 65536) + 65536 * op (a / 65536 % 65536) (b / 65536 % 65536)
def both3 (op : Nat → Nat → Nat → Nat) (a b c : Nat) : Nat :=
  op (a % 65536) (b % 65536) (c % 65536) + 65536 * op (a / 65536 % 65536) (b / 65536 % 65536) (c / 65536 % 65536)

/-! ## Conversions -/

/-- The floating format of a lane type code (Table 1-5). -/
def laneFmt (c : Nat) : Option Fmt := match c with
  | 5 => some f32
  | 6 => some bf16
  | 8 => some f64
  | _ => none
/-- Width and signedness of an integer lane type code (R240). -/
def intType (c : Nat) : Nat × Bool := match c with
  | 1 => (32, true)
  | 3 => (64, true)
  | 4 => (64, false)
  | _ => (32, false)
/-- The range of an integer type. -/
def intMin (w : Nat) (sgn : Bool) : Int := if sgn then -(2 ^ (w - 1) : Nat) else 0
def intMax (w : Nat) (sgn : Bool) : Int := if sgn then (2 ^ (w - 1) : Nat) - 1 else (2 ^ w : Nat) - 1
/-- An integer clamped to a range. -/
def clampInt (lo hi x : Int) : Int := if x < lo then lo else if hi < x then hi else x
/-- The number that a source pattern of a lane type stands for. -/
def typeValue (c a : Nat) : Number := match laneFmt c with
  | some f => value f (a % 2 ^ f.width)
  | none => let t := intType c; ofInteger (if t.2 then toInt t.1 a else a)

/-- CVT of one element (R244, Table 11-6): source type, destination type. -/
def cvt (src dst : Nat) (sat : Bool) (o : Fin) (a : Nat) : Nat :=
  match laneFmt dst with
  | some f => finish f o.md sat o.scl o.clp (exact (typeValue src a))
  | none =>
    let t := intType dst
    match laneFmt src with
    | some g =>
      match value g (a % 2 ^ g.width) with
      | .nan => 0
      | .inf s => ofInt t.1 (if s then intMin t.1 t.2 else intMax t.1 t.2)
      | .fin s m e => ofInt t.1 (clampInt (intMin t.1 t.2) (intMax t.1 t.2) (signedInt s (toIntegral o.md s m e)))
    | none =>
      let u := intType src
      let x : Int := if u.2 then toInt u.1 a else a
      if sat then ofInt t.1 (clampInt (intMin t.1 t.2) (intMax t.1 t.2) x) else ofInt t.1 x

/-! ## The cross-lane operators -/

/-- The width of a type (R250). -/
def redWidth (fmt : Nat) : Nat := if fmt = 8 then 64 else 32
/-- ⊕ of R250: op 0 add, 1 min, 2 max, 3 and, 4 or, 5 xor. -/
def redOp (fmt op : Nat) (md : Mode) (a b : Nat) : Nat :=
  match laneFmt fmt with
  | some f =>
    match op with
    | 0 => round f md false (add md (value f a) (value f b))
    | 1 => minMax f false a b
    | _ => minMax f true a b
  | none =>
    let t := intType fmt
    match op with
    | 0 => iadd t.1 a b
    | 1 => iminmax t.1 t.2 false a b
    | 2 => iminmax t.1 t.2 true a b
    | 3 => band a b
    | 4 => bor a b
    | _ => bxor a b
/-- The identity of ⊕ (R250). -/
def redId (fmt op : Nat) : Nat :=
  match laneFmt fmt with
  | some f =>
    match op with
    | 0 => signed f true 0
    | 1 => f.top + 1
    | _ => signed f true (f.top + 1)
  | none =>
    let t := intType fmt
    match op with
    | 1 => ofInt t.1 (intMax t.1 t.2)
    | 2 => ofInt t.1 (intMin t.1 t.2)
    | 3 => 2 ^ t.1 - 1
    | _ => 0
/-- One level of the tree of R250: lane i with i mod 2d = 2d − 1 takes x[i−d] ⊕ x[i]. -/
def redLevel (f : Nat → Nat → Nat) (d : Nat) (x : List Nat) : List Nat :=
  (List.range 32).map (fun i => if i % (2 * d) = 2 * d - 1 then f (x.getD (i - d) 0) (x.getD i 0) else x.getD i 0)
/-- The balanced tree of GRED (R250). -/
def tree (f : Nat → Nat → Nat) (x : List Nat) : Nat :=
  ([1, 2, 4, 8, 16].foldl (fun y d => redLevel f d y) x).getD 31 0
/-- One level of the scan of R250. -/
def scanLevel (f : Nat → Nat → Nat) (d : Nat) (x : List Nat) : List Nat :=
  (List.range 32).map (fun i => if d ≤ i then f (x.getD (i - d) 0) (x.getD i 0) else x.getD i 0)
/-- The inclusive scan of GSCAN (R250). -/
def scan (f : Nat → Nat → Nat) (x : List Nat) : List Nat := [1, 2, 4, 8, 16].foldl (fun y d => scanLevel f d y) x

/-! ## Atomics -/

/-- The read-modify-write of R141 on a word of w bits: AOP, lane FMT code. -/
def atom (w fmt aop old x : Nat) : Nat :=
  if fmt = 5 ∧ aop < 3 then
    match aop with
    | 0 => round f32 .rne false (add .rne (value f32 old) (value f32 x))
    | 1 => minMax f32 false old x
    | _ => minMax f32 true old x
  else
    let sgn := fmt == 1 || fmt == 3
    match aop with
    | 0 => iadd w old x
    | 1 => iminmax w sgn false old x
    | 2 => iminmax w sgn true old x
    | 3 => band old x
    | 4 => bor old x
    | 5 => bxor old x
    | 6 => x
    | _ => if x ≤ old then 0 else old + 1

end Sys2Proof.Alu
end

