-- ==== Sys2Proof/Config.lean ====
section
/-! DEFINITION. What the specification leaves to the moment, to the implementation or to the world outside: the free
values, which have no body, and the constants of the module (Tables 0-1 to 0-5, R1, R2). -/

namespace Sys2Proof.Config

/-- The party that moves at a step (R219, R318, R325: which stream issues in which clock is not defined). -/
opaque turn : Nat → Turn
/-- What the world outside brings with an event. -/
opaque input : Nat → Input
/-- Clocks that pass in a step (R231: latencies are shown only for planning). -/
opaque clocks : Nat → Nat
/-- A choice the specification leaves open, such as a cached or a fresh translation (R84). -/
opaque choice : Nat → Bool
/-- A byte whose value the specification leaves open. -/
opaque freeByte : Nat → Byte
/-- A value of 64 bits that the specification leaves open. -/
opaque freeWord : Nat → W64
/-- Whether a device with a number is a module of the system (R116). -/
opaque present : Nat → Bool
/-- SHA3-256 (R388): a digest of bytes. -/
opaque digest : List Byte → List Byte
/-- ML-DSA-44 (R51, R388): whether a signature of a digest verifies under the key that a number names; without a number, under the vendor
key whose digest the ROM holds. -/
opaque verifies : Option Nat → List Byte → List Byte → Bool
/-- ML-DSA-44: the signature of bytes with the device identity key. -/
opaque signed : List Byte → List Byte
/-- The certificate of the device identity key (R389). -/
opaque certificate : List Byte

/-- Dies of the module (R1). -/
def dies : Nat := 8
/-- Cores of a die (R1). -/
def coresPerDie : Nat := 48
/-- Cores of the module (R1). -/
def cores : Nat := 384
/-- Group slots of a core (R1). -/
def slots : Nat := 48
/-- The firmware agent's group slot (Table 0-1). -/
def agentSlot : Nat := 47
/-- Block slots of a core (R317). -/
def blockSlots : Nat := 8
/-- Bytes of a core scratchpad (R146). -/
def spadBytes : Nat := 786432
/-- Bytes of a chip scratchpad (R136). -/
def chipBytes : Nat := 16777216
/-- Bytes of local HBM that have a physical address (Table 4-4). -/
def hbmBytes : Nat := 0xBE80000000
/-- Bytes of local HBM of one die (Table 4-4). -/
def hbmDie : Nat := 0x17D0000000
/-- First physical address of host memory (Table 4-4). -/
def hostBase : Nat := 0x8000000000000
/-- FMTR at launch (R74). -/
def fmtrReset : W32 := 0x11E08000

end Sys2Proof.Config
end

