-- ==== Sys2Proof/Machine/State.lean ====
section
/-! DEFINITION. The state of the HK-820 as plain data, the reasons a step can stop, and the state after reset. -/

namespace Sys2Proof.Machine

/-- Why the machine stops: the specification gives every instruction of the module an effect, so nothing stops it. -/
inductive Fault where
  deriving DecidableEq, Repr

/-- Why a step has no meaning. -/
inductive Refusal where
  /-- Raised by an arm of exec whose instruction has no meaning yet. Safe. -/
  | notModelled (mnemonic : String)
  /-- Raised where exec is asked for an instruction that the party in turn does not issue: the party holds no live
  stream of that kind. A step never raises it. Safe. -/
  | noIssuer
  deriving DecidableEq, Repr, Inhabited

/-! ## Traps and waits -/

/-- A trap cause with what the trap registers record (Tables 17-1 and 17-2). -/
structure TrapInfo where
  cause : Nat
  info : W64 := 0
  addr : W64 := 0
  mask : W32 := 0
  deriving DecidableEq, Repr, Inhabited

/-- What ends a wait (R14). -/
inductive WaitCond where
  /-- A held fault of the fault service (R87). -/
  | fault (id : Nat)
  /-- Registers that must be FULL in the lanes of a mask (R216). -/
  | regs (rs : List Nat) (mask : W32)
  /-- Scalar registers with a pending write (R144). -/
  | sregs (rs : List Nat)
  /-- Room in the decision queue (R319). -/
  | queueRoom
  /-- The lane stream drained (R321). -/
  | drained
  /-- The lane stream drained, the copies done and the loads returned (R322). -/
  | ended
  /-- The sequencer of the block has executed MEXIT (R323). -/
  | seqExit
  /-- Copy batches up to and including n complete (R175). -/
  | batch (n : Nat)
  /-- A clock (R322). -/
  | clock (t : Nat)
  /-- The phase of a partition barrier differs from p (R336). -/
  | bar (part key p : Nat)
  /-- The phase of a numbered barrier of the own block differs from p (R337). -/
  | nb (n p : Nat)
  /-- A full/empty granule of a core scratchpad turns FULL; a request that found the wait list full may be sent again from clock `due` (R160). -/
  | granule (core g : Nat) (due : Nat := 0)
  /-- A tile name (R192). -/
  | tile (nb nm : Nat)
  /-- Operand streams of the own block are empty (R279), a mask as in IMM48. -/
  | streams (m : Nat)
  /-- Elements of an operand stream (R261, R263). -/
  | elements (strm n : Nat)
  /-- A matrix unit, or words that must complete first (R258, R261). -/
  | units
  /-- A snapshot region becomes IDLE: the slot of the region, plus 256 × the place where it is waited for: 0 the region's record, by an
  instruction (R312); 1 + n the home slice n of the module, by an access (R308); 510 room in its pool (R306); 511 the
  issuer's own operation, which has to end (R313). -/
  | region (rg : Nat)
  /-- A counter reaches a threshold (R359). -/
  | counter (part i t : Nat)
  /-- A remote request is answered (R115). -/
  | remote (id : Nat)
  /-- Posted stores of the group to be placed (R119, R133); a device, or none for all. -/
  | posted (dev : Option Nat)
  /-- Segments of RMA transfers of the group to be placed (R116). -/
  | rma (dev : Option Nat)
  /-- Request-table entries (R137). -/
  | requests (n : Nat)
  /-- Room for a run in a queue home (R345). -/
  | queue (part q : Nat)
  /-- An operation of the fleet on a neighbourhood: save, restore, halt (R378). -/
  | save (id : Nat)
  /-- Other splits of the group, at LEND, WIDE or ENDW: 0, 1, 2 (R330, R333, R334). -/
  | splits (kind : Nat)
  /-- Room in the command queue of copy engine 0 or 1, or for 2 + n: n free entries of the two (R164). -/
  | engineRoom (eng : Nat)
  /-- An operand-map slot that is in no feed queue (R182). -/
  | mapSlot (k : Nat)
  /-- Loads of the group in flight (R135). -/
  | loads
  /-- Loads and atomics of the group on lines of peers (R291, R292). -/
  | farLoads
  /-- The end of a debugger's stop of a neighbourhood (R392). -/
  | resumed (nb : Nat)
  /-- Write-backs of a core's L1 that wait at their home slices (R133, R413). -/
  | writeBacks (core : Nat)
  /-- A line of a core's L1 can leave it, for one that a store allocates (R1, R122). -/
  | l1Room (core : Nat)
  /-- Writes of the group to host memory that host memory has not accepted (R133). -/
  | hostWrites
  /-- Accesses of a context, performed at their homes or placed (R92). -/
  | accesses (ctx : Nat)
  /-- A stale fill of a line of a peer, of a core (R288, R295). -/
  | stale (core line : Nat)
  /-- The end of an invalidation: write-backs of a core, and of its die's remote-line partition (R134). -/
  | invalidation (core : Nat) (part : Bool)
  deriving DecidableEq, Repr, Inhabited

/-- A parked stream: the reason code that Watching the Machine gives it, and what ends the wait (R14). -/
structure Park where
  reason : Nat
  cond : WaitCond
  deriving DecidableEq, Repr, Inhabited

/-! ## The lane stream -/

/-- An entry of a reconvergence stack (Table 15-1). -/
structure StackEntry where
  call : Bool
  pc : W32
  mask : W32
  fmtr : W32
  ssp : Nat
  rpc : W32
  jid : Option Nat
  deriving DecidableEq, Repr, Inhabited

/-- A split entry (Table 15-1), with what a parked instruction has left to do: its unfinished lanes (R85) and whether the steps of its
release are done (R133), and how many times in a row the split was passed over (R325). -/
structure Split where
  valid : Bool := false
  own : Bool := false
  pc : W32 := 0
  mask : W32 := 0
  fmtr : W32 := 0
  ssp : Nat := 0
  jid : Option Nat := none
  stack : List StackEntry := []
  park : Option Park := none
  unfinished : Option W32 := none
  rel : Bool := false
  passed : Nat := 0
  deriving DecidableEq, Repr, Inhabited

/-- A join record (Table 15-1). -/
structure Join where
  rpc : W32
  mask : W32
  arr : W32
  fmtr : W32
  ssp : Nat
  parent : Option Nat
  owner : Nat
  deriving DecidableEq, Repr, Inhabited

/-- The wide record (Table 15-1): the saved splits and the join records open at WIDE. -/
structure WideRec where
  saved : List Split
  openJoins : List Nat
  deriving DecidableEq, Repr, Inhabited

/-- A running lane block: its splits, join records, wide record and uniforms (R320, R324). -/
structure LaneBlock where
  splits : List Split
  joins : NMap Join := []
  wide : Option WideRec := none
  ws : List W64
  startSsp : Nat
  deriving DecidableEq, Repr, Inhabited

/-- An entry of the decision queue (R319). -/
structure QueueEntry where
  target : W32
  ws : List W64
  fmtr : W32
  deriving DecidableEq, Repr, Inhabited

/-- How the bytes of a load become registers. -/
inductive Conv where
  /-- A lane register run: DST, FMT, MFMT, WID or element-count code (R139, R70). -/
  | lane (dst fmt mfmt wid : Nat)
  /-- A scalar register: width in bytes, sign extension (R144). -/
  | scalar (dst width : Nat) (sgn : Bool)
  deriving DecidableEq, Repr, Inhabited

/-- A value on its way to registers of one lane (R215): a transcendental result, load data, POPM or FEQ words. -/
structure Producer where
  lane : Nat
  regs : List (Nat × W32)
  deriving DecidableEq, Repr, Inhabited

/-- A byte of a load that waits for a line: the line's key, the byte's place in it, and the byte once there; of one whose check failed, the
subcode of DATA_INTEGRITY (R111). -/
structure LoadByte where
  line : Nat
  off : Nat
  got : Option Byte
  bad : Option Nat := none
  deriving DecidableEq, Repr, Inhabited

/-- A load of one lane, or of the scalar stream, that waits for line fills (R137, R140). -/
structure Load where
  slot : Nat
  lane : Nat
  conv : Conv
  addr : W64
  bytes : List LoadByte
  split : Nat := 0
  pc : W64 := 0
  /-- Whether every later access of the group's other stream is ordered after it: a lane load at an LSYNC, a scalar load at a LISSUE (R287). -/
  ordered : Bool := false
  deriving DecidableEq, Repr, Inhabited

/-- A reuse latch (R218): the register, or the first of a pair, how many it holds, and the values of the 32 lanes, word j of lane i at
32 j + i. -/
structure Latch where
  reg : Nat
  n : Nat
  vals : NMap W32
  deriving DecidableEq, Repr, Inhabited

/-- A trap that waits (R366, R367): its source, scalar 0, lane 1, sequencer 2; its split; and the PC of the trapping instruction where the
stream may since have moved on. -/
structure Pended where
  src : Nat
  k : Nat
  t : TrapInfo
  pc : Option W64 := none
  deriving DecidableEq, Repr, Inhabited

/-- A sealed or open copy batch of a group (R173, R174). -/
structure Batch where
  num : Nat
  left : Nat
  sealed : Bool
  fail : Option TrapInfo
  deriving DecidableEq, Repr, Inhabited

/-- A resident group: Table 10-1, Table 15-1, Table 17-1 and what its instructions in flight hold. -/
structure Group where
  block : Nat
  gidx : Nat
  spc : W64
  ispc : W64 := 0
  ipark : Option Park := none
  sregs : NMap W64 := []
  ts : NMap W64 := []
  vregs : NMap W32 := []
  empty : NMap W32 := []
  preds : NMap W32 := []
  sfmt : W32 := Config.fmtrReset
  dq : List QueueEntry := []
  lb : Option LaneBlock := none
  tlb : Option LaneBlock := none
  ssp : Nat
  live : W32
  rng : NMap W32 := []
  trapMode : Bool := false
  tcause : W64 := 0
  tpc : W64 := 0
  tinfo : W64 := 0
  taddr : W64 := 0
  tmask : W64 := 0
  tstat : W64 := 0
  tssp : Nat := 0
  tspill : NMap W32 := []
  latchA : Option Latch := none
  latchB : Option Latch := none
  latchC : Option Latch := none
  bn : Nat := 0
  batches : List Batch := []
  park : Option Park := none
  arrived : Option Nat := none
  iarrived : Option Nat := none
  lastSplit : Nat := 0
  pendS : List Nat := []
  prod : List Producer := []
  pendTrap : List Pended := []
  skipLanes : Option W32 := none
  postedFail : List (Nat × TrapInfo) := []
  rmaFail : List (Nat × TrapInfo) := []
  stepOne : Bool := false
  hold : Nat := 0
  laneHold : NMap Nat := []
  deriving DecidableEq, Repr, Inhabited

/-! ## Blocks and neighbourhoods -/

/-- A loaded stage: its stage record, tile-file record and stage-table entry (R49, R50, R341). `rolesOn` is FLAGS bit 1, roles declared;
`running` counts the stage's running and pre-empted blocks; `backAt` is where the driver placed the backing areas of its tile files. -/
structure Stage where
  sid : Nat
  rows : Nat
  cols : Nat
  groups : Nat
  seq : Bool
  vregs : Nat
  roles : Nat
  rolesOn : Bool := true
  scratch : Nat
  reserve : Nat := 0
  backing : Nat := 0
  tileFile : Bool := false
  lslice : Nat
  weight : Nat
  batch : Nat
  nin : Nat
  nout : Nat
  linger : Nat
  sentry : W64
  lbase : W64
  mbase : W64
  trapspill : Nat
  ins : List Nat
  outs : List Nat
  ctr : Nat := 0
  graph : Nat := 0
  ctx : Nat := 0
  chipBase : Nat := 0
  chipLen : Nat := 0
  backAt : Nat := 0
  running : Nat := 0
  deriving DecidableEq, Repr, Inhabited

/-- An element in an operand stream: format code, pattern, the pattern of its block's scale, and whether it begins a
scale block (R181, R268). -/
structure Elem where
  fmt : Nat
  pat : Nat
  scale : Nat := 0
  first : Bool := true
  deriving DecidableEq, Repr, Inhabited

/-- Why a stream or a sequencer word is stopped (R183, R184, R196). -/
inductive Stop where
  | bounds
  | fault (id : Nat)
  | fatal (cause : Nat)
  | tile
  | trap (t : TrapInfo)
  deriving DecidableEq, Repr, Inhabited

/-- An operand stream (R179): consume position, elements held, feed queue of slots with their records, index of the next element
of the head map, maps delivered whole of which some element may have to be fetched again (R372), and what stops it. -/
structure OStream where
  pos : Nat := 0
  elems : List Elem := []
  feed : List (Nat × BitVec 256) := []
  next : Nat := 0
  past : List (Nat × BitVec 256) := []
  stop : Option Stop := none
  deriving DecidableEq, Repr, Inhabited

/-- An MMA or MMAQ on a unit (R261 to R263): its word as captured at dispatch, its stream positions and its progress. -/
structure Flight where
  unit : Nat
  pc : Nat
  word : MA
  quant : Bool
  k : Nat
  rows : W64
  cols : W64
  apos : Nat
  bpos : Nat
  bs : List Elem := []
  row : List Elem := []
  done : Nat := 0
  deriving DecidableEq, Repr, Inhabited

/-- Four predicate words, all ones, as they are at block start (Table 12-1). -/
def fullMasks : NMap W64 := [(0, BitVec.allOnes 64), (1, BitVec.allOnes 64), (2, BitVec.allOnes 64), (3, BitVec.allOnes 64)]

/-- A matrix sequencer (Table 12-1). Accumulator word (i, m, n) is held at key 4096 i + 64 m + n; an unlisted word is 0. The
progress of the word at the PC: of MLDA, MSCL and MSTA the record of its map as it was when the word started (R182, R258), the elements
read or converted so far, last first, and how many elements or units are done; of MMA and MMAQ, 1 where its flight is the first. A trap in
`pend` is taken once the words in flight before it are complete (R259). -/
structure Seq where
  pc : Nat := 0
  qs : NMap W32 := []
  mrp : NMap W64 := fullMasks
  mcp : NMap W64 := fullMasks
  rscale : NMap W32 := []
  cscale : NMap W32 := []
  rscaleOn : Bool := false
  cscaleOn : Bool := false
  acs : NMap W32 := []
  loops : List (Nat × Nat) := []
  rng : W32 := 1
  flights : List Flight := []
  prog : Nat := 0
  buf : List Nat := []
  omap : Option (BitVec 256) := none
  /-- The bits of the word at the PC where it is dispatched and parked (R372). -/
  disp : Option Nat := none
  park : Option Park := none
  pend : Option TrapInfo := none
  stopped : Bool := false
  safe : Option (BitVec 48) := none
  exited : Bool := false
  deriving DecidableEq, Repr, Inhabited

/-- One numbered barrier of a block (R337), with the signature carried in the current and the last phase (R129). -/
structure Barrier where
  expect : Nat := 0
  count : Nat := 0
  phase : Nat := 0
  sqa : Bool := false
  sql : Bool := false
  carried : BitVec 512 := 0
  lastSig : BitVec 512 := 0
  deriving DecidableEq, Repr, Inhabited

/-- Who performs a write (Table 19-3): agent, core and group slot (47 for a sequencer), lane, PC, block and device; and where the write is
performed after its instruction has ended, the identity of the block at the instruction. -/
structure Who where
  agent : Nat
  core : Nat := 0
  slot : Nat := 0
  lane : Nat := 255
  pc : Nat := 0
  block : Option Nat := none
  dev : Option Nat := none
  ident : Option (Nat × Nat × Nat × Nat × Nat × Nat) := none
  deriving DecidableEq, Repr, Inhabited

/-- A block resident on a core (R146, R317, R351). `watch` is a write of its own to a watched region that has STOP set, which stops it once
the writing instruction has completed (R393). -/
structure Block where
  nb : Nat
  k : Nat
  ticket : W64
  groups : List Nat
  ended : Nat := 0
  base : Nat
  stopped : Bool := false
  dumped : Bool := false
  cause : Nat := 0
  watch : Option Who := none
  bpc : Nat := 0
  nbs : NMap Barrier := []
  omaps : NMap (BitVec 256) := []
  streams : NMap OStream := []
  seq : Option Seq := none
  /-- BAR entries at which a group of the block has arrived in the current phase (R391, R392). -/
  arrivals : List Nat := []
  deriving DecidableEq, Repr, Inhabited

/-- A name of a tile file (R190): state 0 EMPTY, 1 DEFINING, 2 DEFINED; the recorded tile word, placement 0 to 4 of TQRY and the
core that holds the value, a queued kill, and the value, empty while its bytes are on their way. -/
structure TileName where
  st : Nat := 0
  gen : Nat := 0
  word : Nat := 0
  place : Nat := 0
  core : Nat := 0
  kill : Bool := false
  value : List Byte := []
  deriving DecidableEq, Repr, Inhabited

/-- A tile operation between its issue and its end (R191, R192, R197): kind 0 read, 1 definition, 2 kill; tag 0 or 2 (TRDS), plus 1
in trap mode, or 8 + k for operand stream k; how many reads it counts for; state 0 sent, 1 parked, 2 accepted or served, 3 refused
with a trap, 4 on its way to registers; whether it is among the outstanding reads, and accepted after a kill; a definition's bytes or
the value read with its tile word; the destination and pitch of a TRDS, and its copy; of a lane read, its first register and how many, and
the values that fill them. -/
structure TileOp where
  id : Nat
  strm : StreamId
  tag : Nat := 0
  kind : Nat
  word : Nat
  n : Nat := 1
  st : Nat := 0
  counted : Bool := false
  late : Bool := false
  value : List Byte := []
  shape : Nat := 0
  dst : Nat := 0
  pitch : Nat := 0
  copy : Option Nat := none
  data : List Producer := []
  trap : TrapInfo := ⟨0, 0, 0, 0⟩
  /-- Of a lane read: FMT and MFMT, and the row and the first column of each lane (R209). -/
  fmts : Nat × Nat := (0, 0)
  cells : List (Nat × Nat × Nat) := []
  /-- The device and the tag of a read that a peer sent (R181, R190). -/
  peer : Option (Nat × Nat) := none
  deriving DecidableEq, Repr, Inhabited

/-- A causal trial (R396). -/
structure Trial where
  lo : Nat
  hi : Nat
  delay : Nat
  scalar : Bool
  start : Nat
  deriving DecidableEq, Repr, Inhabited

/-- A neighbourhood: the rectangle of blocks of one launch (R149, R351). -/
structure Nbhd where
  die : Nat
  row : Nat
  col : Nat
  stage : Stage
  part : Nat
  ctx : Nat
  left : Nat
  saving : Bool := false
  /-- Whether it stands for the firmware agent of a core, in slot 47 (Table 0-1). -/
  agent : Bool := false
  handle : Nat := 0
  /-- The physical base of its backing area (Table 17-4). -/
  backBase : Nat := 0
  tiles : NMap TileName := []
  ops : List TileOp := []
  /-- Clocks in a row of the TILE_DEADLOCK interval (R201). -/
  stuckFor : Nat := 0
  trial : Option Trial := none
  cmd : Option Nat := none
  deriving DecidableEq, Repr, Inhabited

/-! ## Cores, dies, contexts and partitions -/

/-- A 64-byte line of an L1 (R122), with the last writer to each of its eight-byte words, whom a trace of its write-back names (R394, log
45). -/
structure L1Line where
  data : BitVec 512
  whole : Bool
  dirty : BitVec 64
  who : NMap Who := []
  deriving DecidableEq, Repr, Inhabited

/-- A cached leaf of a translation (R84): context, first address and size of its span, the entry, its level, and for a
tile-region or stripe-set leaf the bytes of its descriptor. -/
structure CachedLeaf where
  ctx : Nat
  base : Nat
  level : Nat
  entry : W64
  desc : List Byte
  deriving DecidableEq, Repr, Inhabited

/-- A line fill in flight to a core (R137, R405), with the group slot whose entry of the request table it holds. A stale one was asked
of a peer before an invalidation or an own store of the line: no later access may take its bytes (R288, R290, R295). -/
structure Fill where
  core : Nat
  line : Nat
  noAlloc : Bool
  slot : Nat := 48
  stale : Bool := false
  data : Option (BitVec 2048) := none
  deriving DecidableEq, Repr, Inhabited

/-- A lane waiting in a port's wait list (R160): the requester, the granule it waits for, the scratchpad address and the generic address
of what it loads. -/
structure Waiter where
  core : Nat
  slot : Nat
  trapBlock : Bool
  split : Nat
  lane : Nat
  granule : Nat
  clear : Bool
  addr : Nat
  va : Nat
  len : Nat
  conv : Conv
  deriving DecidableEq, Repr, Inhabited

/-- A copy in an engine's queue (R164): its box of rows, what it reads and writes, and its progress. Kinds as in
Table 17-4: 1 CPY, 2 CPYG, 3 TDEF, 4 TRDS, 5 LCPY, 6 RMPUT, 7 RMGET. -/
structure Copy where
  id : Nat
  eng : Nat
  slot : Nat
  lane : Nat := 0
  batch : Nat
  kind : Nat
  src : W64
  dst : W64
  sst1 : W64 := 0
  dst1 : W64 := 0
  sst2 : W64 := 0
  dst2 : W64 := 0
  rowb : Nat
  n1 : Nat := 1
  n2 : Nat := 1
  index : W64 := 0
  iwid : Nat := 4
  iscale : Nat := 0
  dev : Nat := 0
  key : Nat := 0
  tile : Nat := 0
  data : List Byte := []
  row : Nat := 0
  off : Nat := 0
  started : Bool := false
  held : Option Nat := none
  fail : Option TrapInfo := none
  waiting : Nat := 0
  pc : W64 := 0
  deriving DecidableEq, Repr, Inhabited

/-- A core: L1, signature and masks, generations seen, translation cache, loads in flight and wait list. -/
structure Core where
  l1 : NMap L1Line := []
  sig : BitVec 512 := 0
  writers : BitVec 56 := 0
  released : BitVec 56 := 0
  gens : NMap Nat := []
  tlb : List CachedLeaf := []
  loads : List Load := []
  waits : List Waiter := []
  copies : List Copy := []
  /-- The instructions that wait for entries of the request table, oldest first: group slot and mark of the stream (R137). -/
  tableQ : List (Nat × Nat) := []
  /-- The next member of the rotation, and the samples taken since sampling began (R395). -/
  sampleIdx : Nat := 0
  samples : Nat := 0
  deriving DecidableEq, Repr, Inhabited

/-- A 256-byte line of a die's remote-line partition (R126). -/
structure RemoteLine where
  data : BitVec 2048
  valid : BitVec 256
  dirty : BitVec 256
  contrib : BitVec 48
  writers : List Nat := []
  since : Nat
  deriving DecidableEq, Repr, Inhabited

/-- An entry of a die's signature table that is not EMPTY (R130): ALL, or VALID with a tag and a signature. -/
structure SigEntry where
  all : Bool
  tag : Nat
  sig : BitVec 512
  deriving DecidableEq, Repr, Inhabited

/-- An entry of a summary table (R357): backlog, age of the head record, when it arrived, and the device. -/
structure Summary where
  backlog : Nat
  age : Nat
  since : Nat
  weight : Nat
  dev : Nat
  deriving DecidableEq, Repr, Inhabited

/-- What a device last reported of a stage or a queue (R357): running blocks, outbound records, unfinished feeds. -/
structure Report where
  running : Bool
  outbound : Bool
  feeding : Bool
  deriving DecidableEq, Repr, Inhabited

/-- A request of a direct-launch list (R354, R362). -/
structure Direct where
  part : Nat
  sid : Nat
  arg : BitVec 512
  cmd : Nat
  deriving DecidableEq, Repr, Inhabited

/-- A hardware queue slot (R363): the user queue mapped into it, since when, RDPTR, WRPTR, and the 24 bytes of the command in progress. -/
structure HSlot where
  uq : Nat
  since : Nat := 0
  rd : Nat := 0
  wr : Nat := 0
  cmd : BitVec 192 := 0
  deriving DecidableEq, Repr, Inhabited

/-- A line of an L2 slice (R121): a valid bit for each of its four 64-byte sectors, and the mask of its dirty bytes. What the line holds
stands in `mem`, where a slice and the memory behind it are one store (log 5). -/
structure L2Line where
  valid : BitVec 4 := 0
  dirty : BitVec 256 := 0
  deriving DecidableEq, Repr, Inhabited

/-- A die: remote-line partition, signature table, second-level translation cache, power state. -/
structure Die where
  /-- The lines that the L2 slices of the die hold, by 256-byte line number (R121). -/
  l2 : NMap L2Line := []
  rlways : Nat := 2
  rlines : NMap RemoteLine := []
  sigs : NMap SigEntry := []
  gen : Nat := 0
  tlb : List CachedLeaf := []
  duty : Nat := 16
  cap : Nat := 0
  powerAt : Nat := 0
  corrected : Nat := 0
  summaries : NMap Summary := []
  reports : NMap Report := []
  hs : NMap HSlot := []
  pend : List Nat := []
  /-- Steal requests that have reached the die, by requester; queues granted to it (R365). -/
  steal : List Nat := []
  grants : List Nat := []
  lastSteal : Option Nat := none
  direct : List Direct := []
  /-- The age of the oldest request that each home slice has refused for want of a FWD slot (R112). -/
  refused : NMap Nat := []
  deriving DecidableEq, Repr, Inhabited

/-- A context's system registers (Table 17-8). -/
structure Ctx where
  part : Nat
  tvec : W64 := 0
  ptroot : W64 := 0
  trdbase : W64 := 0
  sstbase : W64 := 0
  deriving DecidableEq, Repr, Inhabited

/-- A fault held by the fault service (R87). -/
structure FaultRec where
  stream : StreamId
  info : TrapInfo
  kind : Nat
  /-- The copy or the operand stream concerned, where the kind is 4 or 5; of a sequencer's access, the map position. -/
  ref : Nat := 0
  decided : Option Bool := none
  deriving DecidableEq, Repr, Inhabited

/-- Who waits at a region's record or at a home slice of its lines: a stream, with whether it is of a trap context; the write-back of a line
of a core's L1; a fill; a copy; a map that an operand stream is fetched from; an access of the host, by its channel; a peer's, by its tag. -/
inductive SliceParty where
  | stream (st : StreamId) (trap : Bool)
  | writeBack (core line : Nat)
  | fill (core line : Nat)
  | copy (core id : Nat)
  | operand (block k : Nat)
  | host (port : Nat)
  | peer (dev tag : Nat)
  deriving DecidableEq, Repr, Inhabited
/-- A place among those that wait: 0 the region's record (R312), 1 + n the home slice n (R308); for a stream, the PC of its word. -/
structure SlicePlace where
  who : SliceParty
  place : Nat
  pc : Nat := 0
  deriving DecidableEq, Repr, Inhabited

/-- A snapshot region's record (R301), in a slot of the module's table. States: 0 IDLE, 1 REJECTING, 2 MERGING, 3 SWEEPING,
4 GROWING, 5 tags being set by SNAPDEF. -/
structure Region where
  ctx : Nat
  sg : Nat
  base : Nat
  lines : Nat
  pent : Nat
  pool : Nat
  pages : List Nat
  poolPages : List Nat
  depth : Nat := 0
  e : Nat := 0
  levels : List (Nat × Nat) := []
  n : Nat := 0
  st : Nat := 0
  exhausted : Bool := false
  /-- The stream whose operation runs, and for GROWING the new pool. -/
  issuer : Option (Nat × Nat) := none
  newPool : Nat := 0
  newPent : Nat := 0
  newPages : List Nat := []
  /-- What waits for the region, in arrival order (R308, R312). -/
  waiting : List SlicePlace := []
  deriving DecidableEq, Repr, Inhabited

/-- A key (R105). -/
structure Key where
  tag : Nat
  ctx : Nat
  vbase : Nat
  len : Nat
  rights : Nat
  revoked : Bool := false
  deriving DecidableEq, Repr, Inhabited

/-- A barrier entry of a partition (R336), keyed by scope, scope member and id. -/
structure BarEntry where
  expect : Nat := 0
  count : Nat := 0
  phase : Nat := 0
  carried : BitVec 512 := 0
  lastSig : BitVec 512 := 0
  deriving DecidableEq, Repr, Inhabited

/-- An entry of a queue table (R341, R343): header address, home device, and the dequeues that wait for a refill, by the core of their
agent, in arrival order (R350, R352). -/
structure Queue where
  hdr : Nat
  dev : Nat
  remote : Bool
  graph : Nat := 0
  deq : List Nat := []
  deriving DecidableEq, Repr, Inhabited

/-- A partition descriptor (Table 18-2). -/
structure PartDesc where
  quads : Nat
  slots : Nat
  uqlo : Nat
  uqhi : Nat
  qhbm : Nat
  qnet : Nat
  qfab : Nat
  ivt : Nat
  logbase : Nat
  logent : Nat
  ranges : List (Nat × Nat)
  caldera : Nat
  deriving DecidableEq, Repr, Inhabited

/-- A ring in Caldera that the control window describes (R394, R395): base, entries, write and read index, lost count. -/
structure Ring where
  base : Nat := 0
  size : Nat := 0
  w : Nat := 0
  r : Nat := 0
  lost : Nat := 0
  deriving DecidableEq, Repr, Inhabited

/-- A partition (R382 to R386, R391 to R397). -/
structure Part where
  desc : PartDesc
  widx : Nat := 0
  ridx : Nat := 0
  lost : Nat := 0
  inflight : Nat := 0
  /-- Between the fence of a reset and its end (R386); and halted by a thermal event (R390). -/
  resetting : Bool := false
  halted : Bool := false
  dbgen : Bool := false
  watch : NMap (Nat × Nat × Nat) := []
  trace : Ring := {}
  sample : Ring := {}
  period : Nat := 0
  sampleStart : Nat := 0
  progress : NMap Nat := []
  trials : List (Nat × List Nat) := []
  tiledisc : W64 := 0
  ctrbase : W64 := 0
  ctrcount : W64 := 0
  keys : NMap Key := []
  keyTag : Nat := 0
  stages : NMap Stage := []
  queues : NMap Queue := []
  bars : NMap BarEntry := []
  dumps : List (Nat × List Byte) := []
  dropped : Nat := 0
  bells : Nat := 0
  /-- Rectangles that a LAUNCH has reserved while its dequeue waits: agent core and stage (R355). -/
  reserved : NMap Nat := []
  exports : List (Nat × Nat) := []
  domain : List Nat := []
  deriving DecidableEq, Repr, Inhabited

/-- A run on its way to a queue (R347): records of 64 bytes, the issuing stream or command, and whether it is appended. -/
structure Run where
  id : Nat
  part : Nat
  queue : Nat
  recs : List (BitVec 512)
  strm : Option StreamId
  cmd : Option Nat
  done : Bool := false
  /-- For a run with `.rel`, the core whose signature it carries, and the signature (R349). -/
  rel : Option Nat := none
  sig : BitVec 512 := 0
  /-- Who appends each record, as a trace names it (R394). -/
  whos : List Who := []
  deriving DecidableEq, Repr, Inhabited

/-- An outbound queue (R102, R348). -/
structure Outbound where
  part : Nat
  queue : Nat
  dev : Nat
  /-- Each record with the clock at which it entered, and the signature that it carries to its home where its run has `.rel` (R349). -/
  recs : List (Nat × BitVec 512 × Option (BitVec 512))
  weight : Nat := 0x0100
  byDriver : Bool := false
  s : Nat := 0
  deriving DecidableEq, Repr, Inhabited

/-- A packet at an egress port (R94): virtual channel 0 to 12, flits, destination, and the request or posted store it carries. Kinds are
those of the requests, and 9 a packet of other modules that passes through, 10 an answer, 11 a request sent onward for another
requester. A packet that passes through holds its flits of the input buffer of a port and channel until it leaves (R96). -/
structure Packet where
  vc : Nat
  flits : Nat
  dev : Nat
  ref : Nat
  kind : Nat
  inp : Option (Nat × Nat) := none
  deriving DecidableEq, Repr, Inhabited

/-- A link of a port, both directions (R95, R96, R101): LLk is port k, GPk port 32 + k. As a sender: the channels that are XOFF, the packets
that stand at the port, when each channel's timer began, the records forwarded of each outbound queue, and the clock of the last decision
to forward (R102). As a receiver: the flits of each channel in the input buffer, and the channels for which XOFF has been sent. -/
structure Link where
  up : Bool := false
  headroom : Nat := 0
  fails : Nat := 0
  xoff : Nat := 0
  queue : List Packet := []
  since : NMap Nat := []
  fwd : NMap Nat := []
  decided : Option Nat := none
  inbuf : NMap Nat := []
  sentXoff : Nat := 0
  deriving DecidableEq, Repr, Inhabited

/-- A remote request that awaits its response (R103, R108, R115). Kinds: 0 line load, 1 atomic, 2 posted store, 3 RMPUT segment,
4 RMGET segment, 5 RMATOM, 6 record, 7 close. States: 0 waiting, 1 answered, 2 failed. -/
structure Request where
  id : Nat
  kind : Nat
  dev : Nat
  core : Nat
  slot : Nat
  addr : Nat
  key : Nat := 0
  seqNo : Nat := 0
  inc : Nat := 0
  bytes : List (Nat × Byte) := []
  since : Nat
  resends : Nat := 0
  st : Nat := 0
  data : List Byte := []
  fail : TrapInfo := ⟨0, 0, 0, 0⟩
  copy : Nat := 0
  lane : Nat := 0
  split : Nat := 0
  strong : Bool := false
  noAlloc : Bool := false
  stale : Bool := false
  /-- Whether it carries a release, whose signature the home deposits (R130, R133); and what an answer brings of the home's entry: the
  whole L1 to be invalidated, or a signature, and the generation of the home's table (R130, R131, R134). -/
  rel : Bool := false
  sig : BitVec 512 := 0
  rall : Bool := false
  rsig : BitVec 512 := 0
  rgen : Nat := 0
  contrib : BitVec 48 := 0
  writers : List Nat := []
  /-- Whether a packet of it stands at a port, and whether one has left the device. -/
  routed : Bool := false
  left : Bool := false
  op : Nat := 0
  x : Nat := 0
  y : Nat := 0
  deriving DecidableEq, Repr, Inhabited

/-- A source channel of a (device, key) pair (R107): next sequence number, incarnation, the groups that hold it, and open. -/
structure Chan where
  seqNo : Nat := 0
  inc : Nat := 0
  holders : List Nat := []
  openNow : Bool := false
  deriving DecidableEq, Repr, Inhabited

/-- A channel at the target (R107): window base and the placed sequence numbers from it, with the key's revocation seen. -/
structure TChan where
  inc : Nat
  lw : Nat := 0
  placed : List Nat := []
  deriving DecidableEq, Repr, Inhabited

/-- What the module answered to a peer or the host: destination, kind (0 ACK, 1 NACK, 2 RETRY, 3 completion, 4 error
completion, 5 host message), tag and data. -/
structure Answer where
  dev : Nat
  kind : Nat
  tag : Nat
  code : Nat
  data : List Byte
  /-- What an acquire of a peer receives of the line's entry (R130, R131): the whole L1 to be invalidated, or a signature, and the
  generation of the table. -/
  all : Bool := false
  sig : BitVec 512 := 0
  gen : Nat := 0
  /-- The channel of an answer to a peer, and whether its packet stands at a port (R94, R95). -/
  vc : Nat := 5
  routed : Bool := false
  deriving DecidableEq, Repr, Inhabited

/-- A user queue (R362, R363): its QCB fields, of which a mapped queue's RDPTR, WRPTR and command state stand in its slot; the die it is
routed to, and whether a malformed command stopped it. -/
structure UQ where
  rbase : Nat
  rsize : Nat
  prio : Nat
  rd : Nat := 0
  wr : Nat := 0
  wstart : Nat := 0
  cmd : BitVec 192 := 0
  die : Nat
  stopped : Bool := false
  deriving DecidableEq, Repr, Inhabited

/-- A host command that has started (R362): what is left of it. -/
structure Cmd where
  id : Nat
  part : Nat
  uq : Nat
  idx : Nat
  opc : Nat
  comp : Nat
  sid : Nat := 0
  left : Nat := 0
  graph : Nat := 0
  deriving DecidableEq, Repr, Inhabited

/-- A running graph (R358). -/
structure Graph where
  part : Nat
  die : Nat
  slo : Nat
  shi : Nat
  qlo : Nat
  qhi : Nat
  cmd : Nat
  sent : Nat := 0
  recvd : Nat := 0
  begun : Bool := false
  quiet : Option Nat := none
  deriving DecidableEq, Repr, Inhabited

/-- A pre-emption or restore that runs (R372, R373): the requesting agent, the neighbourhood, the anchor word and the area of the
request, when it began; whether the anchor's agent has taken PREEMPT, the blocks whose sequencers stopped without a safe point, whether it
is done, whether some sequencer was saved in full, and the bytes it reports. -/
structure SaveOp where
  id : Nat
  core : Nat
  slot : Nat
  nb : Nat
  anchor : Nat
  area : Nat
  since : Nat
  restore : Bool := false
  taken : Bool := false
  late : List Nat := []
  done : Bool := false
  full : Bool := false
  bytes : Nat := 0
  deriving DecidableEq, Repr, Inhabited

/-- A saved neighbourhood with the bytes of its area (R374): blocks by cluster index, groups by 16 k + g, signatures, scratchpad bytes
with full/empty bits, and copies by cluster index. While it is saved, its streams are named by core 1000 + 24 n + k, for the number n of
the save, and by group index. -/
structure Saved where
  num : Nat
  nb : Nbhd
  key : Nat
  blocks : List (Nat × Block)
  groups : List (Nat × Group)
  sigs : List (Nat × BitVec 512)
  spads : List (Nat × List Byte × List Nat)
  copies : List (Nat × Copy)
  bytes : List Byte
  deriving DecidableEq, Repr, Inhabited

/-- The management processor (R387 to R389). -/
structure Mgmt where
  step : Nat := 0
  failure : Nat := 0
  floor : Nat := 0
  measures : List (List Byte) := []
  cdis : NMap Nat := []
  llmap : Nat := 0
  gpmap : Nat := 0
  pcap : Nat := 0
  parts : Nat := 0
  /-- SPDM: 0 no session, 1 version, 2 capabilities, 3 algorithms negotiated, 4 session ended. -/
  spdm : Nat := 0
  /-- The escape tree (R100): each device with its parent; the root has none. -/
  tree : NMap Nat := []
  /-- The firmware agent's image as a stage (R388, step 4). -/
  agent : Option Stage := none
  deriving DecidableEq, Repr, Inhabited

/-- The state of the module. `hostHeld` holds, by channel of the Clealmoux link, the access of the host that its home slice holds (R306,
R308, R381): 0 a write, 1 an atomic, 2 a read. -/
structure State where
  turn : Turn
  input : Input
  word : W96
  tick : Nat
  clock : Nat
  mem : List Host.Cell
  chip : List Host.Cell
  spad : List Host.Cell
  spadCtx : NMap Nat
  full : NMap Nat
  hostSize : Nat
  devnum : BitVec 14
  groups : NMap Group
  blocks : NMap Block
  nbhds : NMap Nbhd
  cores : NMap Core
  dies : NMap Die
  ctxs : NMap Ctx
  parts : NMap Part
  faults : List (Nat × FaultRec)
  fills : List Fill
  tags : NMap Nat
  pageMap : NMap (Nat × Nat × Nat)
  regions : NMap Region
  links : NMap Link
  requests : List Request
  chans : NMap Chan
  tchans : NMap TChan
  answers : List Answer
  hostWrites : List (Nat × Nat × Nat)
  hostHeld : NMap (Nat × Input)
  runs : List Run
  outbound : NMap Outbound
  uqs : NMap UQ
  cmds : List Cmd
  graphs : NMap Graph
  saveOps : List SaveOp
  saves : NMap Saved
  mgmt : Mgmt
  nextId : Nat
  free : Nat
  deriving DecidableEq, Repr, Inhabited

/-- The module right after power-on, before the first step of start-up (R388). -/
def State.reset : State :=
  { turn := .idle, input := default, word := 0, tick := 0, clock := 0, mem := [], chip := [], spad := [], spadCtx := [],
    full := [], hostSize := 0, devnum := 0, groups := [], blocks := [], nbhds := [], cores := [], dies := [], ctxs := [],
    parts := [], faults := [], fills := [], tags := [], pageMap := [], regions := [], links := [], requests := [],
    chans := [], tchans := [], answers := [], hostWrites := [], hostHeld := [], runs := [], outbound := [], uqs := [], cmds := [],
    graphs := [], saveOps := [], saves := [], mgmt := {}, nextId := 0, free := 0 }

end Sys2Proof.Machine
end

