-- ==== Sys2Proof/Machine/Mem.lean ====
section
/-! DEFINITION. Memory as canonical lists of cells: strictly rising addresses, no cell that holds the value an unlisted
address reads as, which is 0; and multi-byte reads and writes, little-endian (R8). -/

namespace Sys2Proof.Machine
open Bits

namespace Memory

/-- What an unlisted address reads as. DESIGN CHOICE: 0 (log 4). -/
def blank : Byte := 0
/-- The byte at an address. -/
def get : List Host.Cell → Nat → Byte
  | [], _ => blank
  | (k, v) :: m, a => if k = a then v else get m a
/-- The memory without a cell at an address. -/
def erase : List Host.Cell → Nat → List Host.Cell
  | [], _ => []
  | (k, v) :: m, a => if k = a then erase m a else (k, v) :: erase m a
/-- The memory with a listed byte at an address. -/
def insert : List Host.Cell → Nat → Byte → List Host.Cell
  | [], a, b => [(a, b)]
  | (k, v) :: m, a, b => if k = a then (a, b) :: m else if a < k then (a, b) :: (k, v) :: m else (k, v) :: insert m a b
/-- The memory with a byte at an address, in canonical form. -/
def set (m : List Host.Cell) (a : Nat) (b : Byte) : List Host.Cell := if b = blank then erase m a else insert m a b
/-- The memory with several bytes written, in order. -/
def write : List Host.Cell → List (Nat × Byte) → List Host.Cell
  | m, [] => m
  | m, (a, b) :: l => write (set m a b) l
/-- n bytes from an address. -/
def read (m : List Host.Cell) (a : Nat) : Nat → List Byte
  | 0 => []
  | n + 1 => get m a :: read m (a + 1) n
/-- A little-endian value of n bytes (R8). -/
def le (m : List Host.Cell) (a n : Nat) : Nat := ofBytes (read m a n)
/-- The cells at and above an address are above it and listed with another value than `blank`. -/
def above : Nat → List Host.Cell → Bool
  | _, [] => true
  | lo, (k, v) :: m => decide (lo ≤ k) && v != blank && above (k + 1) m
/-- The canonical form. -/
def wf (m : List Host.Cell) : Bool := above 0 m

end Memory

/-- Bytes placed from an address upward. -/
def cellsAt (a : Nat) : List Byte → List (Nat × Byte)
  | [] => []
  | b :: bs => (a, b) :: cellsAt (a + 1) bs

/-- Byte i of a packed value, and the value with byte i replaced. -/
def byteAt {n : Nat} (v : BitVec n) (i : Nat) : Byte := v.extractLsb' (8 * i) 8
def putByte {n : Nat} (v : BitVec n) (i : Nat) (b : Byte) : BitVec n :=
  (v &&& ~~~((255 : BitVec n) <<< (8 * i))) ||| ((b.setWidth n) <<< (8 * i))
/-- The bytes of a packed value. -/
def unpack {n : Nat} (v : BitVec n) : List Byte := (List.range (n / 8)).map (byteAt v)
/-- A packed value from bytes. -/
def pack (n : Nat) (bs : List Byte) : BitVec n := BitVec.ofNat n (ofBytes bs)

end Sys2Proof.Machine
end

