-- ==== Sys2Proof/Machine/Ops.lean ====
section
/-! DEFINITION. The named operations over the state: accessors, physical memory and its home slices with capture and
trace, the L1 and the signatures, the error log and interrupts. -/

namespace Sys2Proof.Machine
open Bits

/-! ## Accessors -/

/-- The group in a slot of a core. -/
def State.group? (s : State) (c sl : Nat) : Option Group := s.groups.get? (c * 48 + sl)
def State.setGroup (s : State) (c sl : Nat) (g : Group) : State := { s with groups := s.groups.set (c * 48 + sl) g }
def State.updGroup (s : State) (c sl : Nat) (f : Group → Group) : State :=
  { s with groups := s.groups.modify f (c * 48 + sl) }
def State.block? (s : State) (b : Nat) : Option Block := s.blocks.get? b
def State.setBlock (s : State) (b : Nat) (x : Block) : State := { s with blocks := s.blocks.set b x }
def State.updBlock (s : State) (b : Nat) (f : Block → Block) : State := { s with blocks := s.blocks.modify f b }
def State.nbhd? (s : State) (n : Nat) : Option Nbhd := s.nbhds.get? n
def State.updNbhd (s : State) (n : Nat) (f : Nbhd → Nbhd) : State := { s with nbhds := s.nbhds.modify f n }
def State.core (s : State) (c : Nat) : Core := s.cores.getD c {}
def State.setCore (s : State) (c : Nat) (k : Core) : State := { s with cores := s.cores.set c k }
def State.updCore (s : State) (c : Nat) (f : Core → Core) : State := s.setCore c (f (s.core c))
def State.die (s : State) (d : Nat) : Die := s.dies.getD d {}
def State.updDie (s : State) (d : Nat) (f : Die → Die) : State := { s with dies := s.dies.set d (f (s.die d)) }
def State.part? (s : State) (p : Nat) : Option Part := s.parts.get? p
def State.updPart (s : State) (p : Nat) (f : Part → Part) : State := { s with parts := s.parts.modify f p }
def State.ctx (s : State) (c : Nat) : Ctx := s.ctxs.getD c { part := 0 }
def State.updRegion (s : State) (i : Nat) (f : Region → Region) : State := { s with regions := s.regions.modify f i }
/-- The die of a core, and the core's number on its die (R3). -/
def dieOf (c : Nat) : Nat := c / 48
/-- The block and the neighbourhood of a group. -/
def State.blockOf (s : State) (g : Group) : Block := (s.block? g.block).getD default
def State.nbhdOf (s : State) (g : Group) : Nbhd := (s.nbhd? (s.blockOf g).nb).getD default
/-- A new number for a record of the model. -/
def State.newId (s : State) : Nat × State := (s.nextId, { s with nextId := s.nextId + 1 })
/-- A free value of 64 bits, and the state with the counter advanced. -/
def State.fresh (s : State) : W64 × State := (Config.freeWord (s.free * 4), { s with free := s.free + 1 })

/-! ## Physical memory -/

/-- Whether n bytes from a physical address lie within one backed row of Table 4-4 (R80). -/
def backed (s : State) (pa n : Nat) : Bool :=
  decide (pa + n ≤ Config.hbmBytes) || (decide (Config.hostBase ≤ pa) && decide (pa + n ≤ Config.hostBase + s.hostSize))
/-- Whether n bytes from a physical address meet a counter of a partition: no load, store or access of the host or of a peer reaches one
(R356); the model refuses it as memory that nothing backs (log 57). -/
def meetsCounter (s : State) (pa n : Nat) : Bool :=
  s.parts.any (fun p => decide (pa < p.2.ctrbase.toNat + 8 * p.2.ctrcount.toNat) && decide (p.2.ctrbase.toNat < pa + n))
/-- Whether an address is local HBM. -/
def isHbm (pa : Nat) : Bool := decide (pa < Config.hbmBytes)
/-- A 64-bit word of a table that the hardware itself reads; a free value where no memory backs it (log 13). -/
def tableWord (s : State) (pa : Nat) : Nat := if backed s pa 8 then Memory.le s.mem pa 8 else (Config.freeWord (pa * 4 + 1)).toNat
/-- The home die of a line (R120). -/
def homeDie (pa : Nat) : Nat :=
  if isHbm pa then pa / Config.hbmDie else let n := pa / 256; (n ^^^ (n >>> 3) ^^^ (n >>> 6)) % 8
/-- The slice of a line: the fold of R120. -/
def homeSlice (pa : Nat) : Nat :=
  (List.range 9).foldl (fun x k => x ^^^ (((pa / 256) >>> (5 * k)) % 32)) 0
/-- The unit of a memory that one check covers: 32 bytes of local or host memory and of a chip scratchpad, 4 bytes of a core scratchpad
(R110, R136, R148). -/
def memUnit (a : Nat) : Nat := a / 32
def chipUnit (a : Nat) : Nat := 2 ^ 60 + a / 32
def spadUnit (a : Nat) : Nat := 2 ^ 61 + a / 4
/-- The die that counts what is corrected in a unit. -/
def unitDie (u : Nat) : Nat :=
  if u < 2 ^ 60 then homeDie (u * 32) else if u < 2 ^ 61 then (u - 2 ^ 60) * 32 / Config.chipBytes else (u - 2 ^ 61) * 4 / Config.spadBytes / 48
/-- The subcode of DATA_INTEGRITY that a step meets in the units it reads (Table 5-5): 0x02 in the core memories and the
chip scratchpad. Which units fail comes with the input (log 60). -/
def errIn (s : State) (us : List Nat) : Option Nat :=
  us.findSome? (fun u => (s.input.errs.find? (fun e => e.1 == u && e.2 != 0)).map (fun e => if u < 2 ^ 60 then e.2 % 256 else 2))
/-- A line of an L2 slice of which a sector was read, or bytes of which a mask says were written: a sector written whole is valid (R121). -/
def L2Line.read (l : L2Line) (sector : Nat) : L2Line := { l with valid := l.valid ||| (1 <<< sector) }
def L2Line.wrote (l : L2Line) (mask : Nat) : L2Line :=
  let dirty := l.dirty ||| BitVec.ofNat 256 mask
  { dirty, valid := l.valid ||| BitVec.ofNat 4 (maskOf ((List.range 4).filter (fun k => dirty.toNat / 2 ^ (64 * k) % 2 ^ 64 == 2 ^ 64 - 1))) }
/-- A line of the L2 slice at its home changed. -/
def updL2 (s : State) (line : Nat) (f : L2Line → L2Line) : State :=
  s.updDie (homeDie (line * 256)) (fun d => { d with l2 := d.l2.set line (f ((d.l2.get? line).getD {})) })
/-- The home slices hold the sectors of addresses that were read, and the bytes of cells that were written (R121). -/
def l2Read (s : State) (pas : List Nat) : State := (pas.map (· / 64)).dedup.foldl (fun s x => updL2 s (x / 4) (L2Line.read · (x % 4))) s
def l2Wrote (s : State) (l : List (Nat × Byte)) : State :=
  (l.map (fun c => c.1 / 256)).dedup.foldl (fun s n => updL2 s n (L2Line.wrote · (maskOf ((l.filter (fun c => c.1 / 256 == n)).map (fun c => c.1 % 256))))) s
/-- Single-bit errors of the units that a step reads are corrected and counted (R110, R148); units of memory behind a slice are then held
by it (R121). -/
def countErrs (s : State) (us : List Nat) : State :=
  (us.filter (fun u => s.input.errs.contains (u, 0))).foldl (fun s u => s.updDie (unitDie u) (fun d => { d with corrected := d.corrected + 1 }))
    (l2Read s ((us.filter (fun u => decide (u < 2 ^ 60))).map (· * 32)))
/-- DATA_INTEGRITY with a subcode of Table 5-5 and the failing address. -/
def integrity (sub va : Nat) : TrapInfo := { cause := 0x18, info := BitVec.ofNat 64 sub, addr := BitVec.ofNat 64 va }
/-- Bytes written by the module itself, which no watch or region concerns. -/
def State.poke (s : State) (l : List (Nat × Byte)) : State := { s with mem := Memory.write s.mem l }

/-- SITE, ANCHOR, K, SID, TICKET and BPC of a block (Table 19-1). -/
def identity (s : State) (core slot : Nat) (b : Option Nat) : Nat × Nat × Nat × Nat × Nat × Nat :=
  match b.bind s.block? with
  | none => (0, 0, 0, 0, 0, 0)
  | some x =>
    let n := (s.nbhd? x.nb).getD default
    (dieOf core * 8192 + (core % 48) * 128 + slot * 2, n.row * 8 + n.col, x.k, n.stage.sid, x.ticket.toNat, x.bpc)
/-- The partition of a block. -/
def partOfBlock (s : State) (b : Nat) : Nat := (((s.block? b).bind (fun x => s.nbhd? x.nb)).getD default).part

/-- The region slot whose line or pool page a physical address lies in, and whether it is a pool page (R299). -/
def regionAt (s : State) (pa : Nat) : Option (Nat × Bool × Region) :=
  match s.pageMap.get? (pa / 4096) with
  | none => none
  | some (slot, first, last) =>
    match s.regions.get? slot with
    | none => none
    | some r =>
      if r.poolPages.contains (pa / 4096) || r.newPages.contains (pa / 4096) then some (slot, true, r)
      else if first ≤ pa / 256 % 16 ∧ pa / 256 % 16 ≤ last then some (slot, false, r) else none
/-- Whether a byte lies in a page of a shadow pool, which only the Sinter engine writes (R300). -/
def inPool (s : State) (pa : Nat) : Bool := match regionAt s pa with
  | some (_, true, _) => true
  | _ => false
/-- Bytes that a table or a ring of the module itself receives: none reaches a pool page (R300). -/
def State.putOwn (s : State) (l : List (Nat × Byte)) : State := s.poke (l.filter (fun x => !inPool s x.1))
/-- The writer that a trace names where a unit of the module itself moves data, which Table 19-3 has no AGENT for: 1, of no block (log 45). -/
def unitWho : Who := { agent := 1 }
/-- A record of bytes for a ring in Caldera: written at the write index, or counted as lost where the ring is full. -/
def ringPut (s : State) (r : Ring) (rec : List Byte) : State × Ring :=
  if r.size ≤ r.w - r.r then (s, { r with lost := min (r.lost + 1) (2 ^ 32 - 1) })
  else (s.putOwn (cellsAt (r.base + rec.length * (r.w % r.size)) rec), { r with w := r.w + 1 })

/-- The record of Table 19-3 for one word. -/
def traceRecord (s : State) (w : Who) (wr a old new mask : Nat) : List Byte :=
  let (site, anchor, k, sid, ticket, bpc) := w.ident.getD (identity s w.core w.slot (if w.agent < 4 then w.block else none))
  bytesOf 8 s.clock ++ bytesOf 8 a ++ bytesOf 8 old ++ bytesOf 8 new ++ bytesOf 1 mask ++ bytesOf 1 w.agent ++
  bytesOf 1 wr ++ bytesOf 1 (if w.agent = 0 then w.lane else 255) ++ bytesOf 4 w.pc ++ bytesOf 2 site ++ bytesOf 1 anchor ++
  bytesOf 1 k ++ bytesOf 2 sid ++ bytesOf 2 (w.dev.getD s.devnum.toNat) ++ bytesOf 8 ticket ++ bytesOf 4 bpc ++ bytesOf 4 0

/-- The aligned words that a write touches. -/
def wordsOf (l : List (Nat × Byte)) : List Nat := (l.map (fun c => c.1 / 8)).dedup

/-- Whether the block of a writer is still the one that its instruction ran in: where the write is performed later, by its ticket. -/
def Who.there (s : State) (w : Who) (b : Nat) : Bool := match w.ident with
  | none => true
  | some i => ((s.block? b).map (fun x => x.ticket.toNat == i.2.2.2.2.1)).getD false
/-- The trace of one performed write for one watched region of a partition, and its STOP (R393, R394). -/
def traceOne (old : List Host.Cell) (w : Who) (l : List (Nat × Byte)) (p : Nat) (s : State) (wr : Nat × Nat × Nat × Nat) : State :=
  let (i, base, len, flags) := wr
  let ws := (wordsOf l).filter (fun a => decide (base ≤ a * 8) && decide (a * 8 + 8 ≤ base + len))
  let s := if bit flags 0 then
      ws.foldl (fun s a => match s.part? p with
        | none => s
        | some q =>
          let mask := maskOf ((l.filter (fun c => decide (c.1 / 8 = a))).map (fun c => c.1 % 8))
          let (s, r) := ringPut s q.trace (traceRecord s w i (a * 8) (Memory.le old (a * 8) 8) (Memory.le s.mem (a * 8) 8) mask)
          s.updPart p (fun q => { q with trace := r })) s
    else s
  let stops := bit flags 1 && ((s.part? p).map (·.dbgen)).getD false && decide (w.agent < 3) && !ws.isEmpty
  match stops, w.block with
  | true, some b => if w.there s b then s.updBlock b (fun x => { x with watch := some w }) else s
  | _, _ => s

/-- A write as it is performed: the bytes change, the home slice holds them dirty (R121), and every partition's watched regions examine it
(R394). -/
def State.perform (s : State) (w : Who) (l : List (Nat × Byte)) : State :=
  let t := l2Wrote (s.poke l) l
  s.parts.foldl (fun t p => p.2.watch.foldl (fun t wr => traceOne s.mem w l p.1 t wr) t) t

/-- Bytes of a queue in memory written by a writer, whom the trace names; none reaches a pool page (R300, R394). -/
def State.putBy (s : State) (w : Who) (l : List (Nat × Byte)) : State := s.perform w (l.filter (fun x => !inPool s x.1))

/-! ## Snapshot regions at the home slice -/

/-- The epoch of the innermost level. -/
def Region.top (r : Region) : Nat := (r.levels.getLast?.getD (0, 0)).1
/-- Whether a write to the line needs a capture (R303). -/
def needsCapture (s : State) (r : Region) (pa : Nat) : Bool := decide (1 ≤ r.depth) && decide (s.tags.getD (pa / 256) 0 < r.top)
/-- The place of a line's home slice among those where accesses wait for a region (R308), times 256. -/
def slicePlace (pa : Nat) : Nat := 256 * (1 + 32 * homeDie pa + homeSlice pa)
/-- Whether a waiting party goes on once its turn comes: a stream of an interrupted context, of a stopped block or of a neighbourhood that
is saved lets others pass. -/
def mayGo (s : State) (w : SliceParty) : Bool :=
  let free (b : Block) : Bool := !b.stopped && !((s.nbhd? b.nb).map (·.saving)).getD true
  let group (c sl : Nat) (trap : Bool) : Bool := ((s.group? c sl).map (fun g => g.trapMode == trap && free (s.blockOf g))).getD false
  match w with
  | .stream (.scalar c sl) trap | .stream (.split c sl _) trap => group c sl trap
  | .stream (.seq c b) _ => ((s.block? (c * 8 + b)).map free).getD false
  | _ => true
/-- Whether a party that goes on waits at a place before the first of some. -/
def Region.before (s : State) (r : Region) (me : SliceParty → Bool) (place : Nat) : Bool :=
  (r.waiting.takeWhile (fun w => !me w.who)).any (fun w => w.place == place && mayGo s w.who)
/-- Whether an access of a party to a line waits at its home slice: for the region's operation (R304, R307, R308, R310, R311), or, once that
has ended, behind those that came before it (R308). The answer is the region's slot with the place. -/
def homeWaits (me : SliceParty → Bool) (s : State) (pa : Nat) (isWrite : Bool) : Option Nat :=
  match regionAt s pa with
  | some (slot, false, r) =>
    let waits := match r.st with
      | 0 => r.before s me (slicePlace pa / 256)
      | 1 => true
      | 3 => isWrite
      | 2 | 4 => isWrite && needsCapture s r pa
      | _ => false
    if waits then some (slot + slicePlace pa) else none
  | _ => none
/-- A party leaves the places where it waits. -/
def leavePlaces (s : State) (w : SliceParty) : State :=
  if s.regions.any (fun r => r.2.waiting.any (fun x => x.who == w)) then
    { s with regions := s.regions.mapV (fun _ r => { r with waiting := r.waiting.filter (fun x => x.who != w) }) }
  else s
/-- A party joins, behind the others, those that wait at a place, given with the region's slot; it waits at one place at a time (R308, R312). -/
def joinPlace (k : Nat) (w : SliceParty) (pc : Nat) (s : State) : State :=
  if ((s.regions.get? (k % 256)).map (fun r => r.waiting.any (fun x => x.who == w && x.place == k / 256))).getD true then s
  else (leavePlaces s w).updRegion (k % 256) (fun r => { r with waiting := r.waiting ++ [{ who := w, place := k / 256, pc }] })
/-- The cells of n bytes at offset o of a pool, whose physical pages are listed in order (R299, R300). -/
def poolCell (pages : List Nat) (o : Nat) : Nat := pages.getD (o / 4096) 0 * 4096 + o % 4096
def poolCells (pages : List Nat) (o : Nat) : List Byte → List (Nat × Byte)
  | [] => []
  | b :: bs => (poolCell pages o, b) :: poolCells pages (o + 1) bs
/-- Entry i of a pool (Table 14-2): LADDR, TAG, DATA. -/
def poolEntry (s : State) (pages : List Nat) (i : Nat) : Nat × Nat × List Byte :=
  let bs := (List.range 272).map (fun o => Memory.get s.mem (poolCell pages (272 * i + o)))
  (leAt bs 0 8, leAt bs 8 2, bs.drop 16)
def poolEntryCells (pages : List Nat) (i laddr tag : Nat) (data : List Byte) : List (Nat × Byte) :=
  poolCells pages (272 * i) (bytesOf 8 laddr ++ bytesOf 2 tag ++ bytesOf 6 0 ++ data)

/-- The outcome of a write at its home slice: performed; refused at a pool page (R300); no room in the pool of a region
(R305, R306); waiting for a region's engine. -/
inductive WRes where
  | done (s : State)
  | poolPage (s : State)
  | noRoom (slot : Nat) (s : State)
  | waits (slot : Nat) (s : State)
  deriving Repr, Inhabited

/-- A write of a party at the home slice of the line of an address: capture, then the write, as one step (R303). A compare and swap that
does not match is a write of no bytes: it is refused, waits and captures as any write does. -/
def homeAt (me : SliceParty → Bool) (w : Who) (pa : Nat) (l : List (Nat × Byte)) (s : State) : WRes :=
  match regionAt s pa with
  | none => .done (s.perform w l)
  | some (_, true, _) => .poolPage s
  | some (slot, false, r) =>
    match homeWaits me s pa true with
    | some k => .waits k s
    | none =>
      if needsCapture s r pa then
        if r.n = r.pent then .noRoom slot s
        else
          let line := pa / 256 * 256
          let s := s.poke (poolEntryCells r.poolPages r.n line (s.tags.getD (pa / 256) 0) (Memory.read s.mem line 256))
          let s := { s with tags := s.tags.set (pa / 256) r.top }
          .done ((s.updRegion slot (fun r => { r with n := r.n + 1 })).perform w l)
      else .done (s.perform w l)
/-- A write to bytes of one 256-byte line at its home slice (R303). -/
def homeWrite (me : SliceParty → Bool) (w : Who) (l : List (Nat × Byte)) (s : State) : WRes :=
  match l with
  | [] => .done s
  | (pa, _) :: _ => homeAt me w pa l s

/-- Another writer found the pool full: the exhaustion bit is set and the fault service is told (R306, R413). The record, of kind 9, is no
stream's: it names the segment and the context of the region. -/
def exhaust (s : State) (slot : Nat) : State :=
  match s.regions.get? slot with
  | none => s
  | some r =>
    if r.exhausted then s
    else
      let (id, s) := s.newId
      { s.updRegion slot (fun r => { r with exhausted := true }) with
        faults := s.faults ++ [(id, { stream := .seq (10 ^ 6) 0, info := { cause := 0x38, info := BitVec.ofNat 64 r.sg, addr := BitVec.ofNat 64 r.ctx }, kind := 9 })] }

/-! ## Signatures -/

/-- The four bits of a 64-byte line number (R129). -/
def sigOf (line : Nat) : BitVec 512 :=
  [0x9E3779B97F4A7C15, 0xC2B2AE3D27D4EB4F, 0x165667B19E3779F9, 0x27D4EB2F165667C5].foldl
    (fun (v : BitVec 512) k => v ||| (1 <<< (line * k % 2 ^ 64 / 2 ^ 55))) 0
/-- A writer's bit set in the writer mask and cleared in the released mask (R129). -/
def Core.wrote (k : Core) (bit : Nat) : Core :=
  { k with writers := k.writers ||| (1 <<< bit), released := k.released &&& ~~~((1 : BitVec 56) <<< bit) }
/-- A line added to SIG by a writer. -/
def addLine (s : State) (c bit pa : Nat) : State :=
  s.updCore c (fun k => ({ k with sig := k.sig ||| sigOf (pa / 64) } : Core).wrote bit)
/-- A signature merged into SIG by a party that synchronised. -/
def joinSig (s : State) (c bit : Nat) (v : BitVec 512) : State := s.updCore c (fun k => ({ k with sig := k.sig ||| v } : Core).wrote bit)
/-- A party's bit set in the released mask; when every writer has released, SIG and both masks are cleared. -/
def releaseBit (s : State) (c bit : Nat) : State := s.updCore c (fun k => { k with released := k.released ||| (1 <<< bit) })
def clearSig (s : State) (c : Nat) : State :=
  s.updCore c (fun k => if k.writers &&& ~~~k.released = 0 then { k with sig := 0, writers := 0, released := 0 } else k)
/-- The number of bits set in a signature. -/
def sigCount (v : BitVec 512) : Nat := popCount 512 v.toNat
/-- The signature-table entry of a synchronising line (R130). -/
def sigIndex (line : Nat) : Nat := (line ^^^ (line >>> 12) ^^^ (line >>> 24)) % 4096
/-- A deposit at a line's home die (R130), and a new generation where 1,024 entries are ALL (R131). -/
def deposit (s : State) (pa : Nat) (v : BitVec 512) : State :=
  let line := pa / 64
  s.updDie (homeDie pa) (fun d =>
    let e := match d.sigs.get? (sigIndex line) with
      | none => { all := decide (256 < sigCount v), tag := line, sig := v }
      | some e =>
        if e.all then e
        else if e.tag = line ∧ sigCount (e.sig ||| v) ≤ 256 then { e with sig := e.sig ||| v } else { e with all := true }
    let t := d.sigs.set (sigIndex line) e
    if (t.filter (fun x => x.2.all)).length < 1024 then { d with sigs := t } else { d with sigs := [], gen := d.gen + 1 })
/-- What the table of a line's home die says of it to an acquire that has seen a generation: invalidate the whole L1, or a signature
(R130, R131). -/
def entryFor (s : State) (seen pa : Nat) : Bool × BitVec 512 :=
  let d := s.die (homeDie pa)
  if seen < d.gen then (true, 0)
  else match d.sigs.get? (sigIndex (pa / 64)) with
    | none => (false, 0)
    | some e => if e.all then (true, 0) else if e.tag = pa / 64 then (false, e.sig) else (false, 0)
/-- What an acquire of a core receives from a line of this module. -/
def received (s : State) (c pa : Nat) : Bool × BitVec 512 := entryFor s ((s.core c).gens.getD (homeDie pa) 0) pa
/-- The place of the last generation that a core has seen of the home die of a line of a peer (R131); 0 to 7 are the module's own dies. -/
def genKey (dev rpa : Nat) : Nat := (dev + 1) * 8 + homeDie rpa

/-! ## The L1 -/

/-- L1 keys: a local or host line is its line number; a line of peer device d is above 2^58. -/
def peerKey (dev rpa : Nat) : Nat := (dev + 1) * 2 ^ 58 + rpa / 64
/-- The dirty bytes of a line as cells. -/
def dirtyCells (line : Nat) (l : L1Line) : List (Nat × Byte) :=
  (bitsOf 64 l.dirty.toNat).map (fun i => (line * 64 + i, byteAt l.data i))
/-- The dirty bytes of a line by the writers of its words. -/
def byWriter (line : Nat) (l : L1Line) : List (Who × List (Nat × Byte)) :=
  let who (x : Nat × Byte) : Who := l.who.getD (x.1 % 64 / 8) { agent := 0 }
  let cells := dirtyCells line l
  ((cells.map who).dedup).map (fun w => (w, cells.filter (fun x => who x == w)))
/-- Bytes of one line written at its home in one step, by several writers: the first captures the line (R303). -/
def homeWrites (me : SliceParty → Bool) : List (Who × List (Nat × Byte)) → State → WRes
  | [], s => .done s
  | x :: xs, s => match homeWrite me x.1 x.2 s with
    | .done s => homeWrites me xs s
    | r => r
/-- A masked write-back of one line (R123): true when it was performed, false while it waits, which it does in arrival order (R308). -/
def writeBack (c line : Nat) (s : State) : Bool × State :=
  match (s.core c).l1.get? line with
  | none => (true, s)
  | some l =>
    if l.dirty = 0 then (true, s)
    else
      let clean (s : State) := s.updCore c (fun k => { k with l1 := k.l1.set line { l with dirty := 0 } })
      match homeWrites (· == .writeBack c line) (byWriter line l) s with
      | .done s => (true, clean (leavePlaces (if isHbm (line * 64) then s
          else { s with hostWrites := s.hostWrites ++ [(s.nextId, c * 48 + 48 * 384, line * 64)], nextId := s.nextId + 1 }) (.writeBack c line)))
      | .poolPage s => (true, clean s)
      | .noRoom k s => (false, exhaust (leavePlaces s (.writeBack c line)) k)
      | .waits k s => (false, joinPlace k (.writeBack c line) 0 s)
/-- Write-back of every dirty line of a core: step 1 of R133. True when all were performed. -/
def flushL1 (c : Nat) (s : State) : Bool × State :=
  (s.core c).l1.foldl (fun r x => let (ok, s) := writeBack c x.1 r.2; (r.1 && ok, s)) (true, s)
/-- A line written back and dropped (R132): false while its write-back waits. -/
def invalidateLine (c line : Nat) (s : State) : Bool × State :=
  let (ok, s) := writeBack c line s
  if ok then (true, s.updCore c (fun k => { k with l1 := k.l1.erase line })) else (false, s)
/-- Invalidation of the lines that a test selects. -/
def invalidateWhere (c : Nat) (f : Nat → Bool) (s : State) : Bool × State :=
  (s.core c).l1.foldl (fun r x => if f x.1 then (let (ok, s) := invalidateLine c x.1 r.2; (r.1 && ok, s)) else r) (true, s)
/-- A list turned to begin at a freely chosen place. -/
def turned (key : Nat) (l : List Nat) : List Nat :=
  let n := (Config.freeWord (key * 8 + 6)).toNat % l.length
  l.drop n ++ l.take n
/-- Lines of an L1: 128 KiB of 64 bytes (R122). -/
def l1Lines : Nat := 2048
/-- Room in a core's L1 for some lines: others leave it, freely chosen among those whose write-back is performed, n of them at most. False
where too few can leave (R1, R122, R132). -/
def roomL1 (c : Nat) (ls : List Nat) : Nat → State → Bool × State
  | n, s =>
    let k := s.core c
    if k.l1.length + (ls.filter (fun l => (k.l1.get? l).isNone)).length ≤ l1Lines then (true, s)
    else match n with
    | 0 => (false, s)
    | n + 1 => match (turned (s.tick * 2 ^ 60 + c * 2 ^ 40 + n) (k.l1.keys.filter (fun l => !ls.contains l))).find? (fun l => (invalidateLine c l s).1) with
      | some l => roomL1 c ls n (invalidateLine c l s).2
      | none => (false, s)
/-- Whole-L1 invalidation; fills in flight are then not allocated (R405). -/
def invalidateL1 (c : Nat) (s : State) : Bool × State :=
  invalidateWhere c (fun _ => true)
    { s with fills := s.fills.map (fun f => if f.core = c then { f with noAlloc := true } else f) }

/-! ## Error logs and interrupts -/

/-- Whether a partition owns the quad of a core, and the cores of a partition (R382). -/
def coreIn (p : Part) (c : Nat) : Bool := bit p.desc.quads (12 * (c / 48) + (c % 48 / 8 / 2 * 4 + c % 8 / 2))
def partCores (p : Part) : List Nat := (List.range 384).filter (coreIn p)
/-- The core of a write to host memory, by its mark: a group's, a write-back's of an L1, or a sequencer's; a message of a vector has none. -/
def hostCore (key : Nat) : Option Nat :=
  if key < 48 * 384 then some (key / 48) else if key < 2 * 48 * 384 then some (key / 48 - 384) else if 10 ^ 7 ≤ key then some ((key - 10 ^ 7) / 8) else none
/-- Writes to host memory of a partition that host memory has not accepted (R383). -/
def hostPending (s : State) (p : Nat) : Bool :=
  ((s.part? p).map (fun q => s.hostWrites.any (fun h => ((hostCore h.2.1).map (coreIn q)).getD false))).getD false
/-- The address of vector v's entry. -/
def vectorAt (s : State) (p v : Nat) : Nat := (((s.part? p).map (·.desc.ivt)).getD 0) + 16 * v
/-- The message of a vector: one posted link write of DATA to ADDR. -/
def sendVector (s : State) (p v : Nat) : State :=
  let a := vectorAt s p v
  let s := s.poke (cellsAt (Memory.le s.mem a 8) (Memory.read s.mem (a + 8) 4))
  let (id, s) := s.newId
  { s with hostWrites := s.hostWrites ++ [(id, 10 ^ 6 + p * 64 + v, Memory.le s.mem a 8)] }.updPart p
    (fun q => { q with inflight := q.inflight ||| 2 ^ v })
/-- Raising a vector (R383). While the partition resets it raises no vector but 3 (R386). -/
def raiseVector (s : State) (p v : Nat) : State :=
  match s.part? p with
  | none => s
  | some q =>
    if q.resetting && v != 3 then s
    else
      let a := vectorAt s p v
      if bit (Memory.le s.mem (a + 12) 4) 0 && !bit q.inflight v && !hostPending s p then sendVector s p v
      else s.putOwn (cellsAt (a + 12) (bytesOf 4 (setBit (Memory.le s.mem (a + 12) 4) 1 true)))
/-- An entry of a partition's error log, or LOST (R384, Table 18-4). -/
def logError (s : State) (p kind cause sub : Nat) (dev : Option Nat) (die : Nat) (addr info : Nat) : State :=
  match s.part? p with
  | none => s
  | some q =>
    if q.widx - q.ridx = q.desc.logent then
      let s := s.updPart p (fun q => { q with lost := min (q.lost + 1) (2 ^ 32 - 1) })
      if q.lost = 0 then raiseVector s p 0 else s
    else
      let e := bytesOf 8 s.clock ++ bytesOf 1 kind ++ bytesOf 1 cause ++ bytesOf 1 sub ++ bytesOf 1 (die * 32) ++
        bytesOf 2 (dev.getD s.devnum.toNat) ++ bytesOf 2 0 ++ bytesOf 8 addr ++ bytesOf 8 info
      let s := s.putOwn (cellsAt (q.desc.logbase + 32 * (q.widx % q.desc.logent)) e)
      let s := s.updPart p (fun q => { q with widx := q.widx + 1 })
      if q.widx = q.ridx then raiseVector s p 0 else s

/-- An answer that the module sends, on a response channel (R95). -/
def answer (s : State) (dev kind tag code : Nat) (data : List Byte) (vc : Nat := 5) : State :=
  { s with answers := s.answers ++ [{ dev, kind, tag, code, data, vc }] }
/-- REMOTE_NACK or another cause to a peer: the answer's code is cause × 256 + subcode. -/
def nack (s : State) (dev tag cause sub : Nat) (vc : Nat := 5) : State := answer s dev 1 tag (256 * cause + sub) [] vc

/-! ## Registers -/

/-- A scalar register field in the mode of a group: names 64 to 71 stand for TS0 to TS7 (R213). -/
def Group.sname (g : Group) (r : Nat) : Nat := if g.trapMode && decide (56 ≤ r) then r + 8 else r
/-- A scalar register by its name. -/
def Group.s (g : Group) (r : Nat) : W64 := if r < 64 then g.sregs.getD r 0 else g.ts.getD (r - 64) 0
def Group.setS (g : Group) (r : Nat) (v : W64) : Group :=
  if r < 64 then { g with sregs := g.sregs.set r v } else { g with ts := g.ts.set (r - 64) v }
/-- A lane register (R210). -/
def Group.v (g : Group) (r lane : Nat) : W32 := g.vregs.getD (r * 32 + lane) 0
/-- Latches of a register that is written or changes its full/empty bit become invalid (R218). -/
def dropLatch (r : Nat) (l : Option Latch) : Option Latch := l.filter (fun x => !(decide (x.reg ≤ r) && decide (r < x.reg + x.n)))
def Group.touch (g : Group) (r : Nat) : Group :=
  { g with latchA := dropLatch r g.latchA, latchB := dropLatch r g.latchB, latchC := dropLatch r g.latchC }
def Group.setV (g : Group) (r lane : Nat) (v : W32) : Group := { g.touch r with vregs := g.vregs.set (r * 32 + lane) v }
/-- The full/empty bits (R215): the mask of lanes in which a register is EMPTY. -/
def Group.emptyMask (g : Group) (r : Nat) : W32 := g.empty.getD r 0
def Group.markEmpty (g : Group) (r : Nat) (m : W32) : Group := { g.touch r with empty := g.empty.set r (g.emptyMask r ||| m) }
def Group.markFull (g : Group) (r : Nat) (m : W32) : Group := { g.touch r with empty := g.empty.set r (g.emptyMask r &&& ~~~m) }
/-- A predicate, numbered as in PRD: 0 is PT (R21). -/
def Group.p (g : Group) (i : Nat) : W32 := if i = 0 then BitVec.allOnes 32 else g.preds.getD i 0
def Group.setP (g : Group) (i : Nat) (m v : W32) : Group := { g with preds := g.preds.set i ((g.p i &&& ~~~m) ||| (v &&& m)) }
/-- A producer's values reach their registers, which become FULL (R215). -/
def Group.produce (g : Group) (x : Producer) : Group :=
  x.regs.foldl (fun g r => (g.setV r.1 x.lane r.2).markFull r.1 (1 <<< x.lane)) g

/-! ## Load data -/

/-- Element k of packed elements (R60). -/
def elemAt (fmt : Nat) (bs : List Byte) (k : Nat) : Nat := ofBytes bs / 2 ^ (Numbers.elemBits fmt * k) % 2 ^ Numbers.elemBits fmt
/-- An element of a memory format as a register value of a type (Table 3-9, load column). -/
def loadElem (mfmt fmt pat : Nat) : Nat :=
  match mfmt with
  | 7 => ofInt 32 (toInt 8 pat)
  | 8 => pat
  | _ =>
    match Numbers.elemFmt mfmt with
    | none => pat
    | some f => Numbers.widen f (if fmt = 5 then Numbers.f32 else Numbers.bf16) pat
/-- The bytes of one lane's access: WID for MFMT 0, else a count of elements (Tables 1-8, 6-3). -/
def accessBytes (mfmt wid : Nat) : Nat := if mfmt = 0 then 2 ^ wid else (2 ^ wid * Numbers.elemBits mfmt + 7) / 8
/-- The register values of a load (R70, R71, R139, R144). A load of one element as bf16x2 leaves the high half of its register zero: the
specification pairs no element with it (log 52). -/
def convLoad (conv : Conv) (bs : List Byte) : List (Nat × W32) :=
  match conv with
  | .scalar _ _ _ => []
  | .lane dst fmt mfmt wid =>
    if mfmt = 0 then
      let n := ofBytes bs
      if wid < 2 ∧ fmt = 1 then [(dst, BitVec.ofNat 32 (ofInt 32 (toInt (8 * 2 ^ wid) n)))]
      else (List.range ((2 ^ wid + 3) / 4)).map (fun i => (dst + i, BitVec.ofNat 32 (n / 2 ^ (32 * i))))
    else
      let el (k : Nat) : Nat := if k < 2 ^ wid then loadElem mfmt fmt (elemAt mfmt bs k) else 0
      if fmt = 7 then (List.range ((2 ^ wid + 1) / 2)).map (fun j => (dst + j, BitVec.ofNat 32 (el (2 * j) + 65536 * el (2 * j + 1))))
      else (List.range (2 ^ wid)).map (fun k => (dst + k, BitVec.ofNat 32 (el k)))
/-- A load whose bytes are all there reaches its group: a producer of its lane, or the scalar register (R140, R144). -/
def landLoad (l : Load) (g : Group) : Group :=
  let bs := l.bytes.map (fun b => b.got.getD 0)
  match l.conv with
  | .scalar dst w sgn =>
    let n := ofBytes bs
    let v := if sgn then BitVec.ofInt 64 (toInt (8 * w) n) else BitVec.ofNat 64 n
    { g.setS dst v with pendS := g.pendS.filter (· != dst) }
  | .lane _ _ _ _ => { g with prod := g.prod ++ [{ lane := l.lane, regs := convLoad l.conv bs }] }
/-- Every load of a core with all its bytes, and none of them bad, reaches its group. -/
def landLoads (s : State) (c : Nat) : State :=
  let ready (l : Load) : Bool := l.bytes.all (fun b => b.got.isSome && b.bad.isNone)
  let k := s.core c
  (k.loads.filter ready).foldl (fun s l => s.updGroup c l.slot (landLoad l))
    (s.setCore c { k with loads := k.loads.filter (fun l => !ready l) })
/-- A line that has arrived at a core: the loads that wait for it take their bytes (R140); `bad` says of which the check failed. -/
def feedByte (line : Nat) (byte : Nat → Byte) (bad : Nat → Option Nat) (b : LoadByte) : LoadByte :=
  if b.line = line ∧ b.got.isNone then { b with got := some (byte b.off), bad := bad b.off } else b
def feedLoads (s : State) (c line : Nat) (byte : Nat → Byte) (bad : Nat → Option Nat := fun _ => none) : State :=
  let feed (l : Load) : Load := { l with bytes := l.bytes.map (feedByte line byte bad) }
  landLoads (s.updCore c (fun k => { k with loads := k.loads.map feed })) c
/-- A line of local or host memory as an L1 line of a core would see it: the home's bytes under the L1's dirty bytes. -/
def lineByte (s : State) (c line o : Nat) : Byte :=
  match (s.core c).l1.get? line with
  | some l => if l.whole || l.dirty.getLsbD o then byteAt l.data o else Memory.get s.mem (line * 64 + o)
  | none => Memory.get s.mem (line * 64 + o)
/-- The error that the check of a byte meets where a core reads it at its home, and not from its own L1 (R110, R111). -/
def lineBad (s : State) (c line o : Nat) : Option Nat :=
  match (s.core c).l1.get? line with
  | some l => if l.whole || l.dirty.getLsbD o then none else errIn s [memUnit (line * 64 + o)]
  | none => errIn s [memUnit (line * 64 + o)]
/-- The units of a line of this module that a core reads at its home. -/
def lineUnits (s : State) (c line : Nat) : List Nat :=
  if (((s.core c).l1.get? line).map (·.whole)).getD false then [] else [memUnit (line * 64), memUnit (line * 64 + 32)]
/-- The lines of local or host memory that a group's loads wait for. -/
def groupLines (s : State) (c sl : Nat) : List Nat :=
  (((s.core c).loads.filter (fun l => l.slot == sl)).flatMap (fun l => (l.bytes.filter (·.got.isNone)).map (·.line))).dedup
/-- A load of a group: its streams, and the fill of its line. -/
def loadParty (c sl line : Nat) (w : SliceParty) : Bool :=
  match w with
  | .stream (.scalar d l) _ | .stream (.split d l _) _ => d == c && l == sl
  | .fill d n => d == c && n == line
  | _ => false
/-- The region at whose home a line of this module is held for the loads of a group (R104, R308). -/
def lineHeld (s : State) (c sl line : Nat) : Option Nat := if line < 2 ^ 58 then homeWaits (loadParty c sl line) s (line * 64) false else none
/-- Loads of a group that wait for lines of this module return at once, but for lines that their home holds. -/
def finishLocal (s : State) (c sl : Nat) : State :=
  if (s.core c).loads.any (fun l => l.slot == sl) then
    landLoads ((groupLines s c sl).foldl (fun s line =>
      if line < 2 ^ 58 ∧ (lineHeld s c sl line).isNone then feedLoads (countErrs s (lineUnits s c line)) c line (lineByte s c line) (lineBad s c line) else s) s) c
  else s
/-- The lines that selected loads of a core wait for. -/
def waitedLines (s : State) (c : Nat) (mine : Load → Bool) : List Nat :=
  (((s.core c).loads.filter mine).flatMap (fun l => (l.bytes.filter (·.got.isNone)).map (·.line))).dedup
/-- The loads of a core that a test selects are performed on some lines of this module: they take the bytes as they stand, and reach
their registers when the fill returns (R286 to R288). -/
def bindLoads (s : State) (c : Nat) (mine : Load → Bool) (lines : List Nat) : State :=
  let byte (b : LoadByte) : LoadByte :=
    if lines.contains b.line ∧ b.line < 2 ^ 58 ∧ b.got.isNone then { b with got := some (lineByte s c b.line b.off), bad := lineBad s c b.line b.off } else b
  let here := ((waitedLines s c mine).filter (fun n => decide (n < 2 ^ 58) && lines.contains n)).flatMap (lineUnits s c)
  (if here.isEmpty then s else countErrs s here).updCore c (fun k => { k with loads := k.loads.map (fun l => if mine l then { l with bytes := l.bytes.map byte } else l) })
/-- The loads in flight of a group's scalar stream, or of its lanes, that what its other stream does next is ordered after (R287). -/
def orderLoads (s : State) (c sl : Nat) (scalar : Bool) : State :=
  let mark (l : Load) : Load := if l.slot = sl ∧ (l.split % 8 == 4) = scalar then { l with ordered := true } else l
  s.updCore c (fun k => { k with loads := k.loads.map mark })
/-- The region whose home holds one of some lines that selected loads wait for. -/
def heldAtHome (s : State) (c sl : Nat) (mine : Load → Bool) (lines : List Nat) : Option Nat :=
  ((waitedLines s c mine).filter lines.contains).findSome? (lineHeld s c sl)

/-! ## Ends -/

/-- The keys of the groups of a neighbourhood. -/
def nbGroups (s : State) (nb : Nat) : List Nat := (s.groups.keep (fun _ g => (s.blockOf g).nb == nb)).keys
def nbBlocks (s : State) (nb : Nat) : List Nat := (s.blocks.keep (fun _ b => b.nb == nb)).keys
/-- Whether a stream belongs to a neighbourhood. -/
def ofNb (gs bs : List Nat) : StreamId → Bool
  | .scalar c sl => gs.contains (c * 48 + sl)
  | .split c sl _ => gs.contains (c * 48 + sl)
  | .seq c b => bs.contains (c * 8 + b)
/-- Whether a request is one that a stream of a neighbourhood waits on: a strong access, an atomic or a tile read; 52 to 59 mark the
fetches of sequencers and 64 to 71 their operands. -/
def waitedBy (gs bs : List Nat) (r : Request) : Bool :=
  (r.strong || r.kind == 1 || r.kind == 5 || r.kind == 8) &&
  (if r.slot < 48 then gs.contains (r.core * 48 + r.slot)
   else if 64 ≤ r.slot then bs.contains (r.core * 8 + (r.slot - 64)) else decide (52 ≤ r.slot) && bs.contains (r.core * 8 + (r.slot - 52)))
/-- Reads of a tile file that retires by those outside its neighbourhood (R202): a peer is answered TILE_STALE; a sequencer of another block
of the module finds at its position the answer that it waits for, TILE_STALE or the value where it was served before, whoever has the
handle then. -/
def staleReads (mine : StreamId → Bool) (handle : Nat) (ops : List TileOp) (s : State) : State :=
  ops.foldl (fun s o =>
    match o.peer, o.strm with
    | some d, _ => nack s d.1 d.2 0x31 0 2
    | none, .seq c b =>
      if mine o.strm then s
      else
        let (id, s) := s.newId
        let r : Request := { id, kind := 8, dev := s.devnum.toNat, core := c, slot := 64 + b, addr := o.word % 65536, key := handle, since := s.clock,
                             split := if o.tag < 8 then 8 else o.tag - 8, strong := true, routed := true, left := true, st := if o.st = 2 then 1 else 2,
                             data := if o.st = 2 then bytesOf 4 o.shape ++ o.value else [],
                             fail := { cause := 0x31, info := BitVec.ofNat 64 (65536 * (o.word % 65536)) } }
        { s with requests := s.requests ++ [r] }
    | none, _ => s) s
/-- The count of running and pre-empted blocks of a stage-table entry (R341). -/
def countRunning (s : State) (part sid : Nat) (f : Nat → Nat) : State :=
  s.updPart part (fun p => { p with stages := p.stages.modify (fun t => { t with running := f t.running }) sid })
/-- A neighbourhood leaves the machine: its groups, blocks, copies, loads and records go, and its tile file retires (R202, R379);
a STAGE command that it ran for counts it (R362). -/
def removeNb (s : State) (nb : Nat) : State :=
  match s.nbhd? nb with
  | none => s
  | some n =>
    let gs := nbGroups s nb
    let bs := nbBlocks s nb
    let mine := ofNb gs bs
    let lost := (n.tiles.filter (fun t => decide (1 ≤ t.2.st))).length
    let ended (k : Cmd) : Cmd := if n.cmd = some k.id then { k with left := k.left - 1 } else k
    let strange (x : Nbhd) : Nbhd := { x with ops := x.ops.filter (fun o => !mine o.strm) }
    let waits (w : SlicePlace) : Bool := match w.who with
      | .stream st _ => mine st
      | _ => false
    let gone (r : Region) : Region := { r with waiting := r.waiting.filter (fun w => !waits w) }
    let s := s.updPart n.part (fun p => { p with tiledisc := p.tiledisc + BitVec.ofNat 64 lost })
    let s := staleReads mine n.handle n.ops (if n.agent then s else countRunning s n.part n.stage.sid (fun k => k - bs.length))
    let s := { s with
      cmds := s.cmds.map ended
      groups := s.groups.keep (fun g _ => !gs.contains g)
      blocks := s.blocks.keep (fun b _ => !bs.contains b)
      nbhds := (s.nbhds.erase nb).mapV (fun _ x => strange x)
      faults := s.faults.filter (fun f => f.2.kind == 9 || !mine f.2.stream)
      requests := s.requests.filter (fun r => !waitedBy gs bs r)
      regions := s.regions.mapV (fun _ r => gone r)
      runs := s.runs.filter (fun r => !((r.strm.map mine).getD false)) }
    let f (c : Nat) (k : Core) : Core := { k with
        loads := k.loads.filter (fun l => !gs.contains (c * 48 + l.slot))
        waits := k.waits.filter (fun w => !gs.contains (w.core * 48 + w.slot))
        copies := k.copies.filter (fun x => !gs.contains (c * 48 + x.slot)) }
    { s with cores := s.cores.mapV f }
/-- The firmware agent of a core begins at its SENTRY in slot 47, for a partition (Table 0-1, R388), with no more than its 64 lane registers
(R212); its block is numbered apart. -/
def startAgent (t : Stage) (p : Nat) (s : State) (c : Nat) : State :=
  let (nb, s) := s.newId
  let b := 2 ^ 20 + c
  let n : Nbhd := { die := dieOf c, row := c % 48 / 8, col := c % 8, stage := { t with vregs := min t.vregs 64 }, part := p, ctx := t.ctx, left := 1, agent := true, handle := 2 ^ 16 }
  let x : Block := { nb, k := 0, ticket := 0, groups := [47], base := 0 }
  let g : Group := { block := b, gidx := 0, spc := t.sentry, ssp := t.lslice, live := BitVec.allOnes 32 }
  { ({ s with nbhds := s.nbhds.set nb n }.setBlock b x) with groups := s.groups.set (c * 48 + 47) g }
/-- The agents of the cores of a partition that are not disabled begin. -/
def startAgents (s : State) (p : Nat) : State :=
  match s.mgmt.agent, s.part? p with
  | some t, some q => ((partCores q).filter (fun c => !bit (s.mgmt.cdis.getD (dieOf c) 0) (c % 48))).foldl (startAgent t p) s
  | _, _ => s
/-- The hardware slot that a user queue is mapped into, if any (R363). -/
def hsOf (s : State) (u : Nat) : Option HSlot := s.dies.findSome? (fun d => (d.2.hs.find? (fun h => h.2.uq == u)).map (·.2))
/-- A queue as it stands: RDPTR, WRPTR and the command state of a mapped one are its slot's, the rest its QCB's. -/
def UQ.slotted (q : UQ) (h : Option HSlot) : UQ := match h with
  | none => q
  | some h => { q with rd := h.rd, wr := h.wr, cmd := h.cmd }
def uqNow (s : State) (u : Nat) : Option UQ := (s.uqs.get? u).map (fun q => q.slotted (hsOf s u))
/-- Steps 1 and 2 of R386: no command of the partition starts, its queues are unmapped, and every neighbourhood ends. -/
def haltPartition (s : State) (p : Nat) (q : Part) : State :=
  let mineUq (u : Nat) : Bool := decide (q.desc.uqlo ≤ u) && decide (u ≤ q.desc.uqhi)
  let emptied (x : UQ) : UQ := { x with rd := x.wr }
  let s := { s with
    uqs := s.uqs.mapV (fun u x => if mineUq u then emptied (x.slotted (hsOf s u)) else x)
    dies := s.dies.mapV (fun _ d => { d with
      hs := d.hs.keep (fun _ h => !mineUq h.uq), pend := d.pend.filter (fun u => !mineUq u), grants := d.grants.filter (fun u => !mineUq u) }) }
  (s.nbhds.keep (fun _ n => n.part == p && !n.agent)).keys.foldl removeNb s
/-- The beginning of a partition reset: steps 1 to 3 of R386. Until it ends, doorbells are discarded and the fabric's accesses refused. -/
def resetPartition (s : State) (p : Nat) : State :=
  match s.part? p with
  | none => s
  | some q =>
    let s := s.updPart p (fun q => { q with resetting := true })
    let s := haltPartition s p q
    let cores := partCores q
    let asks (r : Request) : Bool := if r.kind = 6 then r.key == p else if r.kind = 7 then false
      else if r.slot = 48 then r.writers.all (fun w => cores.contains (w / 48)) else cores.contains r.core
    let revoke (k : Key) : Key := { k with revoked := true }
    let s := s.updPart p (fun q => { q with keys := q.keys.mapV (fun _ k => revoke k) })
    let s := { s with
      dies := s.dies.mapV (fun _ d => { d with direct := d.direct.filter (fun x => x.part != p) })
      cmds := s.cmds.filter (fun c => c.part != p), graphs := s.graphs.keep (fun _ g => g.part != p)
      requests := s.requests.filter (fun r => !asks r), outbound := s.outbound.keep (fun _ o => o.part != p)
      runs := s.runs.filter (fun r => r.part != p), fills := s.fills.filter (fun f => !cores.contains f.core)
      saves := s.saves.keep (fun _ v => v.nb.part != p), saveOps := s.saveOps.filter (fun o => !cores.contains o.core) }
    (s.nbhds.keep (fun _ n => n.part == p)).keys.foldl removeNb s
/-- The end of the reset of a partition, whose agents then begin anew: steps 4 to 6 of R386. -/
def finishReset (s : State) (p : Nat) : State :=
  match s.part? p with
  | none => s
  | some q =>
    let cores := partCores q
    let ctxOf (x : Nat) : Bool := (s.ctx x).part == p
    let gone := (s.regions.keep (fun _ r => ctxOf r.ctx)).keys
    let s := { s with faults := s.faults.filter (fun f => f.2.kind != 9 || !ctxOf f.2.info.addr.toNat) }
    let inRange (a : Nat) : Bool := q.desc.ranges.any (fun r => decide (r.1 ≤ a) && decide (a < r.1 + r.2))
    let dies := (cores.map (fun c => c / 48)).dedup
    let chipGone (a : Nat) : Bool := q.stages.any (fun t => dies.any (fun d =>
      decide (d * Config.chipBytes + t.2.chipBase ≤ a) && decide (a < d * Config.chipBytes + t.2.chipBase + t.2.chipLen)))
    let counter (a : Nat) : Bool := decide (q.ctrbase.toNat ≤ a) && decide (a < q.ctrbase.toNat + 8 * q.ctrcount.toNat)
    let others (l : RemoteLine) : Bool := l.dirty != 0 && l.writers.any (fun w => !cores.contains (w / 48))
    let s := { s with
      regions := s.regions.keep (fun r _ => !gone.contains r)
      pageMap := s.pageMap.keep (fun _ m => !gone.contains m.1)
      tags := s.tags.keep (fun t _ => !inRange (t * 256))
      mem := s.mem.filter (fun c => !inRange c.1 && !counter c.1)
      chip := s.chip.filter (fun c => !chipGone c.1)
      spad := s.spad.filter (fun c => !cores.contains (c.1 / Config.spadBytes))
      cores := s.cores.mapV (fun c k => if cores.contains c then { k with l1 := k.l1.keep (fun l _ => !inRange (l * 64)) } else k)
      dies := s.dies.mapV (fun i d => { d with
        l2 := d.l2.keep (fun n _ => !inRange (n * 256)), rlines := if dies.contains i then d.rlines.keep (fun _ l => others l) else d.rlines
        sigs := d.sigs.keep (fun _ e => !inRange (e.tag * 64))
        summaries := d.summaries.keep (fun x _ => x / 65536 != p), reports := d.reports.keep (fun x _ => x / 2 ^ 31 != p) })
      tchans := s.tchans.keep (fun t _ => t % 65536 / 4096 != p) }
    let s := s.updPart p (fun q => { q with queues := [], bars := [], stages := q.stages.mapV (fun _ t => { t with running := 0 }) })
    startAgents ((raiseVector s p 3).updPart p (fun q => { q with resetting := false, halted := false })) p

/-! ## Taking a trap and returning from it -/

/-- The causes that replay (Table 17-2). -/
def replayable (cause : Nat) : Bool := cause == 0x10 || cause == 0x11 || cause == 0x12 || cause == 0x38
/-- The lane block whose splits issue: the trap lane block in trap mode (R370). -/
def Group.lanes (g : Group) : Option LaneBlock := if g.trapMode then g.tlb else g.lb
def Group.setLanes (g : Group) (l : Option LaneBlock) : Group := if g.trapMode then { g with tlb := l } else { g with lb := l }
/-- Split k of the ordinary lane block. -/
def Group.split (g : Group) (k : Nat) : Split := (g.lb.bind (fun b => b.splits[k]?)).getD {}
def LaneBlock.set (b : LaneBlock) (k : Nat) (x : Split) : LaneBlock := { b with splits := setAt b.splits k x }
/-- Trap entry (R366): source 0 scalar, 1 lane, 2 sequencer; the PC is the stream's, or the one given where the stream has moved on from the
trapping instruction. -/
def enterTrap (s : State) (c sl src k : Nat) (t : TrapInfo) (at' : Option W64 := none) : State :=
  match s.group? c sl with
  | none => s
  | some g =>
    let st := (s.nbhdOf g).stage
    let tvec := (s.ctx (s.nbhdOf g).ctx).tvec
    let b := s.blockOf g
    let pc : W64 := at'.getD (match src with
      | 0 => g.spc
      | 1 => (g.split k).pc.setWidth 64
      | _ => BitVec.ofNat 64 ((b.seq.map (·.pc)).getD 0))
    if tvec = 0 then
      logError (removeNb s b.nb) (s.nbhdOf g).part 4 t.cause (t.info.toNat % 256) none (dieOf c) pc.toNat t.info.toNat
    else
      let g := g.prod.foldl Group.produce { g with prod := [] }
      let rep := replayable t.cause
      let lb := if src = 1 then g.lb.map (fun b => b.set k { (b.splits[k]?).getD {} with park := none }) else g.lb
      let g := { g with
        trapMode := true, tcause := BitVec.ofNat 64 t.cause, tpc := pc, tinfo := t.info, taddr := t.addr
        tmask := t.mask.setWidth 64, tssp := st.trapspill / 32
        tstat := BitVec.ofNat 64 (src + 4 * k + 16 + (if rep then 32 else 0))
        latchA := none, latchB := none, latchC := none, ispc := g.spc, ipark := if src = 0 then none else g.park
        iarrived := if src = 0 then none else g.arrived, arrived := none
        spc := tvec, park := none, lb, tlb := none, ts := [] }
      s.setGroup c sl g
/-- Served lane reads of a group whose data is on its way reach their registers (R209, R366). -/
def landReads (s : State) (c sl : Nat) : State :=
  match s.group? c sl with
  | none => s
  | some g =>
    let nb := (s.blockOf g).nb
    let mine (o : TileOp) : Bool := o.st == 4 && (match o.strm with
      | .split a b _ => a == c && b == sl
      | _ => false)
    (((s.nbhd? nb).map (fun n => n.ops.filter mine)).getD []).foldl
      (fun s o => (s.updNbhd nb (fun n => { n with ops := n.ops.filter (fun x => x.id != o.id) })).updGroup c sl (fun g => o.data.foldl Group.produce g)) s
/-- Whether every load of a group has returned (R366): none is in flight, and no qualified load sent to a peer is unanswered. -/
def loadsBack (s : State) (c sl : Nat) : Bool :=
  (groupLines s c sl).isEmpty && !s.requests.any (fun r => r.kind == 0 && r.strong && r.core == c && r.slot == sl && r.st == 0)
/-- A trap that a group takes: one that finds it in trap mode waits for RFT (R367), and one whose group has loads in flight from peers waits
for them (R366). -/
def trapOrPend (s : State) (c sl src k : Nat) (t : TrapInfo) (at' : Option W64 := none) : State :=
  match s.group? c sl with
  | none => s
  | some g =>
    let wait (s : State) : State := s.updGroup c sl (fun g => { g with pendTrap := g.pendTrap ++ [⟨src, k, t, at'⟩] })
    if g.trapMode then wait s
    else
      let s := finishLocal s c sl
      if loadsBack s c sl then enterTrap (landReads s c sl) c sl src k t at' else wait s
/-- A trap is raised by a stream of a group: the firmware agent's own trap resets the partition (R369), a handler's own is a
double trap (R368), and any other is taken by the group. -/
def raise (s : State) (c sl src k : Nat) (own : Bool) (t : TrapInfo) (at' : Option W64 := none) : State :=
  match s.group? c sl with
  | none => s
  | some g =>
    let part := (s.nbhdOf g).part
    if sl = Config.agentSlot then
      resetPartition (logError s part 4 t.cause (t.info.toNat % 256) none (dieOf c) g.spc.toNat t.info.toNat) part
    else if g.trapMode && own then
      logError (removeNb s (s.blockOf g).nb) part 5 g.tcause.toNat (g.tinfo.toNat % 256) none (dieOf c) g.tpc.toNat t.cause
    else trapOrPend s c sl src k t at'
/-- The pending trap that comes first: scalar, then the lowest split, then the sequencer (R367). -/
def firstPending (l : List Pended) : Option Pended :=
  l.foldl (fun r x => match r with
    | none => some x
    | some y => if x.src * 8 + x.k < y.src * 8 + y.k then some x else some y) none
/-- A group out of trap mode whose trap waits takes it once its loads have returned. -/
def takePending (s : State) (c sl : Nat) : State :=
  match s.group? c sl with
  | none => s
  | some g =>
    match firstPending g.pendTrap with
    | none => s
    | some x =>
      let s := finishLocal s c sl
      if loadsBack s c sl then
        enterTrap ((landReads s c sl).updGroup c sl (fun g => { g with pendTrap := g.pendTrap.erase x })) c sl x.src x.k x.t x.pc
      else s
/-- Return from a trap (R371, Table 17-3); `len` is the length of the word at TPC. -/
def returnTrap (s : State) (c sl : Nat) (skip : Bool) (len : Nat) : State :=
  match s.group? c sl with
  | none => s
  | some g =>
    let src := g.tstat.toNat % 4
    let k := g.tstat.toNat / 4 % 4
    let rep := g.tstat.getLsbD 5
    let h := { g with trapMode := false, ts := [], tssp := 0, tspill := [], tlb := none, latchA := none, latchB := none, latchC := none,
                      spc := g.ispc, park := g.ipark, ipark := none, arrived := g.iarrived, iarrived := none, tstat := g.tstat &&& ~~~0x10 }
    match src with
    | 0 => s.setGroup c sl { h with spc := if skip then g.tpc + BitVec.ofNat 64 len else g.tpc, park := none }
    | 1 =>
      let f (x : Split) : Split := { x with
        pc := g.tpc.setWidth 32 + (if skip then 1 else 0)
        unfinished := if rep && !skip then some (g.tmask.setWidth 32) else none, rel := x.rel && rep && !skip, park := none }
      s.setGroup c sl { h with lb := h.lb.map (fun b => b.set k (f ((b.splits[k]?).getD {}))) }
    | _ =>
      let f (q : Seq) : Seq :=
        if skip then { q with stopped := false, pend := none, prog := 0, buf := [], omap := none, park := none, pc := q.pc + 1, flights := [] }
        else { q with stopped := false, pend := none, park := none }
      let again (x : OStream) : OStream := match x.stop with
        | some (.fatal _) | some (.trap _) => { x with stop := none }
        | _ => x
      (s.setGroup c sl h).updBlock g.block (fun b => { b with seq := b.seq.map f, streams := b.streams.mapV (fun _ x => again x) })

end Sys2Proof.Machine
end

