-- ==== Sys2Proof/Machine/Translate.lean ====
section
/-! DEFINITION. Generic addresses, apertures and translation (R76 to R84): where a byte of an address lives. -/

namespace Sys2Proof.Machine
open Bits

/-! ## Apertures -/

/-- The kind of an access (R83). -/
inductive Access where
  | read
  | write
  | atomic
  | exec
  deriving DecidableEq, Repr, Inhabited

/-- The number of blocks of a neighbourhood. -/
def Nbhd.count (n : Nbhd) : Nat := n.stage.rows * n.stage.cols
/-- The aperture code of an address and the offset in the aperture (Table 4-1); 0 when none. -/
def aperture (st : Stage) (count : Nat) (va : Nat) : Nat × Nat :=
  let o := va % 2 ^ 44
  if va < 2 ^ 52 then (5, va)
  else match va / 2 ^ 44 with
    | 0xFFFF0 => if o < st.scratch then (1, o) else (0, 0)
    | 0xFFFF1 => if o < count * st.scratch then (2, o) else (0, 0)
    | 0xFFFF2 => if o < st.lslice then (3, o) else (0, 0)
    | 0xFFFF3 => if o < st.chipLen then (4, o) else (0, 0)
    | _ => (0, 0)
/-- The block of a neighbourhood with a cluster index: its key and the block (R149). -/
def blockAt (s : State) (nb k : Nat) : Option (Nat × Block) := s.blocks.find? (fun b => b.2.nb == nb && b.2.k == k)
/-- The bytes at the start of a group's slices (R151). -/
def sliceBase (st : Stage) (gidx : Nat) : Nat := st.scratch - 32 * st.groups * st.lslice + 32 * gidx * st.lslice
/-- off(g, i, o) of R151. -/
def sliceOff (st : Stage) (gidx lane o : Nat) : Nat := sliceBase st gidx + 128 * (o / 4) + 4 * lane + o % 4

/-- Where a byte lives: a scratchpad byte of a core (address core × 786,432 + o), a chip-scratchpad byte, or a virtual byte of the
global window. -/
inductive Loc where
  | spad (core a : Nat)
  | chip (a : Nat)
  | glob (va : Nat)
  | none
  deriving DecidableEq, Repr, Inhabited

/-- The party that forms an address: its core, block key, block, neighbourhood, group index and lane. -/
structure Party where
  core : Nat
  bkey : Nat
  blk : Block
  nb : Nbhd
  gidx : Nat := 0
  lane : Nat := 0
  priv : Bool := false
  deriving DecidableEq, Repr, Inhabited

/-- The party of a group. -/
def partyOf (s : State) (c sl : Nat) (g : Group) : Party :=
  let b := s.blockOf g
  { core := c, bkey := g.block, blk := b, nb := (s.nbhd? b.nb).getD default, gidx := g.gidx, priv := sl == 47 }
/-- The party of a block's sequencer, fetcher or engines. -/
def partyOfBlock (s : State) (bkey : Nat) : Party :=
  let b := (s.block? bkey).getD default
  { core := bkey / 8, bkey, blk := b, nb := (s.nbhd? b.nb).getD default }
/-- The aperture of an address for a party. -/
def Party.ap (p : Party) (va : Nat) : Nat × Nat := aperture p.nb.stage p.nb.count va
/-- The place of one byte. -/
def locate (s : State) (p : Party) (va : Nat) : Loc :=
  match p.ap va with
  | (5, a) => .glob a
  | (1, o) => .spad p.core (p.core * Config.spadBytes + p.blk.base + o)
  | (2, o) =>
    match blockAt s p.blk.nb (o / p.nb.stage.scratch) with
    | some (k, b) => .spad (k / 8) (k / 8 * Config.spadBytes + b.base + o % p.nb.stage.scratch)
    | none => .none
  | (3, o) => .spad p.core (p.core * Config.spadBytes + p.blk.base + sliceOff p.nb.stage p.gidx p.lane o)
  | (4, o) => .chip (dieOf p.core * Config.chipBytes + p.nb.stage.chipBase + o)
  | _ => .none
/-- The extent of an aperture for a party (Table 4-1). -/
def Party.extent (p : Party) : Nat → Nat
  | 1 => p.nb.stage.scratch
  | 2 => p.nb.count * p.nb.stage.scratch
  | 3 => p.nb.stage.lslice
  | 4 => p.nb.stage.chipLen
  | 5 => 2 ^ 52
  | _ => 0
/-- The first of n bytes that lies in aperture 0, in another aperture than the first byte, or in an aperture outside a mask of
accepted codes (R77, R142). -/
def Party.outside (p : Party) (accept va n : Nat) : Option Nat :=
  let a := p.ap va
  if n = 0 then none
  else if a.1 = 0 ∨ bit accept a.1 = false then some va
  else if a.2 + n ≤ p.extent a.1 then none else some ((va + (p.extent a.1 - a.2)) % 2 ^ 64)

/-! ## Walks -/

/-- A leaf entry with its level and the bytes of its descriptor or stripe-set entry. -/
structure Leaf where
  entry : Nat
  level : Nat
  desc : List Byte
  deriving DecidableEq, Repr, Inhabited
/-- What a walk or a check answers where it fails: cause, subcode and level (Table 4-6). -/
structure XFault where
  cause : Nat
  sub : Nat
  level : Nat := 0
  deriving DecidableEq, Repr, Inhabited
/-- Where a translated byte lives: a peer device or this module, the physical address, and the leaf. -/
structure Place where
  dev : Option Nat
  pa : Nat
  leaf : Leaf
  deriving DecidableEq, Repr, Inhabited

/-- The bits that span a leaf of a level (Table 4-2). -/
def spanBits (level : Nat) : Nat := 12 + 9 * level
/-- The descriptor bytes that a type 3 or type 4 leaf names (R81, R82). -/
def leafDesc (s : State) (x : Ctx) (e : Nat) : List Byte :=
  match e % 8 with
  | 3 => (List.range 4).flatMap (fun i => bytesOf 8 (tableWord s (x.trdbase.toNat + 32 * field e 12 20 + 8 * i)))
  | 4 => (List.range 8).flatMap (fun i => bytesOf 8 (tableWord s (x.sstbase.toNat + 64 * field e 12 12 + 8 * i)))
  | _ => []
/-- The checks of one entry at a level: a fault, or the entry accepted (R79). -/
def entryFault (e level : Nat) : Option XFault :=
  let t := e % 8
  if t = 0 then some ⟨0x10, 1, level⟩
  else if 4 < t ∨ field e 52 12 ≠ 0 ∨ field e 9 3 ≠ 0 then some ⟨0x10, 2, level⟩
  else if t = 1 then (if level = 0 ∨ field e 3 6 ≠ 0 then some ⟨0x10, 2, level⟩ else none)
  else if level = 3 ∨ (t = 3 ∧ field e 32 20 ≠ 0) then some ⟨0x10, 2, level⟩ else none
/-- A walk from a table at a level (R78). -/
def walkFrom (s : State) (x : Ctx) (va : Nat) : Nat → Nat → Except XFault Leaf
  | 0, table =>
    let e := tableWord s (table + 8 * (va / 4096 % 512))
    match entryFault e 0 with
    | some f => .error f
    | none => .ok ⟨e, 0, leafDesc s x e⟩
  | level + 1, table =>
    let i := if level + 1 = 3 then va / 2 ^ 39 % 8192 else va / 2 ^ (spanBits (level + 1)) % 512
    let e := tableWord s (table + 8 * i)
    match entryFault e (level + 1) with
    | some f => .error f
    | none => if e % 8 = 1 then walkFrom s x va level (field e 12 40 * 4096) else .ok ⟨e, level + 1, leafDesc s x e⟩
/-- A fresh walk of a context's tables. -/
def walk (s : State) (ctx va : Nat) : Except XFault Leaf := walkFrom s (s.ctx ctx) va 3 (s.ctx ctx).ptroot.toNat

/-- The domain of a context's partition (R103). -/
def inDomain (s : State) (ctx dev : Nat) : Bool := ((s.part? (s.ctx ctx).part).map (fun p => p.domain.contains dev)).getD false
/-- The member device that a stripe-set leaf gives an address; none where the set is not well formed (R82). -/
def stripeMember (l : Leaf) (va : Nat) : Option Nat :=
  let count := leAt l.desc 0 1
  let member (i : Nat) : Nat := leAt l.desc (16 + 2 * i) 2
  let rot := field l.entry 24 4
  if count = 0 ∨ 16 < count ∨ count ≤ rot ∨ leAt l.desc 1 7 ≠ 0 ∨ leAt l.desc 48 16 ≠ 0 ∨
      (List.range 16).any (fun i => decide (16384 ≤ member i)) = true then none
  else some (member ((rot + va % 2 ^ spanBits l.level / 4096) % count))
/-- The physical place a leaf gives an address (R80 to R82). -/
def resolve (s : State) (ctx : Nat) (l : Leaf) (va : Nat) : Except XFault Place :=
  let span := 2 ^ spanBits l.level
  let o := va % span
  match l.entry % 8 with
  | 2 =>
    let a := field l.entry 12 40 * 4096
    if a % span ≠ 0 ∨ backed s a span = false then .error ⟨0x10, 3, 0⟩ else .ok ⟨none, a + o, l⟩
  | 3 =>
    let pbase := leAt l.desc 0 8
    let st1 := leAt l.desc 8 8
    let st2 := leAt l.desc 16 8
    let rw := leAt l.desc 24 4
    let n1 := if leAt l.desc 28 2 = 0 then 65536 else leAt l.desc 28 2
    let n2 := if leAt l.desc 30 2 = 0 then 65536 else leAt l.desc 30 2
    if pbase % 64 ≠ 0 ∨ 2 ^ 52 ≤ pbase ∨ st1 % 64 ≠ 0 ∨ 2 ^ 52 ≤ st1 ∨ st2 % 64 ≠ 0 ∨ 2 ^ 52 ≤ st2 ∨ rw % 64 ≠ 0 ∨ rw = 0 ∨
        2 ^ 24 ≤ rw ∨ span < rw * n1 * n2 then .error ⟨0x10, 4, 0⟩
    else
      let q := o / rw
      if n2 ≤ q / n1 then .error ⟨0x10, 4, 0⟩
      else
        let pa := pbase + o % rw + q % n1 * st1 + q / n1 * st2
        if backed s pa 1 then .ok ⟨none, pa, l⟩ else .error ⟨0x10, 3, 0⟩
  | _ =>
    match stripeMember l va with
    | none => .error ⟨0x12, 1, 0⟩
    | some dev =>
      let rpa := leAt l.desc 8 8 + (field l.entry 28 24 + o / 4096 / leAt l.desc 0 1) * 4096 + va % 4096
      if inDomain s ctx dev = false then .error ⟨0x12, 2, 0⟩
      else if dev ≠ s.devnum.toNat then .ok ⟨some dev, rpa, l⟩
      else if backed s rpa 1 then .ok ⟨none, rpa, l⟩ else .error ⟨0x10, 3, 0⟩
/-- MIG and the rights of a leaf (R83). -/
def permit (e : Nat) (k : Access) (priv : Bool) : Option XFault :=
  let r := bit e 3
  let w := bit e 4
  let a := bit e 5
  let (ok, sub) := match k with
    | .read => (r, 1)
    | .write => (w, 2)
    | .atomic => (r && w && a, 3)
    | .exec => (bit e 6, 4)
  if bit e 8 then some ⟨0x10, 5, 0⟩
  else if !ok then some ⟨0x11, sub, 0⟩
  else if !priv && !bit e 7 then some ⟨0x11, 5, 0⟩ else none
/-- The place of an access; a counter is none (R356, log 57). -/
def reach (s : State) (ctx : Nat) (l : Leaf) (va : Nat) : Except XFault Place :=
  match resolve s ctx l va with
  | .error f => .error f
  | .ok p => if p.dev = none ∧ meetsCounter s p.pa 1 = true then .error ⟨0x10, 3, 0⟩ else .ok p
/-- A leaf checked for an access: its place, or the first failure of Table 4-6. -/
def useLeaf (s : State) (ctx : Nat) (l : Leaf) (k : Access) (priv : Bool) (va : Nat) : Except XFault Place :=
  match reach s ctx l va with
  | .error f => .error f
  | .ok p => match permit l.entry k priv with
    | some f => .error f
    | none => .ok p

/-! ## Cached translations -/

/-- The cached leaves that map an address for a core (R84). -/
def cachedLeaves (s : State) (c ctx va : Nat) : List Leaf :=
  (((s.core c).tlb ++ (s.die (dieOf c)).tlb).filter
    (fun l => l.ctx == ctx && decide (l.base = va / 2 ^ spanBits l.level * 2 ^ spanBits l.level))).map
    (fun l => ⟨l.entry.toNat, l.level, l.desc⟩)
/-- The cached leaf an access uses, or none for a fresh walk: left open until TLBI completes (R84). -/
def pickLeaf (key : Nat) : List Leaf → Option Leaf
  | [] => none
  | l :: ls => if Config.choice (key * 8 + 5) then some l else pickLeaf (key + 1) ls
/-- The argument of the choice for a page in a step: every byte of an access to one page uses one translation, the old or the new
(R84). -/
def pageKey (s : State) (va : Nat) : Nat := s.tick * 2 ^ 60 + va / 4096 * 2 ^ 16
/-- Translation of one byte for a party (R83, R84). -/
def translate (s : State) (p : Party) (k : Access) (va : Nat) : Except XFault Place :=
  match pickLeaf (pageKey s va) (cachedLeaves s p.core p.nb.ctx va) with
  | some l => useLeaf s p.nb.ctx l k p.priv va
  | none => match walk s p.nb.ctx va with
    | .error f => .error f
    | .ok l => useLeaf s p.nb.ctx l k p.priv va
/-- A successful leaf kept by the translation caches (R84). -/
def cacheLeaf (s : State) (p : Party) (va : Nat) (l : Leaf) : State :=
  let e : CachedLeaf := { ctx := p.nb.ctx, base := va / 2 ^ spanBits l.level * 2 ^ spanBits l.level, level := l.level, entry := BitVec.ofNat 64 l.entry, desc := l.desc }
  let add (t : List CachedLeaf) : List CachedLeaf := if t.contains e then t else e :: t
  (s.updCore p.core (fun c => { c with tlb := add c.tlb })).updDie (dieOf p.core) (fun d => { d with tlb := add d.tlb })
/-- Translation of n bytes of one access: the places of its bytes, or the first failure with its address (R88). -/
def translateRun (s : State) (p : Party) (k : Access) : Nat → Nat → Except (XFault × Nat) (List (Nat × Place))
  | _, 0 => .ok []
  | va, n + 1 =>
    match translate s p k va with
    | .error f => .error (f, va)
    | .ok x => match translateRun s p k (va + 1) n with
      | .error e => .error e
      | .ok l => .ok ((va, x) :: l)
/-- The state after the leaves of translated bytes are cached. -/
def cacheAll (s : State) (p : Party) (l : List (Nat × Place)) : State :=
  l.foldl (fun s x => if x.1 % 4096 = 0 ∨ l.head? = some x then cacheLeaf s p x.1 x.2.leaf else s) s
/-- TINFO of a translation fault: the subcode, and for TRANSLATION 0x01 the level in bits 9:8 (Table 4-6). -/
def XFault.trap (f : XFault) (va : Nat) (mask : W32) : TrapInfo :=
  { cause := f.cause, info := BitVec.ofNat 64 (f.sub + (if f.cause = 0x10 ∧ f.sub = 1 then 256 * f.level else 0)),
    addr := BitVec.ofNat 64 va, mask }

end Sys2Proof.Machine
end

