-- ==== Sys2Proof/Machine/Operands.lean ====
section
/-! DEFINITION. How a word of each stream issues: its party, its checks, its operand forms, and how it ends (R21, R27, R33,
R216, R218, R227, R318, R325); joins and merges of splits (R327, R328). -/

namespace Sys2Proof.Machine
open Bits Numbers

abbrev Out := Host.Outcome State Fault Refusal

/-- What a word of a stream comes to: it is complete; complete with another PC; it parks, to execute again; it traps; or it stays
where it is. -/
inductive Res where
  | next (s : State)
  | jump (s : State) (pc : W64)
  | park (s : State) (reason : Nat) (c : WaitCond)
  | trap (s : State) (t : TrapInfo)
  | stay (s : State)
  deriving Repr, Inhabited

/-- ILLEGAL_ENCODING with a subcode. -/
def illegal (sub : Nat) : TrapInfo := { cause := 1, info := BitVec.ofNat 64 sub }
/-- The role of a group of a stage: 0 GENERAL, 1 COPY, 2 VECT (Table 2-6); every group of a stage that declares no roles is GENERAL (R5). -/
def Stage.role (t : Stage) (gidx : Nat) : Nat := if t.rolesOn then field t.roles (2 * gidx) 2 else 0
/-- The backing area of a tile file of a stage: 0 without a tile-file record (R193). -/
def Stage.area (t : Stage) : Nat := if t.tileFile then t.backing else 0
def roleOf (s : State) (g : Group) : Nat := (s.nbhdOf g).stage.role g.gidx

/-! ## The scalar stream -/

/-- A scalar word that is complete: the PC moves past it, and what a parked word kept is dropped. -/
def doneS (s : State) (c sl : Nat) (pc : W64 → W64) : State :=
  s.updGroup c sl (fun g => { g with spc := pc g.spc, park := none, arrived := none })
def LaneBlock.at (b : LaneBlock) (k : Nat) : Split := (b.splits[k]?).getD {}
/-- Where a stream stands: its park. A split of a trap lane block is named 8 above its index. -/
def trapBlock (k : Nat) : Bool := decide (8 ≤ k)
def Group.blockFor (g : Group) (k : Nat) : Option LaneBlock := if trapBlock k then g.tlb else g.lb
def Group.splitFor (g : Group) (k : Nat) : Split := ((g.blockFor k).map (fun b => b.at (k % 8))).getD {}
def parkOf (s : State) : StreamId → Option Park
  | .scalar c sl => (s.group? c sl).bind (·.park)
  | .split c sl k => (s.group? c sl).bind (fun g => if (g.splitFor k).valid then (g.splitFor k).park else none)
  | .seq c b => ((s.block? (c * 8 + b)).bind (·.seq)).bind (·.park)
/-- The PC of a stream, where it stands at a word. -/
def pcOf (s : State) : StreamId → Option Nat
  | .scalar c sl => (s.group? c sl).map (fun g => g.spc.toNat)
  | .split c sl k => (s.group? c sl).bind (fun g => if (g.splitFor k).valid then some (g.splitFor k).pc.toNat else none)
  | .seq c b => ((s.block? (c * 8 + b)).bind (·.seq)).map (fun q => q.pc)
/-- The place of a stream that waits apart: for its own operation (R313), and for room in a pool (R306). -/
def ownPlace : Nat := 511
def roomPlace : Nat := 510
/-- A stream that parks for a region joins those that wait there, in arrival order (R308, R312); some wait apart. -/
def joinRegion (st : StreamId) (trap : Bool) (w : WaitCond) (s : State) : State :=
  match w with
  | .region k => if roomPlace ≤ k / 256 then s else joinPlace k (.stream st trap) ((pcOf s st).getD 0) s
  | _ => s
/-- A party leaves its place among those that wait for a region. -/
def leaveRegion (s : State) (slot : Nat) (x : SliceParty × Nat) : State :=
  s.updRegion slot (fun r => { r with waiting := r.waiting.filter (fun w => !(w.who == x.1 && w.place == x.2)) })
/-- Whether the scalar stream of a group is in trap mode. -/
def inTrap (s : State) (c sl : Nat) : Bool := ((s.group? c sl).map (·.trapMode)).getD false
/-- The end of a scalar word. -/
def endS (c sl len : Nat) : Res → State
  | .next s => doneS s c sl (fun pc => pc + BitVec.ofNat 64 len)
  | .jump s pc => doneS s c sl (fun _ => pc)
  | .park s r w => joinRegion (.scalar c sl) (inTrap s c sl) w (s.updGroup c sl (fun g => { g with park := some ⟨r, w⟩ }))
  | .trap s t => raise s c sl 0 0 true t
  | .stay s => s
/-- A scalar word of `len` bytes: privilege, role, pending registers (R144), then its body. -/
def scalarRun (priv : Bool) (deny : Nat) (len : Nat) (regs : List Nat) (body : Nat → Nat → Group → Res) (s : State) : Out :=
  match s.turn with
  | .scalar c sl =>
    match s.group? c sl with
    | none => .refused .noIssuer
    | some g =>
      .next (endS c sl len (
        if priv && sl != Config.agentSlot then .trap s { cause := 3 }
        else if bit deny (roleOf s g) then .trap s { cause := 2 }
        else
          let pend := (regs.map g.sname).filter (fun r => g.pendS.contains r)
          if pend.isEmpty then body c sl g else .park s 11 (.sregs pend)))
  | _ => .refused .noIssuer
/-- A scalar word that writes one register from its operands and touches nothing else. -/
def scalarPure (len d : Nat) (srcs : List Nat) (f : Group → W64) (s : State) : Out :=
  scalarRun false 0 len (d :: srcs) (fun c sl g => .next (s.updGroup c sl (fun g' => g'.setS (g'.sname d) (f g)))) s
/-- The value of a scalar register field. -/
def Group.field (g : Group) (r : BitVec 6) : Nat := (g.s (g.sname r.toNat)).toNat
/-- A scalar result written to a register field. -/
def putS (s : State) (c sl : Nat) (d : BitVec 6) (v : Nat) : State :=
  s.updGroup c sl (fun g => g.setS (g.sname d.toNat) (BitVec.ofNat 64 v))

/-! ## Splits -/

/-- A stack without the CALL entries on its top. -/
def dropCalls : List StackEntry → List StackEntry
  | [] => []
  | e :: es => if e.call then dropCalls es else e :: es
/-- A split that resumes a serialised path. -/
def Split.resume (x : Split) (e : StackEntry) (rest : List StackEntry) : Split :=
  { x with pc := e.pc, mask := e.mask, fmtr := e.fmtr, ssp := e.ssp, stack := rest, unfinished := none, rel := false }
/-- A split whose mask has become empty (R329). -/
def Split.emptied (x : Split) : Split :=
  match dropCalls x.stack with
  | e :: es => if e.jid = x.jid then x.resume e es else { x with valid := false, stack := e :: es }
  | [] => { x with valid := false, stack := [] }
/-- The join records that were open at WIDE: inside the region they belong to the saved splits (R333). -/
def LaneBlock.outer (b : LaneBlock) : List Nat := (b.wide.map (·.openJoins)).getD []
/-- Whether a split owns an open join record. -/
def ownsOpen (b : LaneBlock) (k : Nat) : Bool := b.joins.any (fun j => j.2.owner == k && !b.outer.contains j.1)
/-- A split arrives at its join (R327). -/
def arrive (b : LaneBlock) (k j : Nat) : LaneBlock :=
  let x := b.at k
  let b := { b with joins := b.joins.modify (fun r => { r with arr := r.arr ||| x.mask }) j }
  match x.stack with
  | e :: es => if !e.call && e.jid == some j then b.set k (x.resume e es) else b.set k { x with valid := false }
  | [] => b.set k { x with valid := false }
/-- The lanes that count as live in a lane block: inside WIDE every lane executes, an exited one included (R333). -/
def LaneBlock.living (b : LaneBlock) (live : W32) : W32 := if b.wide.isSome then BitVec.allOnes 32 else live
/-- A join completes: its owner continues at RPC (R327). -/
def complete (live : W32) (b : LaneBlock) (j : Nat) (r : Join) : LaneBlock :=
  let x := b.at r.owner
  let m := r.arr &&& b.living live
  let b := { b with joins := b.joins.erase j }
  let y : Split := { x with
    valid := true, own := ownsOpen b r.owner, pc := r.rpc, mask := m, fmtr := r.fmtr, ssp := r.ssp
    jid := r.parent, park := none, unfinished := none, rel := false }
  b.set r.owner (if m = 0 then y.emptied else y)
/-- A split that stands at its join. -/
def atJoin (b : LaneBlock) : Option (Nat × Nat) :=
  (List.range 4).findSome? (fun k =>
    let x := b.at k
    match x.valid, x.jid with
    | true, some j => (b.joins.get? j).bind (fun r => if r.rpc = x.pc ∧ x.park.isNone then some (k, j) else none)
    | _, _ => none)
/-- A join record that is complete, innermost first. -/
def ripe (live : W32) (b : LaneBlock) : Option (Nat × Join) :=
  let live := b.living live
  b.joins.findV (fun j r => !b.outer.contains j && (r.mask &&& live &&& ~~~r.arr) == 0 && !b.joins.any (fun x => x.2.parent == some j) &&
    !(List.range 4).any (fun k => (b.at k).valid && (b.at k).jid == some j && (b.at k).mask &&& live != 0))
/-- Two splits that merge (R328). -/
def mergeable (b : LaneBlock) : Option (Nat × Nat) :=
  ((List.range 4).flatMap (fun i => (List.range 4).map (fun j => (i, j)))).find? (fun p =>
    let x := b.at p.1
    let y := b.at p.2
    decide (p.1 < p.2) && x.valid && y.valid && x.pc == y.pc && x.jid == y.jid && x.stack.isEmpty && y.stack.isEmpty &&
    !ownsOpen b p.2 && x.park.isNone && y.park.isNone && x.unfinished.isNone && y.unfinished.isNone)
/-- Arrivals, completions and merges until none is left (R327, R328). -/
def settle (live : W32) : Nat → LaneBlock → LaneBlock
  | 0, b => b
  | n + 1, b =>
    match atJoin b with
    | some (k, j) => settle live n (arrive b k j)
    | none => match ripe live b with
      | some (j, r) => settle live n (complete live b j r)
      | none => match mergeable b with
        | some (i, j) =>
          let x := b.at i
          settle live n ((b.set i { x with mask := x.mask ||| (b.at j).mask, rel := false }).set j {})
        | none => b
/-- The valid splits of a lane block, with their slots. -/
def LaneBlock.valids (b : LaneBlock) : List (Nat × Split) := ((List.range 4).map (fun k => (k, b.at k))).filter (fun x => x.2.valid)
/-- Where a split is parked at LEND, WIDE or ENDW: the kind, and the PC where it matters. -/
def parkedAt (x : Split) : Option (Nat × W32) := match x.park with
  | some ⟨_, .splits kind⟩ => some (kind, if kind = 0 then 0 else x.pc)
  | _ => none
/-- Whether every valid split is parked at a control word, and at which one if it is the same (R330, R331). -/
def meeting (b : LaneBlock) : Option (Option (Nat × W32)) :=
  match b.valids.map (fun x => parkedAt x.2) with
  | [] => none
  | l@(p :: ps) => if l.any (·.isNone) then none else some (if ps.all (fun q => q = p) then p else none)
/-- The conditions of ENDW (R334). -/
def endwOk (b : LaneBlock) : Bool := b.joins.all (fun j => b.outer.contains j.1) && b.valids.all (fun x => x.2.stack.isEmpty)
/-- WIDE begins: the splits are saved and split 0 runs every lane (R333). -/
def enterWide (b : LaneBlock) (pc : W32) : LaneBlock :=
  let lo := ((b.valids.head?).map (·.2)).getD {}
  { b with
    wide := some { saved := (List.range 4).map (fun k => { b.at k with park := none }), openJoins := b.joins.keys }
    splits := [{ valid := true, pc := pc + 1, mask := BitVec.allOnes 32, fmtr := lo.fmtr, ssp := lo.ssp }, {}, {}, {}] }
/-- ENDW: the saved splits are restored (R334). -/
def leaveWide (b : LaneBlock) (pc : W32) : LaneBlock :=
  let back (x : Split) : Split := if x.valid then { x with pc := pc + 1, passed := 0 } else x
  { b with splits := ((b.wide.map (·.saved)).getD []).map back, wide := none }
/-- The end of the lane block (R329, R330); in trap mode SSP is not touched (R223). -/
def Group.endLanes (g : Group) (ssp : Nat) : Group :=
  let h := g.setLanes none
  if g.trapMode then h else { h with ssp, laneHold := [] }
/-- A lane block of a group after a change: arrivals, merges, and the end of the block, WIDE and ENDW when all splits meet. -/
def Group.settled (g : Group) : Group :=
  match g.lanes with
  | none => g
  | some b =>
    let b := settle g.live 64 b
    match b.valids, meeting b with
    | [], _ => g.endLanes b.startSsp
    | x :: _, some (some (0, _)) => g.endLanes x.2.ssp
    | _, some (some (1, pc)) => g.setLanes (some (enterWide b pc))
    | _, some (some (2, pc)) => g.setLanes (some (if endwOk b then settle g.live 64 (leaveWide b pc) else b))
    | _, _ => g.setLanes (some b)
/-- The trap of splits that wait for one another at different control words, or at an ENDW whose conditions fail: the lowest
split takes it (R331, Table 15-2). -/
def Group.clash (g : Group) : Option (Nat × Nat × W32) :=
  match g.lanes with
  | none => none
  | some b => match b.valids, meeting b with
    | x :: _, some none => some (x.1, 4, x.2.mask)
    | x :: _, some (some (2, _)) => some (x.1, 5, x.2.mask)
    | _, _ => none
/-- SPLIT_STACK_OVERFLOW with a subcode (R331). -/
def overflow (sub : Nat) (mask : W32) : TrapInfo := { cause := 0x41, info := BitVec.ofNat 64 sub, mask }

/-! ## The lane stream -/

/-- Whether a split is ready (R325, R396). -/
def readySplit (clock : Nat) (g : Group) (b : LaneBlock) (k : Nat) : Bool :=
  (b.at k).valid && (b.at k).park.isNone && decide (g.laneHold.getD k 0 ≤ clock)
/-- The split that issues next: one passed over 16 times, else the lowest ready one (R325). -/
def pickSplit (clock : Nat) (g : Group) : Option Nat :=
  match g.lanes with
  | none => none
  | some b =>
    match (List.range 4).find? (fun k => readySplit clock g b k && decide (16 ≤ (b.at k).passed)) with
    | some k => some k
    | none => (List.range 4).find? (readySplit clock g b)
/-- The other ready splits count that they were passed over (R325). -/
def passOver (clock : Nat) (g : Group) (b : LaneBlock) (k : Nat) : LaneBlock :=
  (List.range 4).foldl (fun b' j =>
    if j = k then b'.set j { b'.at j with passed := 0 }
    else if readySplit clock g b j then b'.set j { b'.at j with passed := (b'.at j).passed + 1 } else b') b
/-- A change of the split that issues makes the latches invalid (R218). -/
def Group.issuing (g : Group) (k : Nat) : Group :=
  if g.lastSplit = k then g else { g with lastSplit := k, latchA := none, latchB := none, latchC := none }
/-- What a lane word finds when it issues: its core, slot and split, the group with the lane registers as the word's sources read them
(R218), the executing lanes (R21), the keepers (R333), whether its guard is never true, and the lane registers as the banks hold them. -/
structure LaneEnv where
  c : Nat
  sl : Nat
  k : Nat
  g : Group
  sp : Split
  exec : W32
  keep : W32
  never : Bool
  bank : NMap W32
  deriving DecidableEq, Repr, Inhabited

/-- The keepers of a lane block: every lane outside WIDE, inside it the lanes of the saved splits (R333). -/
def keepers (b : LaneBlock) : W32 :=
  match b.wide with
  | none => BitVec.allOnes 32
  | some w => w.saved.foldl (fun m x => if x.valid then m ||| x.mask else m) 0
/-- The guard of a word (R21). -/
def guardMask (g : Group) (prd : BitVec 4) : W32 :=
  let p := g.p (prd.toNat % 8)
  if prd.getLsbD 3 then ~~~p else p
/-- A source of a lane word: position, first register, count, FE, RU. -/
structure Src where
  pos : Nat
  reg : Nat
  n : Nat
  fe : Bool
  ru : Bool
  deriving DecidableEq, Repr, Inhabited

/-- The registers of a run that are EMPTY in some executing lane. -/
def emptyIn (g : Group) (m : W32) (reg n : Nat) : List Nat :=
  ((List.range n).map (· + reg)).filter (fun r => g.emptyMask r &&& m != 0)
/-- The trap or the wait that sources and destinations ask for (R216, R217); a lane that is not a keeper takes no fault (R333). -/
def regCheck (g : Group) (m keep : W32) (srcs : List Src) (dsts : List (Nat × Nat)) : Option (TrapInfo ⊕ List Nat) :=
  if g.trapMode then none
  else
    let one (x : Src) : Option (TrapInfo ⊕ List Nat) :=
      match emptyIn g m x.reg x.n with
      | [] => none
      | r :: rs =>
        match x.fe, emptyIn g (m &&& keep) x.reg x.n with
        | true, q :: _ => some (.inl { cause := 4, mask := g.emptyMask q &&& m &&& keep, info := BitVec.ofNat 64 (q + 256 * x.pos + 2 ^ 32 * (g.emptyMask q &&& m &&& keep).toNat) })
        | _, _ => some (.inr (r :: rs))
    match srcs.findSome? one with
    | some x => some x
    | none => match dsts.flatMap (fun d => emptyIn g m d.1 d.2) with
      | [] => none
      | l => some (.inr l)
/-- The latch of a source position. -/
def Group.latchAt (g : Group) (pos : Nat) : Option Latch :=
  match pos with
  | 0 => g.latchA
  | 1 => g.latchB
  | _ => g.latchC
/-- A group as the sources of a word find it: a register that the valid latch of its position is tagged with reads from the latch and not
from the bank (R218). -/
def Group.reading (g : Group) (srcs : List Src) : Group :=
  srcs.foldl (fun h x => match g.latchAt x.pos with
    | some l => if l.reg = x.reg ∧ l.n = x.n then { h with vregs := l.vals.foldl (fun m w => m.set (32 * x.reg + w.1) w.2) h.vregs } else h
    | none => h) g
/-- A latch with the values that a source has read, of a register or a pair in the 32 lanes; none for a longer run, or with RU 0 (R218). -/
def Group.latchOf (r : Group) (x : Src) : Option Latch :=
  if x.ru && decide (x.n ≤ 2) then some { reg := x.reg, n := x.n, vals := (List.range (32 * x.n)).map (fun k => (k, r.v (x.reg + k / 32) (k % 32))) } else none
def Group.latch (r g : Group) (x : Src) : Group :=
  match x.pos with
  | 0 => { g with latchA := r.latchOf x }
  | 1 => { g with latchB := r.latchOf x }
  | _ => { g with latchC := r.latchOf x }
/-- A split changed inside the lane block that issues. -/
def updSplit (s : State) (c sl k : Nat) (f : Split → Split) : State :=
  s.updGroup c sl (fun g => g.setLanes (g.lanes.map (fun b => b.set k (f (b.at k)))))
/-- The lane block of a group, settled after a step of a split. -/
def settleLanes (s : State) (c sl : Nat) : State :=
  let s := s.updGroup c sl Group.settled
  match s.group? c sl with
  | none => s
  | some g => match g.pendTrap, g.clash with
    | [], some (k, sub, mask) => raise s c sl 1 k g.trapMode (overflow sub mask)
    | _, _ => s
/-- The end of a lane word. -/
def endL (c sl k : Nat) (own : Bool) : Res → State
  | .next s => settleLanes (updSplit s c sl k (fun x => { x with pc := x.pc + 1, park := none, unfinished := none, rel := false })) c sl
  | .jump s pc => settleLanes (updSplit s c sl k (fun x => { x with pc := pc.setWidth 32, park := none, unfinished := none, rel := false })) c sl
  | .park s r w => joinRegion (.split c sl (k + (if own then 8 else 0))) own w (updSplit s c sl k (fun x => { x with park := some ⟨r, w⟩ }))
  | .trap s t => raise s c sl 1 k own t
  | .stay s => settleLanes s c sl
/-- A lane word: role, EMPTY registers, latches, then its body (R216, R218, R227). It acts over the lanes of its split: in a WIDE region
whose lanes have diverged, the contributors of R247 are those of the issuing split alone (DESIGN CHOICE, log 61). -/
def laneRun (deny : Nat) (prd : BitVec 4) (srcs : List Src) (dsts : List (Nat × Nat)) (body : LaneEnv → State → Res) (s : State) : Out :=
  match s.turn with
  | .lane c sl =>
    match s.group? c sl with
    | none => .refused .noIssuer
    | some g =>
      match pickSplit s.clock g, g.lanes with
      | some k, some b =>
        let sp := b.at k
        let m := sp.mask &&& guardMask g prd &&& sp.unfinished.getD (BitVec.allOnes 32)
        let g := (g.setLanes (some (passOver s.clock g b k))).issuing k
        let s := s.setGroup c sl g
        .next (endL c sl k g.trapMode (
          if bit deny (roleOf s g) then .trap s { cause := 2, mask := m }
          else match (if sp.unfinished.isSome then none else regCheck g m (keepers b) srcs dsts) with
            | some (.inl t) => .trap s t
            | some (.inr l) => .park s 2 (.regs l m)
            | none =>
              let r := g.reading srcs
              let h := if m = 0 then g else srcs.foldl (Group.latch r) g
              body { c, sl, k, g := { h with vregs := r.vregs }, sp, exec := m, keep := keepers b, never := prd == 8#4, bank := g.vregs } (s.setGroup c sl h)))
      | _, _ => .refused .noIssuer
  | _ => .refused .noIssuer

/-- The lanes of a mask, ascending. -/
def lanesOf (m : W32) : List Nat := bitsOf 32 m.toNat
/-- A register, or a pair, of a lane (R22). -/
def Group.vn (g : Group) (pair : Bool) (r lane : Nat) : Nat :=
  if pair then (g.v r lane).toNat + 2 ^ 32 * (g.v (r + 1) lane).toNat else (g.v r lane).toNat
/-- A value as the words of a register or a pair. -/
def regWords (pair : Bool) (r x : Nat) : List (Nat × W32) :=
  if pair then [(r, BitVec.ofNat 32 x), (r + 1, BitVec.ofNat 32 (x / 2 ^ 32))] else [(r, BitVec.ofNat 32 x)]
def Group.putWords (g : Group) (lane : Nat) (l : List (Nat × W32)) : Group := l.foldl (fun g x => g.setV x.1 lane x.2) g
/-- A value per lane written to a register or a pair in the lanes of a mask. -/
def Group.putLanes (g : Group) (pair : Bool) (r : Nat) (m : W32) (f : Nat → Nat) : Group :=
  (lanesOf m).foldl (fun g i => g.putWords i (regWords pair r (f i))) g
/-- Values that a long-latency producer will write: destinations EMPTY now, FULL on arrival (R215). -/
def Group.producing (g : Group) (m : W32) (regs : List Nat) (f : Nat → List (Nat × W32)) : Group :=
  let g := regs.foldl (fun g r => g.markEmpty r m) g
  { g with prod := g.prod ++ (lanesOf m).map (fun i => { lane := i, regs := f i }) }

/-- Sources of a lane head by position. -/
def srcA (h : LaneHead) (n : Nat) : Src := ⟨0, h.sa.toNat, n, h.fea == 1, h.rua == 1⟩
def srcB (h : LaneHead) (n : Nat) : Src := ⟨1, h.sb.toNat, n, h.feb == 1, h.rub == 1⟩
def srcC (w : L3) (n : Nat) : Src := ⟨2, w.sc.toNat, n, w.fec == 1, w.ruc == 1⟩
/-- The registers of one operand of a type: two for a 64-bit type (R22). -/
def regsOf (fmt : BitVec 4) : Nat := if Encoding.pairFmt fmt.toNat then 2 else 1
def isPair (fmt : BitVec 4) : Bool := Encoding.pairFmt fmt.toNat

/-- ABS, then NEG, on an operand of a lane type; integers take neither (R27). -/
def modOp (fmt : Nat) (ab ng : BitVec 1) (x : Nat) : Nat :=
  match fmt with
  | 5 => Alu.modify Numbers.f32 (ab == 1) (ng == 1) x
  | 6 => Alu.modify Numbers.bf16 (ab == 1) (ng == 1) x
  | 7 => Alu.both (Alu.modify Numbers.bf16 (ab == 1) (ng == 1)) x
  | 8 => Alu.modify Numbers.f64 (ab == 1) (ng == 1) x
  | _ => x
/-- Operands A, B and C of a lane, modified. -/
def opA (g : Group) (h : LaneHead) (fmt lane : Nat) : Nat := modOp fmt h.absa h.nega (g.vn (Encoding.pairFmt fmt) h.sa.toNat lane)
def opB (g : Group) (h : LaneHead) (fmt lane : Nat) : Nat := modOp fmt h.absb h.negb (g.vn (Encoding.pairFmt fmt) h.sb.toNat lane)
def opC (g : Group) (w : L3) (fmt lane : Nat) : Nat := modOp fmt w.absc w.negc (g.vn (Encoding.pairFmt fmt) w.sc.toNat lane)
/-- The rounding mode of a word that does not accept rsr (R26, R230): FMTR.RM where RM is 0. -/
def modeNoRsr (rm : BitVec 3) (fmtr : W32) : Numbers.Mode :=
  let m := if rm = 0 then field fmtr.toNat 15 3 else rm.toNat
  Numbers.modeOf (if m = 5 then 1 else m) 0
/-- FMTR.RM or RM as a code. -/
def rmCode (rm : BitVec 3) (fmtr : W32) : Nat := if rm = 0 then field fmtr.toNat 15 3 else rm.toNat
/-- A value adjusted as a write to FMTR adjusts it (R74). -/
def fmtrFix (v : W32) : W32 :=
  let n := v.toNat
  let scm := if field n 18 2 = 3 then 0 else field n 18 2
  let rm := if field n 15 3 = 0 ∨ 5 < field n 15 3 then 1 else field n 15 3
  BitVec.ofNat 32 (field n 20 12 * 2 ^ 20 + scm * 2 ^ 18 + rm * 2 ^ 15 + field n 14 1 * 2 ^ 14)

/-- The generator of a lane, and n draws taken by every lane of a mask (R67, R68). One that nothing has seeded holds 1: the specification
seeds the groups of launches alone, and leaves the lanes of the firmware agent's open (log 52). -/
def Group.rand (g : Group) (lane : Nat) : W32 := g.rng.getD lane 1
def drawsOf (x : W32) : Nat → W32 × List Nat
  | 0 => (x, [])
  | n + 1 => let y := draw x; let z := drawsOf y.1 n; (z.1, y.2 :: z.2)
def Group.drawn (g : Group) (m : W32) (n : Nat) : Group :=
  (lanesOf m).foldl (fun g i => { g with rng := g.rng.set i (drawsOf (g.rand i) n).1 }) g
/-- Mode of an RM code with the bits drawn for one element. -/
def modeDrawn (code : Nat) (rs : List Nat) (k : Nat) : Mode := modeOf code (rs.getD k 0)
/-- A `.s` result: S[DST], once per execution, but not under PRD 0b1000 (R251). -/
def putTos (e : LaneEnv) (d : BitVec 8) (v : W64) (s : State) : State :=
  if e.never then s else s.updGroup e.c e.sl (fun g => g.setS (g.sname d.toNat) v)

/-- A lane word that computes one destination value per executing lane: the keepers' are written. -/
def laneMap (deny : Nat) (h : LaneHead) (pair : Bool) (srcs : List Src) (f : LaneEnv → Nat → Nat) (s : State) : Out :=
  laneRun deny h.prd srcs [(h.dst.toNat, if pair then 2 else 1)] (fun e s =>
    .next (s.updGroup e.c e.sl (fun g => g.putLanes pair h.dst.toNat (e.exec &&& e.keep) (f e)))) s
/-- A lane word that writes one predicate (R235). -/
def lanePred (deny : Nat) (h : LaneHead) (srcs : List Src) (f : LaneEnv → Nat → Bool) (s : State) : Out :=
  laneRun deny h.prd srcs [] (fun e s =>
    .next (s.updGroup e.c e.sl (fun g => g.setP h.pdst.toNat (e.exec &&& e.keep)
      (BitVec.ofNat 32 (maskOf ((lanesOf e.exec).filter (f e)))))) ) s
/-- A lane word whose destination the transcendental unit writes later (Table 10-2). -/
def laneTrans (h : LaneHead) (pair : Bool) (srcs : List Src) (f : LaneEnv → Nat → Nat) (s : State) : Out :=
  laneRun 2 h.prd srcs [(h.dst.toNat, if pair then 2 else 1)] (fun e s =>
    .next (s.updGroup e.c e.sl (fun g => g.producing (e.exec &&& e.keep) ((List.range (if pair then 2 else 1)).map (· + h.dst.toNat))
      (fun i => regWords pair h.dst.toNat (f e i))))) s

/-! ## The matrix sequencer -/

def updSeq (s : State) (b : Nat) (f : Seq → Seq) : State := s.updBlock b (fun x => { x with seq := x.seq.map f })
/-- The group that takes a sequencer's trap: the lowest-numbered of the block that has not ended (R366). -/
def seqTaker (s : State) (b : Nat) : Option Nat :=
  (s.groups.foldl (fun r g => if g.2.block = b then (match r with
    | none => some (g.1, g.2.gidx)
    | some y => if g.2.gidx < y.2 then some (g.1, g.2.gidx) else r) else r) (none : Option (Nat × Nat))).map (·.1)
/-- A sequencer trap (R259, R366). -/
def raiseSeq (s : State) (b : Nat) (t : TrapInfo) : State :=
  let s := updSeq s b (fun q => { q with stopped := true, pend := some t })
  match seqTaker s b with
  | some k => raise s (k / 48) (k % 48) 2 0 false t
  | none => s
/-- The trap of a word that is not in flight: every earlier word completes before it is taken (R259). -/
def stopSeq (s : State) (b : Nat) (t : TrapInfo) : State :=
  match (s.block? b).bind (·.seq) with
  | none => s
  | some q => if q.flights.isEmpty then raiseSeq s b t else updSeq s b (fun q => { q with pend := some t, park := none })
/-- A sequencer parks. -/
def parkM (b : Nat) (s : State) (r : Nat) (w : WaitCond) : State :=
  joinRegion (.seq (b / 8) (b % 8)) false w (updSeq s b (fun q => { q with park := some ⟨r, w⟩ }))
/-- The end of a matrix word; one that parks is dispatched, unless it waits for earlier words (R258). -/
def endM (b : Nat) : Res → State
  | .next s => updSeq s b (fun q => { q with pc := q.pc + 1, park := none, prog := 0, buf := [], omap := none, disp := none })
  | .jump s pc => updSeq s b (fun q => { q with pc := pc.toNat, park := none, prog := 0, buf := [], omap := none, disp := none })
  | .park s r w => parkM b (updSeq s b (fun q => { q with disp := if w = .units then none else some s.word.toNat })) r w
  | .trap s t => raiseSeq s b t
  | .stay s => s
/-- A matrix word at dispatch. -/
def seqRun (body : Nat → Block → Seq → Res) (s : State) : Out :=
  match s.turn with
  | .seq c bs =>
    match s.block? (c * 8 + bs) with
    | none => .refused .noIssuer
    | some x => match x.seq with
      | none => .refused .noIssuer
      | some q => .next (endM (c * 8 + bs) (body (c * 8 + bs) x q))
  | _ => .refused .noIssuer
/-- An event: it always answers a next state, unchanged where the event is not due. -/
def event (f : State → Option State) (s : State) : Out := .next ((f s).getD s)

end Sys2Proof.Machine
end

