-- ==== Sys2Proof/Machine/Access.lean ====
section
/-! DEFINITION. What every access of the lane and scalar streams shares: where its bytes live, the checks before any lane is
performed, full/empty granules, stores, loads and atomics at their homes, and the steps of a release and an acquire (R77, R85 to
R88, R99, R103, R122 to R140, R156 to R160). -/

namespace Sys2Proof.Machine
open Bits

/-! ## Hops -/

/-- Where one byte of an access lives; `gone` is a byte of a block that has left the machine. -/
inductive Spot where
  | spad (core a : Nat)
  | chip (a : Nat)
  | line (pa : Nat)
  | peer (dev rpa : Nat)
  | gone (va : Nat)
  deriving DecidableEq, Repr, Inhabited
/-- One byte of an access: its generic address, its place, and the leaf that translated it. -/
structure Hop where
  va : Nat
  spot : Spot
  leaf : Option Leaf
  deriving DecidableEq, Repr, Inhabited
/-- The place of one byte for an access. -/
def hopOf (s : State) (p : Party) (k : Access) (va : Nat) : Except XFault Hop :=
  match locate s p va with
  | .spad c a => .ok ⟨va, .spad c a, none⟩
  | .chip a => .ok ⟨va, .chip a, none⟩
  | .none => .ok ⟨va, .gone va, none⟩
  | .glob v =>
    match translate s p k v with
    | .error f => .error f
    | .ok x => .ok ⟨va, match x.dev with
      | none => .line x.pa
      | some d => .peer d x.pa, some x.leaf⟩
/-- The places of n bytes, or the first failure with its address: nothing is moved when one byte fails (R88). -/
def route (s : State) (p : Party) (k : Access) : Nat → Nat → Except (XFault × Nat) (List Hop)
  | _, 0 => .ok []
  | va, n + 1 =>
    match hopOf s p k (va % 2 ^ 64) with
    | .error f => .error (f, va % 2 ^ 64)
    | .ok h =>
      match route s p k (va + 1) n with
      | .error e => .error e
      | .ok l => .ok (h :: l)
/-- The leaves of an access kept by the translation caches (R84). -/
def keepLeaf (p : Party) (s : State) (h : Hop) : State := match h.leaf with
  | some l => cacheLeaf s p h.va l
  | none => s
def keepLeaves (s : State) (p : Party) : List Hop → State
  | [] => s
  | h :: l => (l.filter (fun x => x.va % 4096 == 0)).foldl (keepLeaf p) (keepLeaf p s h)
/-- The key of the 64-byte line of a byte that L1s may hold. -/
def Spot.key : Spot → Option Nat
  | .line pa => some (pa / 64)
  | .peer d rpa => some (peerKey d rpa)
  | _ => none
/-- The byte's place in its 64-byte line. -/
def Spot.off : Spot → Nat
  | .line pa => pa % 64
  | .peer _ rpa => rpa % 64
  | _ => 0
/-- The cells of core scratchpads, chip scratchpads and this module's memory among placed bytes. -/
def spadCells (l : List (Hop × Byte)) : List (Nat × Byte) := l.filterMap (fun x => match x.1.spot with
  | .spad _ a => some (a, x.2)
  | _ => none)
def chipCells (l : List (Hop × Byte)) : List (Nat × Byte) := l.filterMap (fun x => match x.1.spot with
  | .chip a => some (a, x.2)
  | _ => none)
def lineCells (l : List (Hop × Byte)) : List (Nat × Byte) := l.filterMap (fun x => match x.1.spot with
  | .line a => some (a, x.2)
  | _ => none)
def peerCells (l : List (Hop × Byte)) : List (Nat × Nat × Byte) := l.filterMap (fun x => match x.1.spot with
  | .peer d a => some (d, a, x.2)
  | _ => none)

/-- The unit of a core memory or of this module's memory whose check covers a byte (R110, R148). -/
def Spot.unit : Spot → Option Nat
  | .spad _ a => some (spadUnit a)
  | .chip a => some (chipUnit a)
  | .line pa => some (memUnit pa)
  | _ => none
/-- The units that a read of some bytes checks. -/
def unitsRead (l : List Hop) : List Nat := (l.filterMap (fun h => h.spot.unit)).dedup
/-- The error that a read of bytes where they live meets, as a trap that names the first failing byte (R111, R148). -/
def readErr (s : State) (l : List Hop) : Option TrapInfo :=
  l.findSome? (fun h => (errIn s h.spot.unit.toList).map (fun sub => integrity sub h.va))

/-! ## Who accesses, and what -/

/-- The issuer of an access: a split, or the scalar stream. -/
structure Issuer where
  c : Nat
  sl : Nat
  k : Nat
  scalar : Bool
  pc : W64
  p : Party
  tm : Bool := false
  deriving DecidableEq, Repr, Inhabited
/-- The stream's mark on what it has in flight: a split's number, 4 for the scalar stream, 8 more in trap mode. -/
def Issuer.tag (i : Issuer) : Nat := (if i.scalar then 4 else i.k) + (if i.tm then 8 else 0)
/-- The stream of an issuer; a split of a trap lane block has a name of its own. -/
def Issuer.stream (i : Issuer) : StreamId := if i.scalar then .scalar i.c i.sl else .split i.c i.sl (i.k + (if i.tm then 8 else 0))
/-- The writer that a trace record names (Table 19-3). -/
def Issuer.who (i : Issuer) (lane : Nat) : Who :=
  { agent := if i.scalar then 1 else 0, core := i.c, slot := i.sl, lane := if i.scalar then 255 else lane, pc := i.pc.toNat, block := some i.p.bkey }
/-- The issuer among those that wait at a home slice. -/
def Issuer.waiter (i : Issuer) : SliceParty := .stream i.stream i.tm
def Issuer.me (i : Issuer) (w : SliceParty) : Bool := w == i.waiter
/-- The access of one lane; of a scalar stream, of lane 0. -/
structure Acc where
  lane : Nat
  va : Nat
  n : Nat
  conv : Conv
  data : List Byte := []
  aop : Nat := 0
  fmt : Nat := 0
  cas : Bool := false
  x : Nat := 0
  y : Nat := 0
  deriving DecidableEq, Repr, Inhabited
def accMask (i : Issuer) (l : List Acc) : W32 := if i.scalar then 0 else BitVec.ofNat 32 (maskOf (l.map (·.lane)))
def Issuer.at (i : Issuer) (a : Acc) : Party := { i.p with lane := a.lane }
/-- MISALIGNED before any lane is performed (R138). -/
def misaligned (i : Issuer) (align : Nat) (l : List Acc) : Option TrapInfo :=
  match l.filter (fun a => a.va % align != 0) with
  | [] => none
  | a :: as => some { cause := 5, addr := BitVec.ofNat 64 a.va, mask := accMask i (a :: as) }
/-- APERTURE before any lane is performed (R77, R142). -/
def outside (i : Issuer) (accept : Nat) (l : List Acc) : Option TrapInfo :=
  let bad := l.filterMap (fun a => ((i.at a).outside accept a.va a.n).map (fun v => (a, v)))
  match bad with
  | [] => none
  | (_, v) :: _ => some { cause := 6, addr := BitVec.ofNat 64 v, mask := accMask i (bad.map (·.1)) }
/-- Aperture codes that lanes, scalar streams and granule operations accept. -/
def apLane : Nat := 0b111110
def apScalar : Nat := 0b110110
def apGranule : Nat := 0b000110
/-- A fault offered to the fault service of the partition (R87). -/
def offer (s : State) (st : StreamId) (kind : Access) (f : XFault) (va : Nat) (mask : W32) : Nat × State :=
  let (id, s) := s.newId
  let code : Nat := match kind with
    | .read => 0
    | .write => 1
    | .atomic => 2
    | .exec => 3
  (id, { s with faults := s.faults ++ [(id, { stream := st, info := f.trap va mask, kind := code })] })
/-- A write to a pool page, or inside a region through a leaf that is not local HBM (R300, R304). -/
def snapFault (s : State) (ctx : Nat) (l : List Hop) : Option Nat :=
  let inRegion (h : Hop) : Bool := s.regions.any (fun r => r.2.ctx == ctx && decide (r.2.base ≤ h.va) && decide (h.va < r.2.base + 256 * r.2.lines))
  l.findSome? (fun h => match h.spot with
    | .line pa =>
      if isHbm pa = false ∧ inRegion h then some 5
      else match regionAt s pa with
        | some (_, true, _) => some 8
        | _ => none
    | .peer _ _ => if inRegion h then some 5 else none
    | _ => none)

/-- The first byte of a write that meets one (R300, R304). -/
def snapAt (s : State) (ctx : Nat) (l : List Hop) : Nat := ((l.find? (fun h => (snapFault s ctx [h]).isSome)).map (·.va)).getD 0

/-! ## The request table -/

/-- The requesters of a core's request table besides its group slots (Table 6-1): CE0, CE1 and the operand fetcher. -/
def ceTable (eng : Nat) : Nat := 80 + eng % 2
def fetcherTable : Nat := 82
/-- The requester whose entry a request to a peer holds. Engines mark theirs with slot 49, or kind 3; the operands of a sequencer have 64 to
71, and the posted stores of its MSTAs 56 to 63. -/
def tableOwner (r : Request) : Nat :=
  if r.slot = 49 ∨ r.kind = 3 then ceTable r.lane else if 56 ≤ r.slot ∧ r.slot < 72 then fetcherTable else r.slot
/-- The entries of the request table that a request holds: one for each 64-byte sector of what it moves (R137). -/
def Request.entries (r : Request) : Nat := match r.kind with
  | 2 => ((r.bytes.map (fun x => x.1 / 64)).dedup).length
  | 3 => (r.addr % 64 + r.bytes.length + 63) / 64
  | 4 => (r.addr % 64 + r.op + 63) / 64
  | _ => 1
/-- Entries of the request table that a requester holds (R137): sectors that its loads and its prefetches wait for, and requests that
no load stands for. The entry of a masked write-back is given up in the step that performs it. -/
def slotUsed (s : State) (c sl : Nat) : Nat :=
  ((waitedLines s c (fun l => l.slot == sl) ++ ((s.fills.filter (fun f => f.core == c && f.slot == sl)).map (·.line))).dedup).length +
  (s.requests.filter (fun r => r.core == c && tableOwner r == sl && r.st == 0 && (r.strong || (r.kind != 0 && r.kind != 1)))).foldl (fun n r => n + r.entries) 0
/-- The entries reserved for a requester (Table 6-1). -/
def tableShare (sl : Nat) : Nat :=
  if sl < 47 then 8 else if sl = Config.agentSlot then 32 else if sl = fetcherTable then 128 else if sl = ceTable 0 ∨ sl = ceTable 1 then 64 else 0
/-- Free entries of the shared pool (Table 6-1). -/
def poolFree (s : State) (c : Nat) : Nat :=
  let slots := (List.range 47).filter (fun k => (s.group? c k).isSome)
  let borrowed := (slots ++ [ceTable 0, ceTable 1, fetcherTable]).foldl (fun n k => n + (slotUsed s c k - tableShare k)) 0
  1024 - 32 - 8 * slots.length - 256 - borrowed
/-- The mark of an engine's copy, or of an operand stream or the words of a sequencer, as one that waits for entries. -/
def Issuer.engMark (i : Issuer) : Nat := i.k * 128 + i.sl
/-- Whether a stream with a slot and a mark waits for entries, or an engine or an operand fetcher with its mark (R137). -/
def waitsEntries (s : State) (c : Nat) (x : Nat × Nat) : Bool :=
  let due (p : Option Park) : Bool := match p with
    | some ⟨_, .requests _⟩ => true
    | _ => false
  if x.1 = ceTable 0 ∨ x.1 = ceTable 1 then
    (s.core c).copies.any (fun y => y.id * 128 + 49 == x.2 && y.started && y.held.isNone && y.fail.isNone)
  else if x.1 = fetcherTable then
    match s.block? (c * 8 + (x.2 % 128 - 64)) with
    | none => false
    | some b =>
      if x.2 / 128 < 8 then (let y := b.streams.getD (x.2 / 128) {}; !y.feed.isEmpty && y.stop.isNone)
      else due (b.seq.bind (·.park))
  else match s.group? c x.1 with
  | none => false
  | some g =>
    if x.2 % 8 = 4 then due g.park
    else due (((if 8 ≤ x.2 then g.tlb else g.lb).bind (fun b => b.splits[x.2 % 8]?)).getD {}).park
/-- Whether an older instruction waits for entries: the oldest by issue age gets the pool first (R137). -/
def olderWaits (s : State) (c sl tag : Nat) : Bool :=
  ((s.core c).tableQ.takeWhile (fun x => x != (sl, tag))).any (waitsEntries s c)
/-- Whether a requester can take more entries at once: of its share, or of the pool where no older instruction waits (Table 6-1). -/
def tableRoom (s : State) (c sl tag need : Nat) : Bool :=
  let used := slotUsed s c sl
  if need = 0 ∨ used + need ≤ tableShare sl then true
  else sl != Config.agentSlot && !olderWaits s c sl tag && decide (used + need - max used (tableShare sl) ≤ poolFree s c)
/-- An instruction joins those that wait for entries, and leaves them when it issues. -/
def joinQueue (s : State) (c sl tag : Nat) : State :=
  s.updCore c (fun k => if k.tableQ.contains (sl, tag) then k else { k with tableQ := k.tableQ.filter (waitsEntries s c) ++ [(sl, tag)] })
def leaveQueue (s : State) (c sl tag : Nat) : State :=
  if (s.core c).tableQ.contains (sl, tag) then s.updCore c (fun k => { k with tableQ := k.tableQ.erase (sl, tag) }) else s
/-- The entries that accesses need: one for each distinct sector (R137). -/
def entriesOf (l : List Hop) : Nat := ((l.filterMap (fun h => h.spot.key)).dedup).length

/-! ## Full/empty granules -/

/-- Whether a granule is FULL (R156); granule g holds bytes 16g to 16g + 15 of the scratchpads. -/
def isFull (s : State) (g : Nat) : Bool := s.full.getD g 0 == 1
def emptyGranule (s : State) (g : Nat) : State := { s with full := s.full.erase g }
/-- The units of the bytes of a waiter. -/
def Waiter.units (w : Waiter) : List Nat := ((List.range w.len).map (fun o => spadUnit (w.addr + o))).dedup
/-- A waiter of a wait list is served: its bytes are read, and its lane is performed (R160); an error of their check traps, and the
registers are FULL and unchanged (R148). -/
def serveWaiter (s : State) (w : Waiter) : State :=
  let us := w.units
  let s := countErrs s us
  let bs := Memory.read s.spad w.addr w.len
  let done (x : Split) : Split := { x with unfinished := x.unfinished.map (fun m => m &&& ~~~((1 : W32) <<< w.lane)) }
  let mark (b : LaneBlock) : LaneBlock := b.set w.split (done (b.at w.split))
  match errIn s us with
  | some sub =>
    let full (g : Group) : Group := ((convLoad w.conv bs).map (·.1)).foldl (fun g r => g.markFull r (1 <<< w.lane)) g
    raise (s.updGroup w.core w.slot full) w.core w.slot 1 w.split w.trapBlock { integrity sub w.va with mask := 1 <<< w.lane }
  | none => s.updGroup w.core w.slot (fun g =>
    let x : Producer := { lane := w.lane, regs := convLoad w.conv bs }
    let g := { g with prod := g.prod ++ [x] }
    if w.trapBlock then { g with tlb := g.tlb.map mark } else { g with lb := g.lb.map mark })
/-- The waiters of a granule that has turned FULL, in arrival order, up to the first that clears it (R160). DESIGN CHOICE: one whose read
fails its check clears nothing (log 61). -/
def serveList (g : Nat) : List Waiter → State → State × List Waiter
  | [], s => (s, [])
  | w :: ws, s =>
    if w.granule ≠ g then let r := serveList g ws s; (r.1, w :: r.2)
    else if w.clear && (errIn s w.units).isNone then (emptyGranule (serveWaiter s w) g, ws)
    else serveList g ws (serveWaiter s w)
/-- A granule turns FULL (Table 7-2). -/
def fillGranule (s : State) (g : Nat) : State :=
  if isFull s g then s
  else
    let c := g * 16 / Config.spadBytes
    let r := serveList g (s.core c).waits { s with full := s.full.set g 1 }
    r.1.updCore c (fun k => { k with waits := r.2 })
/-- Granules that one write covers whole (R157). -/
def covered (l : List (Nat × Byte)) : List Nat :=
  ((l.map (fun x => x.1 / 16)).dedup).filter (fun g => (List.range 16).all (fun o => l.any (fun x => x.1 == 16 * g + o)))
/-- Bytes written at a scratchpad port; a write from another core, or of an engine, is an engine write (R147, R157). -/
def writeSpad (s : State) (ctx : Nat) (engine : Bool) (l : List (Nat × Byte)) : State :=
  let s := { s with spad := Memory.write s.spad l, spadCtx := l.foldl (fun m x => m.set x.1 ctx) s.spadCtx }
  if engine then (covered l).foldl fillGranule s else s
/-- Bytes of the cells that lie in the scratchpad of a core, and in those of other cores. -/
def onCore (c : Nat) (l : List (Nat × Byte)) : List (Nat × Byte) := l.filter (fun x => x.1 / Config.spadBytes == c)
def offCore (c : Nat) (l : List (Nat × Byte)) : List (Nat × Byte) := l.filter (fun x => x.1 / Config.spadBytes != c)

/-! ## Remote lines -/

/-- The key of a 256-byte line of a peer. -/
def rkey (dev rpa : Nat) : Nat := dev * 2 ^ 44 + rpa / 256
/-- A line of a die's remote-line partition. -/
def rline (s : State) (die dev rpa : Nat) : Option RemoteLine := (s.die die).rlines.get? (rkey dev rpa)
/-- Whether a load of a group waits for a 256-byte line of a peer, whichever slot asked for it. -/
def loadsLine (s : State) (c sl dev rpa : Nat) : Bool :=
  (waitedLines s c (fun l => l.slot == sl)).any (fun n => decide (2 ^ 58 ≤ n) && n / 4 == peerKey dev rpa / 4)
/-- The mark of a thread on its requests: a sequencer's stores (56 to 63) and its reads (64 to 71) are of one thread (R287, R294). -/
def threadSlot (sl : Nat) : Nat := if 56 ≤ sl ∧ sl < 64 then sl + 8 else sl
/-- A request that must be answered before a group, or a sequencer, sends another access to the same line (R99, R127): one of its own, one of
another slot that a load of the group has joined, or a store of the die's partition. -/
def remoteBlock (s : State) (c sl dev rpa : Nat) : Option Nat :=
  (s.requests.find? (fun r => r.st == 0 && r.dev == dev && r.addr / 256 == rpa / 256 &&
    ((r.core == c && threadSlot r.slot == threadSlot sl && decide (r.kind < 3)) || (r.core == c && r.kind == 0 && loadsLine s c sl dev rpa) ||
     (r.kind == 2 && r.slot == 48 && dieOf r.core == dieOf c)))).map (·.id)
/-- A store or an atomic of a group to a line of a peer that is not yet placed or answered: what a cache holds of the line may be older
(R288). -/
def ownWrite (s : State) (c sl dev rpa : Nat) : Option Nat :=
  (s.requests.find? (fun r => r.st == 0 && r.core == c && r.slot == sl && (r.kind == 1 || r.kind == 2) && r.dev == dev && r.addr / 256 == rpa / 256)).map (·.id)
/-- The fill that no later load of a core may join: a stale one of the 256-byte line (R288, R290, R295). -/
def staleFill (s : State) (c dev rpa : Nat) : Option Nat :=
  ((s.fills.find? (fun f => f.core == c && f.stale && f.line / 4 == peerKey dev rpa / 4)).map (·.line)).or
  ((s.requests.find? (fun r => r.core == c && r.stale && r.st == 0 && r.kind == 0 && r.dev == dev && r.addr / 256 == rpa / 256)).map
    (fun _ => peerKey dev (rpa / 256 * 256)))
/-- The partition sends a line's dirty bytes to its target as one posted store (R126). -/
def sendLine (s : State) (die key : Nat) : State :=
  match (s.die die).rlines.get? key with
  | none => s
  | some l =>
    if l.dirty = 0 then s
    else
      let (id, s) := s.newId
      let rpa := key % 2 ^ 44 * 256
      let bytes := (bitsOf 256 l.dirty.toNat).map (fun i => (rpa + i, byteAt l.data i))
      let q : Request := { id, kind := 2, dev := key / 2 ^ 44, core := die * 48, slot := 48, addr := rpa, bytes, since := s.clock, contrib := l.contrib, writers := l.writers }
      { s.updDie die (fun d => { d with rlines := d.rlines.set key { l with dirty := 0, contrib := 0, writers := [] } }) with
        requests := s.requests ++ [q] }
/-- A line fetched for a core of a die and not yet there is allocated nowhere and serves no later access, so that no older line is found
after what is done here (R288). -/
def spoilLine (s : State) (die key : Nat) : State :=
  let req (r : Request) : Request := if r.kind = 0 ∧ dieOf r.core = die ∧ rkey r.dev r.addr = key then { r with noAlloc := true, stale := true } else r
  let fill (f : Fill) : Fill :=
    if dieOf f.core = die ∧ 2 ^ 58 ≤ f.line ∧ rkey (f.line / 2 ^ 58 - 1) (f.line % 2 ^ 58 * 64) = key then { f with noAlloc := true, stale := true } else f
  { s with requests := s.requests.map req, fills := s.fills.map fill }
/-- A line leaves the partition, its dirty bytes sent before (R125 to R127). -/
def dropRemote (s : State) (die key : Nat) : State :=
  spoilLine ((sendLine s die key).updDie die (fun d => { d with rlines := d.rlines.erase key })) die key
/-- A line of a peer leaves the die's partition and a core's own L1 (R124, R174). -/
def dropPeerLine (s : State) (c dev rpa : Nat) : State :=
  let keys := (List.range 4).map (fun i => peerKey dev (rpa / 256 * 256 + 64 * i))
  (dropRemote s (dieOf c) (rkey dev rpa)).updCore c (fun k => { k with l1 := keys.foldl NMap.erase k.l1 })
/-- A posted store of bytes of one 256-byte line of a peer (R103), with the signature of a release (R133). -/
def postStore (s : State) (c sl dev : Nat) (l : List (Nat × Byte)) (rel : Option (BitVec 512)) : State :=
  match l with
  | [] => s
  | (a, _) :: _ =>
    let (id, s) := s.newId
    { s with requests := s.requests ++ [{ id, kind := 2, dev, core := c, slot := sl, addr := a, bytes := l, since := s.clock, writers := [c * 48 + sl], rel := rel.isSome, sig := rel.getD 0 }] }
/-- A copy of a peer line in the core's own L1 takes the bytes and stays clean (R126); a fill of the line that was asked for before is
not allocated and serves no later load (R288). -/
def patchL1 (s : State) (c dev : Nat) (l : List (Nat × Byte)) : State :=
  let keys := l.map (fun x => peerKey dev x.1)
  let late (f : Fill) : Fill := if f.core = c ∧ keys.contains f.line then { f with noAlloc := true, stale := true } else f
  let s := { s with fills := s.fills.map late }
  l.foldl (fun s x => s.updCore c (fun k =>
    { k with l1 := k.l1.modify (fun v => { v with data := putByte v.data (x.1 % 64) x.2 }) (peerKey dev x.1) })) s
/-- The bytes enter the die's remote-line partition, dirty (R126). -/
def enterLine (s : State) (c sl dev : Nat) (l : List (Nat × Byte)) : State :=
  match l with
  | [] => s
  | (a, _) :: _ =>
    let key := rkey dev a
    s.updDie (dieOf c) (fun d =>
      let v := (d.rlines.get? key).getD { data := 0, valid := 0, dirty := 0, contrib := 0, since := s.clock }
      let v := if v.dirty = 0 then { v with since := s.clock } else v
      let m : BitVec 256 := BitVec.ofNat 256 (maskOf (l.map (fun x => x.1 % 256)))
      let data := l.foldl (fun w x => putByte w (x.1 % 256) x.2) v.data
      let writers := if v.writers.contains (c * 48 + sl) then v.writers else v.writers ++ [c * 48 + sl]
      { d with rlines := d.rlines.set key { v with data, valid := v.valid ||| m, dirty := v.dirty ||| m, contrib := v.contrib ||| (1 <<< (c % 48)), writers } })
/-- The cells of bytes grouped by 256-byte line. -/
def byLine (l : List (Nat × Byte)) : List (List (Nat × Byte)) :=
  ((l.map (fun x => x.1 / 256)).dedup).map (fun n => l.filter (fun x => x.1 / 256 == n))
def byPeer (l : List (Nat × Nat × Byte)) : List (Nat × List (Nat × Byte)) :=
  ((l.map (fun x => (x.1, x.2.1 / 256))).dedup).map (fun n => (n.1, (l.filter (fun x => x.1 == n.1 && x.2.1 / 256 == n.2)).map (fun x => x.2)))

/-! ## Stores -/

/-- The outcome of one lane's store or atomic. -/
inductive SRes where
  | done (s : State)
  | wait (s : State) (reason : Nat) (c : WaitCond)
  | full (s : State) (slot va : Nat)
  | bad (s : State) (t : TrapInfo)
  deriving Repr, Inhabited

/-- A read of bytes where they live: a corrected error is counted, another traps with nothing done (R110, R111, R148). -/
def checkRead (hops : List Hop) (s : State) (f : State → SRes) : SRes :=
  match readErr s hops with
  | some t => .bad s t
  | none => f (countErrs s (unitsRead hops))

/-- Writes at home slices, all or none (R88, R123). -/
def homeAll (me : SliceParty → Bool) (w : Who) : List (List (Nat × Byte)) → State → WRes
  | [], s => .done s
  | l :: ls, s =>
    match homeWrite me w l s with
    | .done t => match homeAll me w ls t with
      | .done u => .done u
      | .noRoom k _ => .noRoom k s
      | .poolPage _ => .poolPage s
      | .waits k _ => .waits k s
    | r => r
/-- A writer whose write is performed later, with the identity of its block now (R394). -/
def Who.later (s : State) (w : Who) : Who := { w with ident := some (identity s w.core w.slot w.block) }
/-- A weak store into the core's L1 (R122). -/
def l1Store (s : State) (c : Nat) (w : Who) (x : Nat × Byte) : State :=
  s.updCore c (fun k =>
    let v := (k.l1.get? (x.1 / 64)).getD { data := 0, whole := false, dirty := 0 }
    { k with l1 := k.l1.set (x.1 / 64) { v with data := putByte v.data (x.1 % 64) x.2, dirty := v.dirty ||| (1 <<< (x.1 % 64)), who := v.who.set (x.1 % 64 / 8) w } })
/-- The 64-byte lines of cells. -/
def lines64 (l : List (Nat × Byte)) : List Nat := (l.map (fun x => x.1 / 64)).dedup
/-- Lines written back and dropped from the core's own L1, so that its copies do not hide what is then done at the home
(R122, R128, R288). -/
def dropLines (c : Nat) (l : List Nat) (s : State) : Bool × State :=
  l.foldl (fun r n => let t := invalidateLine c n r.2; (r.1 && t.1, t.2)) (true, s)
/-- Lines written to are added to SIG (R129). -/
def addLines (s : State) (c bit : Nat) (l : List Nat) : State := l.foldl (fun s n => addLine s c bit (n * 64)) s
/-- A write of a group to host memory that host memory has still to accept (R133). -/
def toHost (s : State) (key : Nat) (l : List (Nat × Byte)) : State :=
  match l.filter (fun x => !isHbm x.1) with
  | [] => s
  | (a, _) :: _ => { s with hostWrites := s.hostWrites ++ [(s.nextId, key, a)], nextId := s.nextId + 1 }
/-- The generic address of the byte of an access at a physical address. -/
def vaOf (l : List Hop) (pa : Nat) : Nat := ((l.find? (fun h => h.spot == .line pa)).map (·.va)).getD 0
/-- The first of some lines, written one after another, that is not performed: the one that found no room in a pool (R305). -/
def fullLine (me : SliceParty → Bool) (w : Who) : List (List (Nat × Byte)) → State → Nat
  | [], _ => 0
  | l :: ls, s => match homeWrite me w l s with
    | .done t => fullLine me w ls t
    | _ => (l.head?.map (·.1)).getD 0
/-- A store of bytes to this module's memory at its home: own copies dropped, captures, SIG (R122, R123, R129, R303, R412). -/
def storeHome (i : Issuer) (lane : Nat) (hops : List Hop) (l : List (Nat × Byte)) (s : State) : SRes :=
  let r := dropLines i.c (lines64 l) s
  if !r.1 then .wait r.2 11 (.writeBacks i.c)
  else match homeAll i.me (i.who lane) (byLine l) r.2 with
    | .done s => .done (toHost (addLines s i.c i.sl (lines64 l)) (i.c * 48 + i.sl) l)
    | .noRoom k s => .full s k (vaOf hops (fullLine i.me (i.who lane) (byLine l) s))
    | .poolPage s => .done s
    | .waits k s => .wait s 11 (.region k)
/-- Bytes of 256-byte lines of peers, by device and line. -/
abbrev FarBytes := Nat × List (Nat × Byte)
def farAddr (x : FarBytes) : Nat := (x.2.head?.map (·.1)).getD 0
/-- Whether a weak store to a line of a peer is sent at once: the partition has no ways, or no way to give (R126). The lanes of one
access to a line go the same way (R140). -/
def goesOut (s : State) (i : Issuer) (x : FarBytes) : Bool :=
  let d := s.die (dieOf i.c)
  d.rlways == 0 || ((d.rlines.get? (rkey x.1 (farAddr x))).isNone && Config.choice ((s.tick * 2 ^ 60 + rkey x.1 (farAddr x)) * 8))
/-- What must end before lines are stored: where they are sent, the partition's line is sent, placed and dropped first; and no earlier
access of the group to a line is unanswered, whether it is sent or enters the partition, so that the stores of a group keep their order
and the partition sends no line before its writers' earlier accesses are answered (R99, R127). -/
def readyFar (i : Issuer) (out : FarBytes → Bool) (l : List FarBytes) (s : State) : Option Nat × State :=
  let s := (l.filter out).foldl (fun s x => dropRemote s (dieOf i.c) (rkey x.1 (farAddr x))) s
  (l.findSome? (fun x => remoteBlock s i.c i.sl x.1 (farAddr x)), s)
/-- Lines stored: sent at once, or into the partition. -/
def sendFar (i : Issuer) (rel : Option (BitVec 512)) (out : FarBytes → Bool) (s : State) (x : FarBytes) : State :=
  let s := patchL1 s i.c x.1 x.2
  if out x then postStore s i.c i.sl x.1 x.2 rel else enterLine s i.c i.sl x.1 x.2
/-- A weak store of one lane whose bytes are placed. `homed` sends what is this module's to the home slice (CH nl1, or a strong
access); `set` fills its granule (R158), once. DESIGN CHOICE: a store of several lanes from another core is judged lane by lane for the granules
that it covers whole (R157, log 61). -/
def storeAcc (i : Issuer) (homed set : Bool) (a : Acc) (hops : List Hop) (s : State) : SRes :=
  let l := hops.zip a.data
  let mine := lineCells l
  let far := byPeer (peerCells l)
  let out := goesOut s i
  match readyFar i out far s with
  | (some id, s) => .wait s 11 (.remote id)
  | (none, s) =>
    let near : SRes :=
      if mine.isEmpty then .done s
      else if homed then storeHome i a.lane hops mine s
      else
        let r := roomL1 i.c (lines64 mine) (lines64 mine).length s
        if !r.1 then .wait r.2 11 (.l1Room i.c)
        else .done (addLines (mine.foldl (fun s x => l1Store s i.c ((i.who a.lane).later s) x) r.2) i.c i.sl (lines64 mine))
    match near with
    | .done s =>
      let sp := spadCells l
      let s := writeSpad s i.p.nb.ctx false (onCore i.c sp)
      let s := writeSpad s i.p.nb.ctx (!set) (offCore i.c sp)
      let s := if set then ((sp.map (fun x => x.1 / 16)).dedup).foldl fillGranule s else s
      .done (far.foldl (sendFar i none out) { s with chip := Memory.write s.chip (chipCells l) })
    | r => r

/-! ## Loads -/

/-- A byte that needs no fill: from a core memory, from the home for a strong read, or from a cache that holds it (R122, R126). -/
def byteNow (s : State) (c : Nat) (homed : Bool) : Spot → Option Byte
  | .spad _ a => some (Memory.get s.spad a)
  | .chip a => some (Memory.get s.chip a)
  | .gone va => some (Config.freeByte (s.tick * 2 ^ 64 + va))
  | .line pa =>
    if homed then some (Memory.get s.mem pa)
    else match (s.core c).l1.get? (pa / 64) with
      | some l => if l.whole || l.dirty.getLsbD (pa % 64) then some (byteAt l.data (pa % 64)) else none
      | none => none
  | .peer d rpa =>
    if homed then none
    else match (s.core c).l1.get? (peerKey d rpa) with
      | some l => some (byteAt l.data (rpa % 64))
      | none => match rline s (dieOf c) d rpa with
        | some l => if l.valid = BitVec.allOnes 256 then some (byteAt l.data (rpa % 256)) else none
        | none => none
/-- A fill of a 64-byte line, and for a peer line its request (R126, R137). -/
def askFill (s : State) (c sl : Nat) (noAlloc : Bool) (h : Hop) : State :=
  match h.spot.key with
  | none => s
  | some key =>
    let s := if s.fills.any (fun f => f.core == c && f.line == key) then s else { s with fills := s.fills ++ [{ core := c, line := key, noAlloc, slot := sl }] }
    match h.spot with
    | .peer d rpa =>
      if s.requests.any (fun r => r.st == 0 && r.kind == 0 && r.core == c && r.dev == d && r.addr / 256 == rpa / 256 && !r.strong) then s
      else
        let (id, s) := s.newId
        { s with requests := s.requests ++ [{ id, kind := 0, dev := d, core := c, slot := sl, addr := rpa / 256 * 256, since := s.clock }] }
    | _ => s
/-- What must end before a weak load of a peer byte is performed (R99, R127, R288, R295): a store or an atomic of the group to the line; where
no cache holds the byte, also a wait, and the partition's dirty bytes sent. The partition serves only a line that it holds whole. -/
def loadBlock (s : State) (c sl : Nat) (h : Hop) : Option WaitCond × State :=
  match h.spot, byteNow s c false h.spot with
  | .peer d rpa, some _ => ((ownWrite s c sl d rpa).map .remote, s)
  | .peer d rpa, none =>
    let dirty := ((rline s (dieOf c) d rpa).map (fun l => l.dirty != 0)).getD false
    let s := if dirty then sendLine s (dieOf c) (rkey d rpa) else s
    (((staleFill s c d rpa).map (.stale c)).or ((remoteBlock s c sl d rpa).map .remote), s)
  | _, _ => (none, s)
/-- The registers that a load or an atomic of one lane writes. -/
def convRegs : Conv → List Nat
  | .scalar d _ _ => [d]
  | .lane d f m w => (convLoad (.lane d f m w) (List.replicate (accessBytes m w) 0)).map (·.1)
/-- The destinations of an access in flight are EMPTY, or a pending scalar register (R140, R144). -/
def markPending (i : Issuer) (a : Acc) (s : State) : State :=
  s.updGroup i.c i.sl (fun g => match a.conv with
    | .scalar d _ _ => { g with pendS := d :: g.pendS }
    | .lane _ _ _ _ => (convRegs a.conv).foldl (fun g r => g.markEmpty r (1 <<< a.lane)) g)
/-- A load of one lane with the bytes it has and those it waits for. -/
def addLoad (i : Issuer) (a : Acc) (bytes : List LoadByte) (s : State) : State :=
  let l : Load := { slot := i.sl, lane := a.lane, conv := a.conv, addr := BitVec.ofNat 64 a.va, bytes, split := i.tag, pc := i.pc }
  let s := markPending i a s
  landLoads (s.updCore i.c (fun k => { k with loads := k.loads ++ [l] })) i.c
/-- A load whose bytes are all there. -/
def landNow (i : Issuer) (a : Acc) (bs : List Byte) (s : State) : State := addLoad i a (bs.map (fun b => { line := 0, off := 0, got := some b })) s
/-- The bytes of a load that are there at once. An access takes every byte of one 64-byte line at one instant, so where one of them waits
for its line they all do (R286). -/
def loadBytes (s : State) (c : Nat) (homed : Hop → Bool) (hops : List Hop) : List LoadByte :=
  let now (h : Hop) : Option Byte := byteNow s c (homed h) h.spot
  let waits := (hops.filter (fun h => (now h).isNone)).map (fun h => h.spot.key)
  hops.map (fun h => { line := h.spot.key.getD 0, off := h.spot.off, got := if h.spot.key.isSome ∧ waits.contains h.spot.key then none else now h })
/-- A weak load of one lane (R122, R126, R140); `nl1` reads at the home and allocates nothing. -/
def loadAcc (i : Issuer) (nl1 : Bool) (a : Acc) (hops : List Hop) (s : State) : SRes :=
  let r := hops.foldl (fun (r : Option WaitCond × State) h =>
    let t := loadBlock r.2 i.c i.sl h
    (match r.1 with
      | some x => some x
      | none => t.1, t.2)) (none, s)
  match r with
  | (some w, s) => .wait s 11 w
  | (none, s) =>
    let own := ((hops.filterMap (fun h => match h.spot with
      | .line pa => some (pa / 64)
      | _ => none))).dedup
    let t := if nl1 then dropLines i.c own s else (true, s)
    let held := if nl1 then hops.findSome? (fun h => match h.spot with
      | .line pa => homeWaits i.me t.2 pa false
      | _ => none) else none
    match t.1, held with
    | false, _ => .wait t.2 11 (.writeBacks i.c)
    | _, some k => .wait t.2 11 (.region k)
    | true, none =>
      let homed (h : Hop) : Bool := nl1 && (match h.spot with
        | .line _ => true
        | _ => false)
      let here (h : Hop) : Bool := homed h || h.spot.key.isNone
      checkRead (hops.filter here) t.2 (fun s =>
        let bytes := loadBytes s i.c homed hops
        let s := (hops.filter (fun h => (byteNow s i.c (homed h) h.spot).isNone)).foldl (fun s h => askFill s i.c i.sl nl1 h) s
        .done (addLoad i a bytes s))

end Sys2Proof.Machine
end

