-- ==== Sys2Proof/Machine/Order.lean ====
section
/-! DEFINITION. Atomics and qualified loads of one lane, the steps of a release and of an acquire (R128, R133 to R135, R141, R158
to R160), and how the lanes of one access are performed and what is left of it (R85 to R87, R140). -/

namespace Sys2Proof.Machine
open Bits

/-! ## Qualified loads and atomics -/

/-- A load with `.fe` or `.fe.clr` of one lane (R158 to R160): performed where its granule is FULL, else it waits in the port's
list, or is refused where that is full. DESIGN CHOICE: one whose read fails its check clears nothing (log 61). -/
def gfeLoad (i : Issuer) (clear trapBlock : Bool) (a : Acc) (hops : List Hop) (s : State) : SRes :=
  match hops with
  | ⟨_, .spad c x, _⟩ :: _ =>
    let g := x / 16
    if isFull s g then
      checkRead hops s (fun s =>
        let s := landNow i a (Memory.read s.spad x a.n) s
        .done (if clear then emptyGranule s g else s))
    else
      let s := markPending i a s
      let mine (w : Waiter) : Bool := w.core == i.c && w.slot == i.sl && w.split == i.k && w.lane == a.lane && w.trapBlock == trapBlock
      let ws := (s.core c).waits
      let w : Waiter := { core := i.c, slot := i.sl, trapBlock, split := i.k, lane := a.lane, granule := g, clear, addr := x, va := a.va, len := a.n, conv := a.conv }
      if ws.any mine then .wait s 2 (.granule c g)
      else if 256 ≤ ws.length then .wait s 2 (.granule c g (s.clock + 64))
      else .wait (s.updCore c (fun k => { k with waits := k.waits ++ [w] })) 2 (.granule c g)
  | _ => .done (landNow i a (hops.map (fun h => (byteNow s i.c true h.spot).getD 0)) s)
/-- The word that an atomic or a CAS leaves, or none where it writes nothing (R141). -/
def atomNew (a : Acc) (old : Nat) : Option Nat :=
  if a.cas then (if old = a.x then some a.y else none) else some (Alu.atom (8 * a.n) a.fmt a.aop old a.x)
/-- The key under which a load waits for the answer to a request. -/
def answerKey (id : Nat) : Nat := 2 ^ 80 + id
/-- The operation of an atomic as a request carries it: AOP, or 8 for a compare and swap. -/
def aopCode (a : Acc) : Nat := if a.cas then 8 else a.aop
/-- A remote atomic sent to its target (R103, R127): the partition's line is sent, placed and dropped first. -/
def sendAtom (i : Issuer) (strong : Bool) (rel : Option (BitVec 512)) (a : Acc) (dev rpa : Nat) (s : State) : SRes :=
  let key := rkey dev rpa
  let s := dropRemote s (dieOf i.c) key
  match remoteBlock s i.c i.sl dev rpa with
  | some id => .wait s 11 (.remote id)
  | none =>
    let s := s.updCore i.c (fun k => { k with l1 := k.l1.erase (peerKey dev rpa) })
    let (id, s) := s.newId
    let q : Request := { id, kind := 1, dev, core := i.c, slot := i.sl, addr := rpa, since := s.clock, lane := a.lane, split := i.tag, strong, rel := rel.isSome,
                         sig := rel.getD 0, op := aopCode a + 16 * a.n + 256 * a.fmt, x := a.x, y := a.y, fail := { cause := 0, addr := BitVec.ofNat 64 a.va } }
    let s := { s with requests := s.requests ++ [q] }
    if strong then .wait s 11 (.remote id)
    else .done (addLoad i a ((List.range a.n).map (fun o => { line := answerKey id, off := o, got := none })) s)
/-- An atomic of one lane on this module (R128, R141); a compare and swap that does not match is a write of no bytes (R303). -/
def atomAcc (i : Issuer) (a : Acc) (hops : List Hop) (s : State) : SRes :=
  match hops with
  | ⟨_, .spad c x, _⟩ :: _ =>
    checkRead hops s (fun s =>
      let old := Memory.le s.spad x a.n
      let s := match atomNew a old with
        | some v => writeSpad s i.p.nb.ctx (c != i.c) (cellsAt x (bytesOf a.n v))
        | none => s
      .done (landNow i a (bytesOf a.n old) s))
  | ⟨_, .chip x, _⟩ :: _ =>
    checkRead hops s (fun s =>
      let old := Memory.le s.chip x a.n
      let s := match atomNew a old with
        | some v => { s with chip := Memory.write s.chip (cellsAt x (bytesOf a.n v)) }
        | none => s
      .done (landNow i a (bytesOf a.n old) s))
  | ⟨_, .line pa, _⟩ :: _ =>
    let r := dropLines i.c [pa / 64] s
    let s := r.2
    if !r.1 then .wait s 11 (.writeBacks i.c)
    else
      let old := Memory.le s.mem pa a.n
      checkRead hops s (fun s =>
        match homeAt i.me (i.who a.lane) pa (((atomNew a old).map (fun v => cellsAt pa (bytesOf a.n v))).getD []) s with
        | .done s => .done (landNow i a (bytesOf a.n old) (addLine s i.c i.sl pa))
        | .noRoom k s => .full s k (vaOf hops pa)
        | .poolPage s => .done s
        | .waits k s => .wait s 11 (.region k))
  | ⟨_, .peer d rpa, _⟩ :: _ => sendAtom i false none a d rpa s
  | _ => .done (landNow i a (hops.map (fun h => (byteNow s i.c true h.spot).getD 0)) s)

/-! ## Release and acquire -/

/-- Observer bits of a mask (Table 1-6): P and H. -/
def hasP (obs : Nat) : Bool := bit obs 1
def hasH (obs : Nat) : Bool := bit obs 0
def hasPH (obs : Nat) : Bool := hasP obs || hasH obs
/-- The outcome of steps 1 to 3 of R133. -/
inductive Rel where
  | ok (s : State)
  | wait (s : State) (reason : Nat) (c : WaitCond)
  | trap (s : State) (t : TrapInfo)
  deriving Repr, Inhabited
/-- Whether a posted store of a group, or of a line that its core contributed to, is not yet placed. -/
def postedPending (s : State) (c sl : Nat) (dev : Option Nat) : Bool :=
  s.requests.any (fun r => r.kind == 2 && r.st == 0 && (dev.isNone || dev == some r.dev) &&
    (r.writers.contains (c * 48 + sl) || (dieOf r.core == dieOf c && r.contrib.getLsbD (c % 48))))
/-- Whether a posted store of a group is not yet placed (R133). -/
def ownPosted (s : State) (c sl : Nat) : Bool := s.requests.any (fun r => r.kind == 2 && r.st == 0 && r.writers.contains (c * 48 + sl))
/-- The lines of the die's partition to which a core contributed, sent (R126). -/
def sendContrib (s : State) (c : Nat) (dev : Option Nat) : State :=
  let mine := (s.die (dieOf c)).rlines.filter (fun l => l.2.dirty != 0 && l.2.contrib.getLsbD (c % 48) && (dev.isNone || dev == some (l.1 / 2 ^ 44)))
  mine.foldl (fun s l => sendLine s (dieOf c) l.1) s
/-- The oldest failure of a group's posted stores to a device, or to any, reported once (R111). -/
def takePosted (s : State) (c sl : Nat) (dev : Option Nat) : Option (TrapInfo × State) :=
  match s.group? c sl with
  | none => none
  | some g =>
    match g.postedFail.find? (fun f => dev.isNone || dev == some f.1) with
    | none => none
    | some f => some (f.2, s.setGroup c sl { g with postedFail := g.postedFail.erase f })
/-- The loads in flight of a group, performed on this module's lines before what is ordered after them: a release, a FENCE or an arrival
(R287, R292). -/
def bindGroup (s : State) (c sl : Nat) : State :=
  bindLoads s c (fun l => l.slot == sl) (waitedLines s c (fun l => l.slot == sl))
def heldGroup (s : State) (c sl : Nat) : Option Nat := heldAtHome s c sl (fun l => l.slot == sl) (waitedLines s c (fun l => l.slot == sl))
/-- Whether a load or an atomic of a group waits for a line of a peer; a release, a FENCE or an arrival waits for it (R291, R292). -/
def farLoads (s : State) (c sl : Nat) : Bool := (waitedLines s c (fun l => l.slot == sl)).any (fun n => decide (2 ^ 58 ≤ n))
/-- Steps 1 to 3 of R133 for a group with an observer mask; its earlier loads are performed before (R292). -/
def releaseSteps (s : State) (c sl obs : Nat) : Rel :=
  let r := flushL1 c (bindGroup s c sl)
  match heldGroup s c sl with
  | some k => .wait s 11 (.region k)
  | none =>
  if farLoads s c sl then .wait s 11 .farLoads
  else
  if !r.1 then .wait r.2 11 (.writeBacks c)
  else
    let s := r.2
    if hasP obs && ownPosted s c sl then .wait s 11 (.posted none)
    else
    let s := if hasP obs then sendContrib s c none else s
    if hasP obs && postedPending s c sl none then .wait s 11 (.posted none)
    else
      match (if hasP obs then takePosted s c sl none else none) with
      | some (t, s) => .trap s t
      | none =>
        if hasH obs && s.hostWrites.any (fun h => h.2.1 == c * 48 + sl || h.2.1 == c * 48 + 48 * 384) then .wait s 11 .hostWrites else .ok s
/-- Step 4 of R133 after the deposits: the released bit, and SIG cleared where every writer has released (R129). -/
def released (s : State) (c sl : Nat) : State := clearSig (releaseBit s c sl) c
/-- A line dropped; dirty bytes whose write-back waits stay, and nothing else of the line. -/
def stripLine (c : Nat) (s : State) (line : Nat) : State :=
  let r := invalidateLine c line s
  if r.1 then r.2 else r.2.updCore c (fun k => { k with l1 := k.l1.modify (fun l => { l with whole := false }) line })
/-- Whole-L1 invalidation: fills in flight are not allocated (R132, R405). -/
def purgeL1 (c : Nat) (s : State) : State :=
  let mark (f : Fill) : Fill := if f.core = c then { f with noAlloc := true } else f
  let s := { s with fills := s.fills.map mark }
  (s.core c).l1.keys.foldl (stripLine c) s
/-- Every line of the die's remote-line partition written back and dropped; a fill from a peer that was asked for before is allocated
nowhere and serves no later load (R134, R290, R295, R405). -/
def purgePartition (die : Nat) (s : State) : State :=
  let mark (r : Request) : Request := if dieOf r.core = die ∧ r.kind = 0 then { r with noAlloc := true, stale := true } else r
  let old (f : Fill) : Fill := if dieOf f.core = die ∧ 2 ^ 58 ≤ f.line then { f with noAlloc := true, stale := true } else f
  let s := (s.die die).rlines.keys.foldl (fun s k => sendLine s die k) s
  { s.updDie die (fun d => { d with rlines := [] }) with requests := s.requests.map mark, fills := s.fills.map old }
/-- Every bit of SIG, and the group as a writer (R129). -/
def fullSig (s : State) (c sl : Nat) : State := joinSig s c sl (BitVec.allOnes 512)
/-- What an acquire does with what it receives from an entry of a signature table: the whole L1 invalidated, or the lines that a signature
names (R129, R132). -/
def acquireFrom (c sl : Nat) (s : State) (r : Bool × BitVec 512) : State :=
  if r.1 then fullSig (purgeL1 c s) c sl
  else if r.2 = 0 then s
  else
    let hit := (s.core c).l1.keys.filter (fun l => sigOf l &&& r.2 == sigOf l)
    joinSig (hit.foldl (stripLine c) s) c sl r.2
/-- The signature received from one line of this module (R130, R131). -/
def acquireLine (c sl : Nat) (s : State) (line : Nat) : State :=
  acquireFrom c sl (s.updCore c (fun k => { k with gens := k.gens.set (homeDie (line * 64)) (s.die (homeDie (line * 64))).gen })) (received s c (line * 64))
/-- The invalidation of an acquire that read some lines of this module, and lines of peers whose answers brought what their entries hold
(R134). -/
def acquire (s : State) (c sl obs : Nat) (lines : List Nat) (far : List (Bool × BitVec 512)) : State :=
  let s := far.foldl (acquireFrom c sl) (lines.foldl (acquireLine c sl) s)
  if hasPH obs then fullSig (purgePartition (dieOf c) (purgeL1 c s)) c sl else s
/-- What an invalidation still waits for: write-backs, and lines of the partition to be placed. -/
def invalidating (s : State) (c : Nat) (part : Bool) : Bool :=
  !(flushL1 c s).1 || (part && s.requests.any (fun r => r.kind == 2 && r.st == 0 && r.slot == 48 && dieOf r.core == dieOf c))

/-! ## The lanes of one access -/

/-- How far an access has come: lanes not performed, the first wait or trap met, and the lines of lanes that wait. -/
structure Prog where
  s : State
  left : List Acc := []
  wait : Option (Nat × WaitCond) := none
  trap : Option TrapInfo := none
  busy : List Nat := []
  deriving Repr, Inhabited
/-- The lines of an access that a cache may hold. -/
def linesOf (l : List Hop) : List Nat := (l.filterMap (fun h => h.spot.key)).dedup
/-- TINFO of SHADOW_EXHAUSTED (R305). -/
def shadowTrap (s : State) (slot va : Nat) : TrapInfo :=
  { cause := 0x38, info := BitVec.ofNat 64 (va / 256 * 256 + ((s.regions.get? slot).map (·.sg)).getD 0), addr := BitVec.ofNat 64 (va / 256 * 256) }
/-- The wait of an access whose lanes wait: the first one's; a request that was refused is not sent again before its clock (R160). -/
def firstWait (old : Option (Nat × WaitCond)) (reason : Nat) (w : WaitCond) : Option (Nat × WaitCond) :=
  match old, w with
  | some (r, .granule c g due), .granule _ _ d => some (r, .granule c g (max due d))
  | some x, _ => some x
  | none, _ => some (reason, w)
/-- One lane performed; not before a lower lane that has still to reach one of its lines (R140). -/
def stepLane (f : Acc → List Hop → State → SRes) (r : Prog) (x : Acc × List Hop) : Prog :=
  let lines := linesOf x.2
  if lines.any r.busy.contains then { r with left := r.left ++ [x.1], busy := r.busy ++ lines }
  else match f x.1 x.2 r.s with
  | .done s => { r with s }
  | .wait s reason c => { r with s, left := r.left ++ [x.1], wait := firstWait r.wait reason c, busy := r.busy ++ lines }
  | .full s slot va => { r with s, left := r.left ++ [x.1], trap := some (r.trap.getD (shadowTrap s slot va)), busy := r.busy ++ lines }
  | .bad s t => { r with s, left := r.left ++ [x.1], trap := some (r.trap.getD t), busy := r.busy ++ lines }
/-- The end of an access (R85, R87, R305): complete, parked with its unfinished lanes, or trapped. DESIGN CHOICE: where one lane meets a
translation fault and another SHADOW_EXHAUSTED, the trap is taken and the fault stays offered (log 49). -/
def finishAcc (i : Issuer) (r : Prog) (fault : Option Nat) : Res :=
  let m := accMask i r.left
  let s := if i.scalar then r.s else updSplit r.s i.c i.sl i.k (fun x => { x with unfinished := some m })
  match r.trap, fault, r.wait with
  | some t, _, _ => .trap s { t with mask := m }
  | none, some id, _ => .park s 8 (.fault id)
  | none, none, some w => .park s w.1 w.2
  | none, none, none => .next s
/-- The end of an access that is complete but for an invalidation: what runs again performs nothing more. -/
def finishWait (i : Issuer) (s : State) (w : WaitCond) : Res :=
  if i.scalar then .park (s.updGroup i.c i.sl (fun g => { g with arrived := some 1 })) 11 w
  else .park (updSplit s i.c i.sl i.k (fun x => { x with unfinished := some 0 })) 11 w
/-- The lanes of an access with their places, and the lanes whose translation failed. -/
def routes (s : State) (i : Issuer) (k : Access) (l : List Acc) : List (Acc × List Hop) × List (Acc × XFault × Nat) :=
  l.foldr (fun a r => match route s (i.at a) k a.va a.n with
    | .ok h => ((a, h) :: r.1, r.2)
    | .error (f, va) => (r.1, (a, f, va) :: r.2)) ([], [])
/-- A load in flight that is ordered before an access of a lane, or of the scalar stream: one of the same thread, or one of the other
stream that an LSYNC or a LISSUE put before it (R285, R287). -/
def Load.before (i : Issuer) (lane : Nat) (l : Load) : Bool :=
  l.slot == i.sl && (if (l.split % 8 == 4) == i.scalar then i.scalar || l.lane == lane else l.ordered)
/-- The earlier loads of its thread that an access of one lane must not overtake are performed on its lines (R288). -/
def bindLane (i : Issuer) (s : State) (x : Acc × List Hop) : State := bindLoads s i.c (Load.before i x.1.lane) (linesOf x.2)
/-- The region whose home holds such a load. -/
def heldLane (s : State) (i : Issuer) (x : Acc × List Hop) : Option Nat := heldAtHome s i.c i.sl (Load.before i x.1.lane) (linesOf x.2)
/-- The state from which the lanes of an access are performed: the leaves that translated are kept (R84), earlier loads are performed, and
the instruction has its entries of the request table. -/
def accessStart (s : State) (i : Issuer) (l : List (Acc × List Hop)) : State :=
  l.foldl (bindLane i) (l.foldl (fun s x => keepLeaves s i.p x.2) (leaveQueue s i.c i.sl i.tag))
/-- A weak access: checks, then every lane whose bytes translate is performed, in ascending order (R85, R140). DESIGN CHOICE: where one lane
meets SNAP_REGION and another a translation fault, the trap is taken (log 49). -/
def weakRun (i : Issuer) (k : Access) (align accept : Nat) (l : List Acc) (f : Acc → List Hop → State → SRes) (s : State) : Prog × Option Nat :=
  match (misaligned i align l).or (outside i accept l) with
  | some t => ({ s, left := l, trap := some t }, none)
  | none =>
    let r := routes s i k l
    let hops := r.1.flatMap (·.2)
    match (if k = .read then none else snapFault s i.p.nb.ctx hops) with
    | some sub => ({ s, left := l, trap := some { cause := 0x3B, info := BitVec.ofNat 64 sub } }, none)
    | none =>
      if !tableRoom s i.c i.sl i.tag (entriesOf hops) then
        ({ s := joinQueue s i.c i.sl i.tag, left := l, wait := some (6, .requests (entriesOf hops)) }, none)
      else match r.1.findSome? (heldLane s i) with
      | some k => ({ s, left := l, wait := some (11, .region k) }, none)
      | none =>
        let p := r.1.foldl (stepLane f) { s := accessStart s i r.1 }
        match r.2 with
        | [] => (p, none)
        | (_, x, va) :: _ =>
          let left := p.left ++ r.2.map (·.1)
          let t := offer p.s i.stream k x va (accMask i left)
          ({ p with s := t.2, left }, some t.1)
/-- A weak access as a result. -/
def weakAcc (i : Issuer) (k : Access) (align accept : Nat) (l : List Acc) (f : Acc → List Hop → State → SRes) (s : State) : Res :=
  let r := weakRun i k align accept l f s
  finishAcc i r.1 r.2

/-! ## Strong accesses -/

/-- The answer to a strong remote access of a lane: sent and not answered, its data, or its failure; none when not sent. -/
def strongOf (s : State) (i : Issuer) (a : Acc) : Option Request :=
  s.requests.find? (fun r => r.strong && r.core == i.c && r.slot == i.sl && r.split == i.tag && r.lane == a.lane)
/-- A strong read of a peer's line sent to its home (R134); what the core's L1 and the partition hold of the line is dropped first, so
that no later read finds an older value (R127, R288). -/
def sendRead (i : Issuer) (a : Acc) (dev rpa : Nat) (s : State) : SRes :=
  let s := dropRemote s (dieOf i.c) (rkey dev rpa)
  let s := s.updCore i.c (fun k => { k with l1 := k.l1.erase (peerKey dev rpa) })
  match remoteBlock s i.c i.sl dev rpa with
  | some id => .wait s 11 (.remote id)
  | none =>
    let (id, s) := s.newId
    let q : Request := { id, kind := 0, dev, core := i.c, slot := i.sl, addr := rpa, since := s.clock, lane := a.lane, split := i.tag, strong := true,
                         noAlloc := true, fail := { cause := 0, addr := BitVec.ofNat 64 a.va } }
    .wait { s with requests := s.requests ++ [q] } 11 (.remote id)
/-- Remote lanes of a strong load or atomic: sent where they are not, waited for where they are not answered. -/
def askLane (i : Issuer) (load : Bool) (rel : Option (BitVec 512)) (a : Acc) (hops : List Hop) (s : State) : SRes :=
  match hops with
  | ⟨_, .peer d rpa, _⟩ :: _ =>
    match strongOf s i a with
    | some r => if r.st = 0 then .wait s 11 (.remote r.id) else .done s
    | none => if load then sendRead i a d rpa s else sendAtom i true rel a d rpa s
  | _ => .done s
/-- The bytes of an answer for one access. -/
def answerBytes (r : Request) (a : Acc) : List Byte := if r.kind = 0 then (r.data.drop (r.addr % 256)).take a.n else r.data.take a.n
/-- The strong load of one lane: at its home, or from its answer. -/
def strongLoad (i : Issuer) (a : Acc) (hops : List Hop) (s : State) : SRes :=
  match strongOf s i a with
  | some r => .done (landNow i a (answerBytes r a) { s with requests := s.requests.filter (fun q => q.id != r.id) })
  | none => checkRead hops s (fun s => .done (landNow i a (hops.map (fun h => (byteNow s i.c true h.spot).getD 0)) s))
/-- The strong atomic of one lane; a release deposits SIG with it. -/
def strongAtom (i : Issuer) (rel : Bool) (a : Acc) (hops : List Hop) (s : State) : SRes :=
  match strongOf s i a with
  | some r => .done (landNow i a (answerBytes r a) { s with requests := s.requests.filter (fun q => q.id != r.id) })
  | none => match atomAcc i a hops s, hops with
    | .done s, ⟨_, .line pa, _⟩ :: _ => .done (if rel then deposit s pa (s.core i.c).sig else s)
    | r, _ => r
/-- The strong store of one lane, a release. -/
def strongStore (i : Issuer) (a : Acc) (hops : List Hop) (s : State) : SRes :=
  match byPeer (peerCells (hops.zip a.data)), hops with
  | x :: _, _ => match readyFar i (fun _ => true) [x] s with
    | (some id, s) => .wait s 11 (.remote id)
    | (none, s) => .done (sendFar i (some (s.core i.c).sig) (fun _ => true) s x)
  | [], ⟨_, .line pa, _⟩ :: _ => match storeAcc i true false a hops s with
    | .done s => .done (deposit s pa (s.core i.c).sig)
    | r => r
  | [], _ => storeAcc i true false a hops s
/-- Reads at homes that must wait, and own copies that must be written back and dropped first (R104, R288). -/
def readsReady (i : Issuer) (hops : List Hop) (s : State) : SRes :=
  let pas := hops.filterMap (fun h => match h.spot with
    | .line pa => some pa
    | _ => none)
  let r := dropLines i.c (pas.map (· / 64)).dedup s
  match r.1, pas.findSome? (fun pa => homeWaits i.me r.2 pa false) with
  | false, _ => .wait r.2 11 (.writeBacks i.c)
  | _, some k => .wait r.2 11 (.region k)
  | true, none => .done r.2
/-- Failures among the answers to the remote lanes of a strong access. -/
def strongFails (s : State) (i : Issuer) (l : List Acc) : List (Acc × Request) :=
  l.filterMap (fun a => match strongOf s i a with
    | some r => if r.st = 2 then some (a, r) else none
    | none => none)
/-- What a strong access does: 0 load, 1 store, 2 atomic. -/
def strongLane (i : Issuer) (what : Nat) (rel : Bool) : Acc → List Hop → State → SRes := match what with
  | 0 => strongLoad i
  | 1 => strongStore i
  | _ => strongAtom i rel
def strongKind (what : Nat) : Access := match what with
  | 0 => .read
  | 1 => .write
  | _ => .atomic
/-- The 64-byte lines of this module among some places. -/
def localLines (l : List Hop) : List Nat :=
  (l.filterMap (fun h => match h.spot with
    | .line pa => some (pa / 64)
    | _ => none)).dedup
/-- Whether the steps of a word's release are done, and the word noted so: they are taken once for an instruction (R133). -/
def relDone (s : State) (i : Issuer) : Bool :=
  match s.group? i.c i.sl with
  | none => false
  | some g => if i.scalar then g.arrived == some 3 else (g.lanes.map (fun b => (b.at i.k).rel)).getD false
def noteRel (s : State) (i : Issuer) : State :=
  if i.scalar then s.updGroup i.c i.sl (fun g => { g with arrived := some 3 }) else updSplit s i.c i.sl i.k (fun x => { x with rel := true })
/-- What the answers to the remote lanes of an acquire brought of their lines' entries, and whether they told of a new generation
(R130, R131). -/
def farSigs (s : State) (i : Issuer) (l : List Acc) : List (Bool × BitVec 512) :=
  l.filterMap (fun a => (strongOf s i a).map (fun r => (r.rall || decide ((s.core i.c).gens.getD (genKey r.dev r.addr) 0 < r.rgen), r.rsig)))
/-- The generations told of, recorded (R131). -/
def noteGens (i : Issuer) (s : State) (r : Request) : State :=
  s.updCore i.c (fun k => { k with gens := k.gens.set (genKey r.dev r.addr) (max (k.gens.getD (genKey r.dev r.addr) 0) r.rgen) })
/-- A strong access (R86, R133 to R135): every lane translates before any is performed; then the release steps, the reads and
writes at their homes, and the invalidation of an acquire. DESIGN CHOICE: SNAP_REGION comes before a translation fault, as for a weak
access (log 49). -/
def strongRun (i : Issuer) (what : Nat) (acq rel : Bool) (obs align accept : Nat) (l : List Acc) (s : State) : Res :=
  let k := strongKind what
  match (misaligned i align l).or (outside i accept l) with
  | some t => .trap s t
  | none =>
    let r := routes s i k l
    let hops := r.1.flatMap (·.2)
    let parked (s : State) (w : Nat × WaitCond) : Res := finishAcc i { s, left := l, wait := some w } none
    match (if what = 0 then none else snapFault s i.p.nb.ctx hops), r.2 with
    | some sub, _ => .trap s { cause := 0x3B, info := BitVec.ofNat 64 sub, mask := accMask i l }
    | none, (_, x, va) :: _ =>
      let t := offer s i.stream k x va (accMask i l)
      finishAcc i { s := t.2, left := l } (some t.1)
    | none, [] =>
      if l.isEmpty then .next s
      else if !tableRoom s i.c i.sl i.tag (entriesOf hops) then parked (joinQueue s i.c i.sl i.tag) (6, .requests (entriesOf hops))
      else match r.1.findSome? (heldLane s i) with
      | some k => parked s (11, .region k)
      | none =>
        let s := accessStart s i r.1
        match (if rel && !relDone s i then releaseSteps s i.c i.sl obs else .ok s : Rel) with
        | .wait s reason c => parked s (reason, c)
        | .trap s t => .trap s { t with mask := accMask i l }
        | .ok s =>
          let s := if rel then noteRel s i else s
          let s := if what = 0 then s else addLines s i.c i.sl (localLines hops)
          let asked := if what = 1 then ({ s } : Prog) else r.1.foldl (stepLane (askLane i (what == 0) (if rel then some (s.core i.c).sig else none))) { s }
          match asked.wait, strongFails asked.s i l with
          | some w, _ => parked asked.s w
          | none, (a, q) :: fs =>
            let bad := (a, q) :: fs
            .trap { asked.s with requests := asked.s.requests.filter (fun r => !(strongOf asked.s i a).any (fun y => y.id == r.id) && !bad.any (fun y => y.2.id == r.id)) }
              { q.fail with mask := accMask i (bad.map (·.1)) }
          | none, [] =>
            match (if what = 0 then readsReady i hops asked.s else .done asked.s : SRes) with
            | .wait s reason c => parked s (reason, c)
            | .full s _ _ => parked s (11, .writeBacks i.c)
            | .bad s t => .trap s { t with mask := accMask i l }
            | .done s =>
              let far := farSigs s i l
              let s := if acq then (l.filterMap (strongOf s i)).foldl (noteGens i) s else s
              let p := r.1.foldl (stepLane (strongLane i what rel)) { s }
              let s := if rel && p.left.isEmpty then released p.s i.c i.sl else p.s
              let s := if acq then acquire s i.c i.sl obs (localLines hops) far else s
              if p.left.isEmpty && acq && invalidating s i.c (hasPH obs) then finishWait i s (.invalidation i.c (hasPH obs))
              else finishAcc i { p with s } none

end Sys2Proof.Machine
end

