-- ==== Sys2Proof/Machine/LaneMem.lean ====
section
/-! DEFINITION. Lane loads, stores, atomics and prefetches (R31, R70 to R72, R138 to R143), full/empty operations (R158 to R163) and
the spill stack (R221 to R223). -/

namespace Sys2Proof.Machine
open Bits Numbers

/-! ## Operands -/

/-- A split as the issuer of an access. -/
def laneIssuer (s : State) (e : LaneEnv) : Issuer :=
  { c := e.c, sl := e.sl, k := e.k, scalar := false, pc := e.sp.pc.setWidth 64, p := partyOf s e.c e.sl e.g, tm := e.g.trapMode }
/-- What the words of cells 0x20 and 0x28 share: the head, WID or the element count, GFE, CH and the offset (Table 1-8, R31). -/
structure MemForm where
  h : LaneHead
  wid : Nat
  gfe : Nat
  ch : Nat
  off : W64
  deriving DecidableEq, Repr
def memL3 (w : L3) : MemForm := ⟨w.toLaneHead, w.aux.toNat % 8, w.aux.toNat / 8 % 4, w.ch.toNat, 0⟩
def memLI (w : LI) : MemForm := ⟨w.toLaneHead, w.rm.toNat, Encoding.gfeLI w, Encoding.chLI w, sext64 32 w.imm.toNat⟩
/-- The effective address of a lane (R138). -/
def LaneEnv.ea (e : LaneEnv) (h : LaneHead) (off : W64) (lane : Nat) : Nat := (BitVec.ofNat 64 (e.g.vn true h.sa.toNat lane) + off).toNat
/-- The alignment of an access (R71, R138). -/
def MemForm.align (f : MemForm) : Nat := if f.h.mfmt = 0 then 2 ^ f.wid else if f.h.mfmt = 1 then 2 else 1
def MemForm.bytes (f : MemForm) : Nat := accessBytes f.h.mfmt.toNat f.wid
def MemForm.regs (f : MemForm) : Nat := (Encoding.accessRegs f.h.mfmt.toNat f.h.fmt.toNat f.wid).1
/-- The lanes that perform an access: executing keepers (R21, R333). -/
def LaneEnv.acting (e : LaneEnv) : List Nat := lanesOf (e.exec &&& e.keep)
/-- The destinations of lanes that an access leaves unfinished stay EMPTY (R85, R140); those of an access that traps for good are
as before. -/
def holdDest (i : Issuer) (l : List Acc) : Res → Res
  | .park s 6 c => .park s 6 c
  | .park s r c =>
    let left := ((s.group? i.c i.sl).bind (fun g => g.lanes.bind (fun b => (b.at i.k).unfinished))).getD 0
    .park ((l.filter (fun a => left.getLsbD a.lane)).foldl (fun s a => markPending i a s) s) r c
  | .trap s t =>
    let mine := if replayable t.cause then l.filter (fun a => t.mask.getLsbD a.lane) else []
    let full (g : Group) (a : Acc) : Group := (convRegs a.conv).foldl (fun g r => g.markFull r (1 <<< a.lane)) g
    let s := if replayable t.cause then s else s.updGroup i.c i.sl (fun g => l.foldl full g)
    .trap (mine.foldl (fun s a => markPending i a s) s) t
  | r => r

/-! ## Loads -/

/-- The loads of the acting lanes. -/
def MemForm.loads (f : MemForm) (e : LaneEnv) : List Acc :=
  e.acting.map (fun i => { lane := i, va := e.ea f.h f.off i, n := f.bytes, conv := .lane f.h.dst.toNat f.h.fmt.toNat f.h.mfmt.toNat f.wid })
/-- A weak load (R139, R140), with its granule qualifier (R158). -/
def weakLoad (f : MemForm) (e : LaneEnv) (s : State) : Res :=
  let i := laneIssuer s e
  let l := f.loads e
  holdDest i l (
    if f.gfe = 0 then weakAcc i .read f.align apLane l (loadAcc i (f.ch == 3)) s
    else weakAcc i .read f.align apGranule l (gfeLoad i (f.gfe == 2) e.g.trapMode) s)
/-- R139, R140, R134, R158. -/
def execLd (w : L3) (s : State) : Out :=
  let f := memL3 w
  laneRun 2 w.prd [srcA w.toLaneHead 2] [(w.dst.toNat, f.regs)] (fun e s =>
    if w.ord = 0 then weakLoad f e s
    else
      let i := laneIssuer s e
      holdDest i (f.loads e) (strongRun i 0 true false w.obs.toNat f.align apLane (f.loads e) s)) s
/-- R31, R139. -/
def execLdImm (w : LI) (s : State) : Out :=
  let f := memLI w
  laneRun 2 w.prd [srcA w.toLaneHead 2] [(w.dst.toNat, f.regs)] (fun e s => weakLoad f e s) s

/-! ## Stores -/

/-- An element of a register as its memory format (Table 3-9). -/
def storeElem (mfmt fmt : Nat) (md : Mode) (sat : Bool) (x : Nat) : Nat :=
  match mfmt with
  | 7 => if fmt = 1 then ofInt 8 (Alu.clampInt (-128) 127 (toInt 32 x)) else x % 256
  | 8 => if fmt = 2 then min x 255 else x % 256
  | _ =>
    match elemFmt mfmt with
    | none => x
    | some f => round f md sat (value (if fmt = 5 then f32 else bf16) x)
/-- Element k among the registers of a store (R71). -/
def storeSource (g : Group) (h : LaneHead) (lane k : Nat) : Nat :=
  if h.fmt = 7 then (g.v (h.sb.toNat + k / 2) lane).toNat / 2 ^ (16 * (k % 2)) % 65536 else (g.v (h.sb.toNat + k) lane).toNat
/-- Elements packed as memory holds them (R60). -/
def packElems (bits : Nat) : List Nat → Nat
  | [] => 0
  | x :: xs => x % 2 ^ bits + 2 ^ bits * packElems bits xs
/-- Draws of one lane's store (R67, R72). -/
def MemForm.draws (f : MemForm) (code : Nat) : Nat :=
  if code = 5 ∧ 1 ≤ f.h.mfmt.toNat ∧ f.h.mfmt.toNat ≤ 6 then 2 ^ f.wid else 0
/-- The bytes that a lane stores (R70 to R72, R139). -/
def MemForm.data (f : MemForm) (code : Nat) (e : LaneEnv) (lane : Nat) : List Byte :=
  if f.h.mfmt = 0 then
    bytesOf f.bytes (packElems 32 ((List.range f.regs).map (fun k => (e.g.v (f.h.sb.toNat + k) lane).toNat)))
  else
    let rs := (drawsOf (e.g.rand lane) (f.draws code)).2
    let el (k : Nat) : Nat := storeElem f.h.mfmt.toNat f.h.fmt.toNat (modeDrawn code rs k) (e.sp.fmtr.getLsbD 14) (storeSource e.g f.h lane k)
    bytesOf f.bytes (packElems (elemBits f.h.mfmt.toNat) ((List.range (2 ^ f.wid)).map el))
def MemForm.stores (f : MemForm) (code : Nat) (e : LaneEnv) : List Acc :=
  e.acting.map (fun i => { lane := i, va := e.ea f.h f.off i, n := f.bytes, conv := .lane 0 0 0 0, data := f.data code e i })
/-- A weak store (R122, R126, R139), with its granule qualifier (R158); lanes that are performed draw (R68). -/
def weakStore (f : MemForm) (code : Nat) (e : LaneEnv) (s : State) : Res :=
  let i := laneIssuer s e
  let l := f.stores code e
  let r := weakRun i .write f.align (if f.gfe = 3 then apGranule else apLane) l (storeAcc i (f.ch == 3) (f.gfe == 3)) s
  let m := accMask i l &&& ~~~accMask i r.1.left
  finishAcc i { r.1 with s := r.1.s.updGroup e.c e.sl (fun g => g.drawn m (f.draws code)) } r.2
/-- R72, R133, R139, R158. -/
def execSt (w : L3) (s : State) : Out :=
  let f := memL3 w
  laneRun 2 w.prd [srcA w.toLaneHead 2, srcB w.toLaneHead f.regs] [] (fun e s =>
    if w.ord = 0 then weakStore f (rmCode w.rm e.sp.fmtr) e s
    else strongRun (laneIssuer s e) 1 false true w.obs.toNat f.align apLane (f.stores 1 e) s) s
/-- R31, R72, R139. -/
def execStImm (w : LI) (s : State) : Out :=
  let f := memLI w
  laneRun 2 w.prd [srcA w.toLaneHead 2, srcB w.toLaneHead f.regs] [] (fun e s => weakStore f (rmCode 0 e.sp.fmtr) e s) s

/-! ## Atomics -/

/-- An atomic or CAS, weak or strong (R128, R133 to R135, R141). -/
def laneAtomic (w : L3) (l : List Acc) (e : LaneEnv) (s : State) : Res :=
  let i := laneIssuer s e
  let n := 2 ^ (w.aux.toNat % 8)
  holdDest i l (
    if w.ord = 0 then weakAcc i .atomic n apLane l (atomAcc i) s
    else strongRun i 2 (w.ord.getLsbD 0) (w.ord.getLsbD 1) w.obs.toNat n apLane l s)
/-- The access of a lane, without its operands. -/
def atomOf (w : L3) (e : LaneEnv) (i : Nat) : Acc :=
  { lane := i, va := e.ea w.toLaneHead 0 i, n := 2 ^ (w.aux.toNat % 8), conv := .lane w.dst.toNat 0 0 (w.aux.toNat % 8) }
/-- R141. -/
def execAtom (w : L3) (s : State) : Out :=
  let pair := w.aux.toNat % 8 == 3
  let n := if pair then 2 else 1
  laneRun 2 w.prd [srcA w.toLaneHead 2, srcB w.toLaneHead n] [(w.dst.toNat, n)] (fun e s =>
    laneAtomic w (e.acting.map (fun i =>
      { atomOf w e i with aop := w.aux.toNat / 8, fmt := w.fmt.toNat, x := e.g.vn pair w.sb.toNat i })) e s) s
/-- R141. -/
def execCas (w : L3) (s : State) : Out :=
  let pair := w.aux.toNat % 8 == 3
  let n := if pair then 2 else 1
  laneRun 2 w.prd [srcA w.toLaneHead 2, srcB w.toLaneHead n, srcC w n] [(w.dst.toNat, n)] (fun e s =>
    laneAtomic w (e.acting.map (fun i =>
      { atomOf w e i with cas := true, x := e.g.vn pair w.sb.toNat i, y := e.g.vn pair w.sc.toNat i })) e s) s

/-! ## Prefetches -/

/-- A 64-byte line of a peer as the die's partition holds it, where it holds the 256-byte line whole (R126). -/
def heldSector (s : State) (die dev rpa : Nat) : Option (BitVec 512) :=
  (rline s die dev rpa).bind (fun l =>
    let o := rpa % 256 / 64 * 64
    if l.valid = BitVec.allOnes 256 then some (l.data.extractLsb' (8 * o) 512) else none)
/-- A prefetch of one lane's line; an address that would fault is dropped, and so is one beyond the slot's share (R143). A line of a peer
that the partition holds comes from there (R126). Under nl1 a line goes into its home's L2 slice, or into the partition, alone. -/
def prefOne (i : Issuer) (nl1 : Bool) (s : State) (a : Nat × Nat) : State :=
  let p : Party := { i.p with lane := a.1 }
  match locate s p a.2 with
  | .glob va =>
    match translate s p .read va with
    | .error _ => s
    | .ok x =>
      let h : Hop := ⟨va, match x.dev with
        | none => .line x.pa
        | some d => .peer d x.pa, some x.leaf⟩
      let s := keepLeaf i.p s h
      let here := (s.core i.c).l1.any (fun l => some l.1 == h.spot.key && l.2.whole)
      let near := match h.spot with
        | .peer d rpa => (heldSector s (dieOf i.c) d rpa).map (fun v => (peerKey d rpa, v))
        | _ => none
      match nl1, h.spot with
      | true, .line pa => if (homeWaits i.me s pa false).isSome then s else countErrs s [memUnit (pa / 64 * 64), memUnit (pa / 64 * 64 + 32)]
      | _, _ =>
      if here || (nl1 && near.isSome) then s
      else match near with
      | some (key, v) =>
        let r := roomL1 i.c [key] 1 s
        if r.1 then r.2.updCore i.c (fun k => { k with l1 := k.l1.set key { data := v, whole := true, dirty := 0 } }) else s
      | none =>
        if tableShare i.sl ≤ slotUsed s i.c i.sl then s
        else match loadBlock s i.c i.sl h with
          | (some _, s) => s
          | (none, s) => askFill s i.c i.sl nl1 h
  | _ => s
/-- R143. -/
def prefetch (f : MemForm) (e : LaneEnv) (s : State) : Res :=
  .next ((e.acting.map (fun i => (i, e.ea f.h f.off i))).foldl (prefOne (laneIssuer s e) (f.ch == 3)) s)
/-- R143. -/
def execPref (w : L3) (s : State) : Out := laneRun 2 w.prd [srcA w.toLaneHead 2] [] (fun e s => prefetch (memL3 w) e s) s
/-- R31, R143. -/
def execPrefImm (w : LI) (s : State) : Out := laneRun 2 w.prd [srcA w.toLaneHead 2] [] (fun e s => prefetch (memLI w) e s) s

/-! ## Full/empty granules -/

/-- The granules of n granules from an address, each where it lives (R162). -/
def granulesAt (s : State) (p : Party) (va n : Nat) : List Nat :=
  (List.range n).filterMap (fun j => match locate s p ((va + 16 * j) % 2 ^ 64) with
    | .spad _ a => some (a / 16)
    | _ => none)
/-- FEZ and FESET (R162). DESIGN CHOICE: a misaligned address traps in a lane with n = 0 too (log 61). -/
def granuleRun (fill : Bool) (w : L3) (s : State) : Out :=
  laneRun 2 w.prd [srcA w.toLaneHead 2, srcB w.toLaneHead 1] [] (fun e s =>
    let i := laneIssuer s e
    let acc (k : Nat) : Acc := { lane := k, va := e.ea w.toLaneHead 0 k, n := 16 * (e.g.v w.sb.toNat k).toNat, conv := .lane 0 0 0 0 }
    let l := e.acting.map acc
    match (misaligned i 16 l).or (outside i apGranule l) with
    | some t => .trap s t
    | none => .next (l.foldl (fun s a => (granulesAt s (i.at a) a.va (a.n / 16)).foldl (if fill then fillGranule else emptyGranule) s) s)) s
/-- R162. -/
def execFez (w : L3) (s : State) : Out := granuleRun false w s
/-- R162. -/
def execFeset (w : L3) (s : State) : Out := granuleRun true w s
/-- The bits of 32 granules from an address; those beyond the extent read 0 (R163). -/
def granuleBits (s : State) (p : Party) (va : Nat) : Nat :=
  let code := (p.ap va).1
  maskOf ((List.range 32).filter (fun j =>
    (p.ap ((va + 16 * j) % 2 ^ 64)).1 == code && (match locate s p ((va + 16 * j) % 2 ^ 64) with
      | .spad _ a => isFull s (a / 16)
      | _ => false)))
/-- R163. -/
def execFeq (w : L3) (s : State) : Out :=
  laneRun 2 w.prd [srcA w.toLaneHead 2] [(w.dst.toNat, 1)] (fun e s =>
    let i := laneIssuer s e
    let acc (k : Nat) : Acc := { lane := k, va := e.ea w.toLaneHead 0 k, n := 16, conv := .lane 0 0 0 0 }
    let l := e.acting.map acc
    match (misaligned i 16 l).or (outside i apGranule l) with
    | some t => .trap s t
    | none => .next (s.updGroup e.c e.sl (fun g => g.producing (e.exec &&& e.keep) [w.dst.toNat]
        (fun k => [(w.dst.toNat, BitVec.ofNat 32 (granuleBits s { i.p with lane := k } (e.ea w.toLaneHead 0 k)))])))) s

/-! ## The spill stack -/

/-- SSP of the split, or TSSP in trap mode (R221, R223). -/
def LaneEnv.stack (e : LaneEnv) : Nat := if e.g.trapMode then e.g.tssp else e.sp.ssp
def putStack (e : LaneEnv) (n : Nat) (s : State) : State :=
  if e.g.trapMode then s.updGroup e.c e.sl (fun g => { g with tssp := n }) else updSplit s e.c e.sl e.k (fun x => { x with ssp := n })
/-- The scratchpad address of byte o of a lane's slice (R151). -/
def sliceAt (s : State) (e : LaneEnv) (lane o : Nat) : Nat :=
  e.c * Config.spadBytes + (s.blockOf e.g).base + sliceOff (s.nbhdOf e.g).stage e.g.gidx lane o
/-- A word pushed: into the lane's slice, or in trap mode into the trap spill area (R222, R223). -/
def pushWord (e : LaneEnv) (sp reg : Nat) (s : State) (x : Nat × Nat) : State :=
  let v := e.g.v (reg + x.2) x.1
  let o := sp + 4 * x.2
  if e.g.trapMode then s.updGroup e.c e.sl (fun g => { g with tspill := g.tspill.set (128 * (o / 4) + 4 * x.1) v })
  else writeSpad s (s.nbhdOf e.g).ctx false (cellsAt (sliceAt s e x.1 o) (bytesOf 4 v.toNat))
/-- The words that a lane pops (R222, R223). -/
def popWords (s : State) (e : LaneEnv) (sp reg n lane : Nat) : List (Nat × W32) :=
  (List.range n).map (fun k =>
    (reg + k, if e.g.trapMode then e.g.tspill.getD (128 * ((sp + 4 * k) / 4) + 4 * lane) 0
      else BitVec.ofNat 32 (Memory.le s.spad (sliceAt s e lane (sp + 4 * k)) 4)))
/-- The bank words that some lanes pop, and the error that a pop meets, at the first failing lane (R148). -/
def popUnits (s : State) (e : LaneEnv) (n : Nat) (lanes : List Nat) : List Nat :=
  lanes.flatMap (fun i => (List.range n).map (fun k => spadUnit (sliceAt s e i (e.stack + 4 * k))))
def popErr (s : State) (e : LaneEnv) (n : Nat) : Option TrapInfo :=
  let bad := e.acting.filter (fun i => (errIn s (popUnits s e n [i])).isSome)
  bad.head?.map (fun _ => { integrity 2 (0xFFFF2 * 2 ^ 44 + e.stack) with mask := BitVec.ofNat 32 (maskOf bad) })
/-- R222, R223. -/
def execPushm (w : L3) (s : State) : Out :=
  let n := w.sb.toNat + 1 - w.sa.toNat
  laneRun 0 w.prd [srcA w.toLaneHead n] [] (fun e s =>
    if e.never then .next s
    else if e.stack < 4 * n then .trap s { cause := 0x40, mask := e.exec &&& e.keep }
    else
      let sp := e.stack - 4 * n
      let l := e.acting.flatMap (fun i => (List.range n).map (fun k => (i, k)))
      .next (putStack e sp (l.foldl (pushWord e sp w.sa.toNat) s))) s
/-- R222, R223: EMPTY at issue, FULL on arrival; FULL at once in trap mode (R370). -/
def execPopm (w : L3) (s : State) : Out :=
  let n := w.sb.toNat + 1 - w.sa.toNat
  laneRun 0 w.prd [] [(w.sa.toNat, n)] (fun e s =>
    let top := if e.g.trapMode then (s.nbhdOf e.g).stage.trapspill / 32 else (s.nbhdOf e.g).stage.lslice
    if e.never then .next s
    else if top < e.stack + 4 * n then .trap s { cause := 0x40, mask := e.exec &&& e.keep }
    else match (if e.g.trapMode then none else popErr s e n) with
    | some t => .trap s t
    | none =>
      let m := e.exec &&& e.keep
      let regs := (List.range n).map (· + w.sa.toNat)
      let s := (if e.g.trapMode then s else countErrs s (popUnits s e n (lanesOf m))).updGroup e.c e.sl (fun g =>
        let words := popWords s e e.stack w.sa.toNat n
        if g.trapMode then regs.foldl (fun g r => g.markFull r m) ((lanesOf m).foldl (fun g i => g.putWords i (words i)) g)
        else g.producing m regs words)
      .next (putStack e (e.stack + 4 * n) s)) s

end Sys2Proof.Machine
end

