-- ==== Sys2Proof/Machine/LaneControl.lean ====
section
/-! DEFINITION. Lane control flow (R326 to R334, R339), lane TRAP, BKPT, PROG and HINT (R34, R376, R393, R397). -/

namespace Sys2Proof.Machine
open Bits

/-! ## Divergence -/

/-- The lowest free split slot: neither VALID nor OWN (R324). -/
def freeSlot (b : LaneBlock) : Option Nat := (List.range 4).find? (fun k => !(b.at k).valid && !(b.at k).own)
/-- The join of a divergence at J: the split's own, or a new record (R326). -/
def joinFor (b : LaneBlock) (k : Nat) (j : W32) : Option (Nat × LaneBlock) :=
  let x := b.at k
  let same := (x.jid.bind b.joins.get?).any (fun r => r.rpc == j)
  match same, x.jid with
  | true, some i => some (i, b)
  | _, _ =>
    ((List.range 16).find? (fun i => (b.joins.get? i).isNone)).map (fun i =>
      (i, { b with joins := b.joins.set i { rpc := j, mask := x.mask, arr := 0, fmtr := x.fmtr, ssp := x.ssp, parent := x.jid, owner := k } }.set k
        { x with own := true }))
/-- A divergence of split k: executing set t, target x, fall-through f, join j (R326). The block and the split's next PC, or
the subcode of the trap. -/
def diverge (b : LaneBlock) (k : Nat) (t : W32) (x f j : W32) : Except Nat (LaneBlock × W32) :=
  let n := (b.at k).mask &&& ~~~t
  match joinFor b k j with
  | none => .error 2
  | some (i, b) =>
    let sp := { b.at k with jid := some i }
    let waits (m : W32) : LaneBlock := { b with joins := b.joins.modify (fun r => { r with arr := r.arr ||| m }) i }
    if x = j then .ok ((waits t).set k { sp with mask := n }, f)
    else if f = j then .ok ((waits n).set k { sp with mask := t }, x)
    else match freeSlot b with
      | some q =>
        let y : Split := { valid := true, pc := x, mask := t, fmtr := sp.fmtr, ssp := sp.ssp, jid := some i }
        .ok ((b.set k { sp with mask := n }).set q y, f)
      | none =>
        if 16 ≤ sp.stack.length then .error 1
        else
          let e : StackEntry := { call := false, pc := f, mask := n, fmtr := sp.fmtr, ssp := sp.ssp, rpc := j, jid := some i }
          .ok (b.set k { sp with mask := t, stack := e :: sp.stack }, x)
/-- The lane block of the issuing group with another one in its place. -/
def putLanesBlock (e : LaneEnv) (b : LaneBlock) (s : State) : State := s.updGroup e.c e.sl (fun g => g.setLanes (some b))
/-- The lane block of the issuing group. -/
def LaneEnv.block (e : LaneEnv) : LaneBlock := (e.g.lanes).getD { splits := [], ws := [], startSsp := 0 }
/-- A PC as a result. -/
def jumpL (s : State) (pc : W32) : Res := .jump s (pc.setWidth 64)

/-- R326, R339, R370. -/
def execBra (w : LI) (s : State) : Out :=
  laneRun 0 w.prd [] [] (fun e s =>
    let pc := e.sp.pc
    let x := pc + BitVec.ofInt 32 (toInt 16 (w.imm.toNat / 65536))
    let f := pc + 1
    let j := pc + BitVec.ofNat 32 (w.imm.toNat % 65536)
    let n := e.sp.mask &&& ~~~e.exec
    if n = 0 then jumpL s x
    else if e.exec = 0 then jumpL s f
    else if e.g.trapMode then .trap s (overflow 1 e.exec)
    else if x = f then jumpL s f
    else match diverge e.block e.k e.exec x f j with
      | .error sub => .trap s (overflow sub e.exec)
      | .ok (b, pc) => jumpL (putLanesBlock e b s) pc) s
/-- R332: a partial call first diverges with the join at the return address. -/
def execLcall (w : LI) (s : State) : Out :=
  laneRun 0 w.prd [] [] (fun e s =>
    let x := e.sp.pc + w.imm
    let f := e.sp.pc + 1
    let n := e.sp.mask &&& ~~~e.exec
    if e.exec = 0 then jumpL s f
    else if 16 ≤ e.sp.stack.length then .trap s (overflow 1 e.exec)
    else
      match (if n = 0 ∨ x = f then .ok (e.block, x) else diverge e.block e.k e.exec x f f : Except Nat (LaneBlock × W32)) with
      | .error sub => .trap s (overflow sub e.exec)
      | .ok (b, _) =>
        let sp := b.at e.k
        let c : StackEntry := { call := true, pc := f, mask := sp.mask, fmtr := sp.fmtr, ssp := sp.ssp, rpc := 0, jid := sp.jid }
        jumpL (putLanesBlock e (b.set e.k { sp with stack := c :: sp.stack }) s) x) s
/-- R332. -/
def execLret (s : State) : Out :=
  laneRun 0 0#4 [] [] (fun e s =>
    match e.sp.stack with
    | c :: rest =>
      if c.call && c.jid == e.sp.jid then jumpL (updSplit s e.c e.sl e.k (fun x => { x with stack := rest })) c.pc
      else .trap s (overflow 3 e.exec)
    | [] => .trap s (overflow 3 e.exec)) s
/-- R329. -/
def execLexit (w : L3) (s : State) : Out :=
  laneRun 0 w.prd [] [] (fun e s =>
    if e.never then .next s
    else if e.block.wide.isSome then .trap s (overflow 5 e.exec)
    else
      let m := e.sp.mask &&& ~~~e.exec
      let s := s.updGroup e.c e.sl (fun g => { g with live := g.live &&& ~~~e.exec })
      if m = 0 then .stay (updSplit s e.c e.sl e.k (fun x => { x with mask := 0, park := none, unfinished := none }.emptied))
      else .next (updSplit s e.c e.sl e.k (fun x => { x with mask := m }))) s
/-- A split that parks at LEND, WIDE or ENDW. -/
def waitSplits (e : LaneEnv) (kind : Nat) (s : State) : Res :=
  .stay (updSplit s e.c e.sl e.k (fun x => { x with park := some ⟨4, .splits kind⟩, unfinished := none }))
/-- R330. -/
def execLend (s : State) : Out :=
  laneRun 0 0#4 [] [] (fun e s =>
    if e.block.wide.isSome then .trap s (overflow 5 e.exec)
    else match dropCalls e.sp.stack with
      | c :: rest => .stay (updSplit s e.c e.sl e.k (fun x => { x.resume c rest with park := none, unfinished := none }))
      | [] => waitSplits e 0 (updSplit s e.c e.sl e.k (fun x => { x with stack := [] }))) s
/-- R333. -/
def execWide (s : State) : Out :=
  laneRun 0 0#4 [] [] (fun e s => if e.block.wide.isSome then .trap s (overflow 5 e.exec) else waitSplits e 1 s) s
/-- R334. -/
def execEndw (s : State) : Out :=
  laneRun 0 0#4 [] [] (fun e s => if e.block.wide.isSome then waitSplits e 2 s else .trap s (overflow 5 e.exec)) s

/-! ## Traps, breakpoints, progress and hints -/

/-- R34. -/
def execHint (s : State) : Out := laneRun 0 0#4 [] [] (fun _ s => .next s) s
/-- A progress counter of a partition: the additions saturate (R397). -/
def addProgress (s : State) (p n k : Nat) : State :=
  s.updPart p (fun q => { q with progress := q.progress.set n (min (q.progress.getD n 0 + k) (2 ^ 64 - 1)) })
/-- R397: the executing lanes, keepers only. -/
def execLaneProg (w : L3) (s : State) : Out :=
  laneRun 0 w.prd [] [] (fun e s =>
    .next (addProgress s (s.nbhdOf e.g).part (w.aux.toNat % 8) (lanesOf (e.exec &&& e.keep)).length)) s
/-- Whether the debugger takes breakpoints of a partition. -/
def debugging (s : State) (p : Nat) : Bool := ((s.part? p).map (·.dbgen)).getD false
/-- A breakpoint in a group: a stop of its block where the debugger is attached, else a trap (R393). -/
def breakpoint (g : Group) (code : Nat) (mask : W32) (s : State) : Res :=
  if debugging s (s.nbhdOf g).part then .next (s.updBlock g.block (fun b => { b with stopped := true, cause := 0x50 }))
  else .trap s { cause := 0x50, info := BitVec.ofNat 64 code, mask }
/-- R393. -/
def execLaneBkpt (w : L3) (s : State) : Out :=
  laneRun 0 w.prd [] [] (fun e s =>
    if e.exec &&& e.keep = 0 then .next s else breakpoint e.g w.aux.toNat (e.exec &&& e.keep) s) s
/-- R376. -/
def execLaneTrap (w : L3) (s : State) : Out :=
  laneRun 0 w.prd [] [] (fun e s =>
    if e.exec &&& e.keep = 0 then .next s
    else .trap s { cause := 0x7F, info := BitVec.ofNat 64 w.aux.toNat, mask := e.exec }) s

end Sys2Proof.Machine
end

