-- ==== Sys2Proof/Machine/ScalarControl.lean ====
section
/-! DEFINITION. Scalar control flow and lane-block issue (R317 to R323, R340), SFMT, SHINT, PROG, BKPT and trials (R34, R224,
R393, R396, R397). -/

namespace Sys2Proof.Machine
open Bits

/-! ## Branches -/

/-- The target of a scalar branch (R340). -/
def branchTo (g : Group) (o : BitVec 20) : W64 := g.spc + 4 * sext64 20 o.toNat
/-- R340. -/
def execSbrZ (a : BitVec 6) (o : BitVec 20) (s : State) : Out :=
  scalarRun false 0 4 [a.toNat] (fun _ _ g => if g.field a = 0 then .jump s (branchTo g o) else .next s) s
/-- R340. -/
def execSbrNz (a : BitVec 6) (o : BitVec 20) (s : State) : Out :=
  scalarRun false 0 4 [a.toNat] (fun _ _ g => if g.field a = 0 then .next s else .jump s (branchTo g o)) s
/-- R340. -/
def execSjmp (o : BitVec 20) (s : State) : Out := scalarRun false 0 4 [] (fun _ _ g => .jump s (branchTo g o)) s
/-- R340: the link register takes PC + 4. -/
def execScall (a : BitVec 6) (o : BitVec 20) (s : State) : Out :=
  scalarRun false 0 4 [a.toNat] (fun c sl g => .jump (s.updGroup c sl (fun h => h.setS (h.sname a.toNat) (g.spc + 4))) (branchTo g o)) s
/-- R340: a return address that is not a multiple of 4 traps MISALIGNED. -/
def execSret (a : BitVec 6) (s : State) : Out :=
  scalarRun false 0 4 [a.toNat] (fun _ _ g =>
    if g.field a % 4 = 0 then .jump s (BitVec.ofNat 64 (g.field a)) else .trap s { cause := 5, addr := BitVec.ofNat 64 (g.field a) }) s

/-! ## Lane blocks and the end of a group -/

/-- Whether the lane stream has drained (R321); in trap mode the trap lane block (R370, R371). -/
def Group.drained (g : Group) : Bool := if g.trapMode then g.tlb.isNone else g.dq.isEmpty && g.lb.isNone
/-- Whether the copies of a group are complete (R178). -/
def Group.copied (g : Group) : Bool := g.batches.all (fun b => b.left == 0)
/-- Whether a tile operation is a lane read of a group whose data is on its way (R209). -/
def TileOp.loads (c sl : Nat) (o : TileOp) : Bool := o.st == 4 && (match o.strm with
  | .split c' sl' _ => c' == c && sl' == sl
  | _ => false)
/-- Whether a group's lane loads have returned (R322), those of tiles included (R209). -/
def returned (s : State) (c sl : Nat) (g : Group) : Bool :=
  g.prod.isEmpty && (s.core c).loads.all (fun l => l.slot != sl) && (s.nbhdOf g).ops.all (fun o => !o.loads c sl)
/-- A lane block at its start, in the lanes of a mask (R320, R370). -/
def freshBlock (target m fmtr : W32) (ssp : Nat) (ws : List W64) : LaneBlock :=
  { splits := [{ valid := true, pc := target, mask := m, fmtr, ssp }, {}, {}, {}], ws, startSsp := ssp }
/-- R319, R370. -/
def execLissue (w0 w1 w2 w3 : BitVec 6) (t : BitVec 32) (s : State) : Out :=
  scalarRun false 0 8 [w0.toNat, w1.toNat, w2.toNat, w3.toNat] (fun c sl g =>
    let ws := [w0, w1, w2, w3].map (fun r => g.s (g.sname r.toNat))
    if g.trapMode then
      (if g.tlb.isSome then .park s 11 .drained
       else .next ((orderLoads s c sl true).updGroup c sl (fun h => { h with tlb := some (freshBlock t (BitVec.allOnes 32) Config.fmtrReset h.ssp ws) })))
    else if 16 ≤ g.dq.length then .park s 11 .queueRoom
    else .next ((orderLoads s c sl true).updGroup c sl (fun h => { h with dq := h.dq ++ [{ target := t, ws, fmtr := h.sfmt }] }))) s
/-- R321: what the scalar stream does next is ordered after the loads of the lanes (R287). -/
def execLsync (s : State) : Out :=
  scalarRun false 0 4 [] (fun c sl g => if g.drained then .next (orderLoads s c sl false) else .park s 11 .drained) s
/-- The groups of a block that have not ended. -/
def liveGroups (s : State) (b : Nat) : List Nat := (s.groups.keep (fun _ g => g.block == b)).keys
/-- A group ends: its slot is freed; with the last group the block ends, and with the last block the neighbourhood (R129, R202,
R322). -/
def endGroup (s : State) (c sl : Nat) (g : Group) : State :=
  let s := releaseBit s c sl
  let s := { s with groups := s.groups.erase (c * 48 + sl) }
  let s := s.updBlock g.block (fun b => { b with ended := b.ended + 1 })
  if (liveGroups s g.block).isEmpty then
    let nb := (s.blockOf g).nb
    let n := s.nbhdOf g
    let s := if n.agent then s else countRunning s n.part n.stage.sid (fun k => k - 1)
    let s := { s with blocks := s.blocks.erase g.block }
    let s := s.updNbhd nb (fun n => { n with left := n.left - 1 })
    if ((s.nbhd? nb).map (·.left)).getD 0 = 0 then removeNb s nb else s
  else s
/-- The first unreported failure of a group's copies, reported (R178). -/
def reportCopy (g : Group) : Option (TrapInfo × Group) :=
  (g.batches.findSome? (fun b => b.fail)).map (fun t =>
    (t, { g with batches := (g.batches.foldl (fun (r : Bool × List Batch) b =>
      if !r.1 && b.fail.isSome then (true, r.2 ++ [{ b with fail := none }]) else (r.1, r.2 ++ [b])) (false, [])).2 }))
/-- Whether the sequencer of a block has still to execute MEXIT (R323). -/
def seqRuns (b : Block) : Bool := (b.seq.map (fun q => !q.exited)).getD false
/-- R322, R323, R178. -/
def execSexit (s : State) : Out :=
  scalarRun false 0 4 [] (fun c sl g =>
    if !(g.drained && g.copied && returned s c sl g) then .park s 11 .ended
    else match reportCopy g with
      | some (t, h) => .trap (s.setGroup c sl h) t
      | none =>
        if seqRuns (s.blockOf g) && (liveGroups s g.block).length == 1 then .park s 11 .seqExit
        else .stay (endGroup s c sl g)) s
/-- R322: the count is read once, at the first issue. -/
def execSpause (a : BitVec 6) (s : State) : Out :=
  scalarRun false 0 4 [a.toNat] (fun c sl g =>
    let n := min (g.field a) 65535
    if n = 0 ∨ g.arrived.isSome then .next s
    else .park (s.updGroup c sl (fun h => { h with arrived := some 0 })) 11 (.clock (s.clock + n))) s

/-! ## The rest of cell 0x28 and the hints -/

/-- R224. -/
def execSfmt (a : BitVec 6) (s : State) : Out :=
  scalarRun false 0 4 [a.toNat] (fun c sl g =>
    .next (s.updGroup c sl (fun h => { h with sfmt := fmtrFix (BitVec.ofNat 32 (g.field a)) }))) s
/-- R34: it reads no register and waits on none. -/
def execShint (s : State) : Out := scalarRun false 0 4 [] (fun _ _ _ => .next s) s
/-- R397. -/
def execProg (n : BitVec 3) (s : State) : Out :=
  scalarRun false 0 4 [] (fun _ _ g => .next (addProgress s (s.nbhdOf g).part n.toNat 1)) s
/-- R393. -/
def execBkpt (code : BitVec 5) (s : State) : Out := scalarRun false 0 4 [] (fun _ _ g => breakpoint g code.toNat 0 s) s
/-- A trial record of the control window: the clock and the progress counters (R396). -/
def trialMark (s : State) (p : Nat) : State :=
  s.updPart p (fun q => { q with trials := q.trials ++ [(s.clock, (List.range 8).map (fun i => q.progress.getD i 0))] })
/-- R396. -/
def execTrialon (a b : BitVec 6) (s : State) : Out :=
  scalarRun false 0 4 [a.toNat, b.toNat] (fun _ _ g =>
    let lo := field (g.field a) 0 32
    let hi := field (g.field a) 32 32
    if hi < lo ∨ 2 ^ 17 ≤ g.field b then .trap s (illegal 4)
    else
      let start := ((s.nbhdOf g).trial.map (·.start)).getD s.clock
      .next ((trialMark s (s.nbhdOf g).part).updNbhd (s.blockOf g).nb (fun n =>
        { n with trial := some { lo, hi, delay := field (g.field b) 0 16, scalar := bit (g.field b) 16, start } }))) s
/-- R396: the elapsed clocks since the trial began, or 0 when none runs. -/
def execTrialoff (d : BitVec 6) (s : State) : Out :=
  scalarRun false 0 4 [d.toNat] (fun c sl g =>
    let t := ((s.nbhdOf g).trial.map (fun t => s.clock - t.start)).getD 0
    let s := (trialMark s (s.nbhdOf g).part).updNbhd (s.blockOf g).nb (fun n => { n with trial := none })
    .next (putS s c sl d t)) s

end Sys2Proof.Machine
end

