-- ==== Sys2Proof/Machine/ScalarMem.lean ====
section
/-! DEFINITION. The scalar accesses SLD, SST, SATOM and SCAS (R138 to R144) and the line operations LINV and LWB (R145). -/

namespace Sys2Proof.Machine
open Bits

/-! ## Accesses -/

/-- The scalar stream as the issuer of an access. -/
def scalarIssuer (s : State) (c sl : Nat) (g : Group) : Issuer :=
  { c, sl, k := 0, scalar := true, pc := g.spc, p := partyOf s c sl g, tm := g.trapMode }
/-- The effective address of a scalar access (R138). -/
def Group.ea (g : Group) (base : BitVec 6) (off : W64) : Nat := (g.s (g.sname base.toNat) + off).toNat
/-- A weak scalar load (R122, R144). -/
def scalarLoad (a : Acc) (c sl : Nat) (g : Group) (s : State) : Res :=
  let i := scalarIssuer s c sl g
  weakAcc i .read a.n apScalar [a] (loadAcc i false) s
/-- A weak scalar store (R122, R144). -/
def scalarStore (a : Acc) (c sl : Nat) (g : Group) (s : State) : Res :=
  let i := scalarIssuer s c sl g
  weakAcc i .write a.n apScalar [a] (storeAcc i false false) s
/-- A scalar access with ORD and OBS; one whose invalidation alone was left is complete (R133, R134). -/
def scalarStrong (what : Nat) (x : SXMem) (a : Acc) (c sl : Nat) (g : Group) (s : State) : Res :=
  if g.arrived = some 1 then .next s
  else strongRun (scalarIssuer s c sl g) what (x.ord.getLsbD 0) (x.ord.getLsbD 1) x.obs.toNat a.n apScalar [a] s
/-- A scalar atomic, weak or strong (R141). -/
def scalarAtomic (x : SXMem) (a : Acc) (c sl : Nat) (g : Group) (s : State) : Res :=
  if x.ord = 0 then
    let i := scalarIssuer s c sl g
    weakAcc i .atomic a.n apScalar [a] (atomAcc i) s
  else scalarStrong 2 x a c sl g s
/-- The load of a scalar word (R144). -/
def loadOf (g : Group) (d a : BitVec 6) (off : W64) (n : Nat) (sgn : Bool) : Acc :=
  { lane := 0, va := g.ea a off, n, conv := .scalar (g.sname d.toNat) n sgn }
/-- The store of a scalar word: the low bytes of S[DST] (R144). -/
def storeOf (g : Group) (d a : BitVec 6) (off : W64) (n : Nat) : Acc :=
  { lane := 0, va := g.ea a off, n, conv := .scalar 0 n false, data := bytesOf n (g.field d) }

/-- R144: 64 bits, weak, offset IMM13. -/
def execSld (d a : BitVec 6) (i : BitVec 13) (s : State) : Out :=
  scalarRun false 0 4 [d.toNat, a.toNat] (fun c sl g => scalarLoad (loadOf g d a (sext64 13 i.toNat) 8 false) c sl g s) s
/-- R144: S[DST] stored, 64 bits, weak, offset IMM13. -/
def execSst (d a : BitVec 6) (i : BitVec 13) (s : State) : Out :=
  scalarRun false 0 4 [d.toNat, a.toNat] (fun c sl g => scalarStore (storeOf g d a (sext64 13 i.toNat) 8) c sl g s) s
/-- R144, R134: WID, SGN, and an acquire where ORD says so. -/
def execSldX (d a : BitVec 6) (x : SXMem) (s : State) : Out :=
  scalarRun false 0 8 [d.toNat, a.toNat] (fun c sl g =>
    let l := loadOf g d a (sext64 20 x.off.toNat) (2 ^ x.wid.toNat) (x.sgn == 1)
    if x.ord = 0 then scalarLoad l c sl g s else scalarStrong 0 x l c sl g s) s
/-- R144, R133: WID, and a release where ORD says so. -/
def execSstX (d a : BitVec 6) (x : SXMem) (s : State) : Out :=
  scalarRun false 0 8 [d.toNat, a.toNat] (fun c sl g =>
    let l := storeOf g d a (sext64 20 x.off.toNat) (2 ^ x.wid.toNat)
    if x.ord = 0 then scalarStore l c sl g s else scalarStrong 1 x l c sl g s) s
/-- R141: signed min and max, the old word zero-extended to S[DST]. -/
def execSatom (d a b : BitVec 6) (op : BitVec 3) (x : SXMem) (s : State) : Out :=
  scalarRun false 0 8 [d.toNat, a.toNat, b.toNat] (fun c sl g =>
    let n := 2 ^ x.wid.toNat
    let l : Acc := { loadOf g d a (sext64 20 x.off.toNat) n false with
      aop := op.toNat, fmt := if n = 4 then 1 else 3, x := g.field b % 2 ^ (8 * n) }
    scalarAtomic x l c sl g s) s
/-- R141: the swap value is written where the word equals the compare value; the old word goes to S[DST]. -/
def execScas (d a b n : BitVec 6) (x : SXMem) (s : State) : Out :=
  scalarRun false 0 8 [d.toNat, a.toNat, b.toNat, n.toNat] (fun c sl g =>
    let w := 2 ^ x.wid.toNat
    let l : Acc := { loadOf g d a (sext64 20 x.off.toNat) w false with
      cas := true, x := g.field b % 2 ^ (8 * w), y := g.field n % 2 ^ (8 * w) }
    scalarAtomic x l c sl g s) s

/-! ## Line operations -/

/-- Where the line of an address lives, whatever its rights; none where its page does not translate (R145). -/
def lineSpot (s : State) (p : Party) (va : Nat) : Option Spot :=
  let l := match pickLeaf (pageKey s va) (cachedLeaves s p.core p.nb.ctx va) with
    | some l => Except.ok l
    | none => walk s p.nb.ctx va
  match l with
  | .error _ => none
  | .ok l =>
    match bit l.entry 8, resolve s p.nb.ctx l va with
    | false, .ok x => some (match x.dev with
      | none => .line x.pa
      | some d => .peer d x.pa)
    | _, _ => none
/-- The lines that overlap n bytes from an address. -/
def linesOver (s : State) (p : Party) (va n : Nat) : List Spot :=
  (List.range ((va + n - 1) / 64 + 1 - va / 64)).filterMap (fun j => lineSpot s p ((va / 64 + j) * 64))
/-- One line written back, and dropped where `drop` says so: in the core's L1 and the die's remote-line partition (R145). -/
def lineOp (c : Nat) (drop : Bool) (r : Bool × State) (x : Spot) : Bool × State :=
  match x with
  | .line pa =>
    let t := if drop then invalidateLine c (pa / 64) r.2 else writeBack c (pa / 64) r.2
    (r.1 && t.1, t.2)
  | .peer d rpa =>
    if drop then (r.1, dropRemote (r.2.updCore c (fun k => { k with l1 := k.l1.erase (peerKey d rpa) })) (dieOf c) (rkey d rpa))
    else (r.1, sendLine r.2 (dieOf c) (rkey d rpa))
  | _ => r
/-- A write-back of a remote line that is not yet placed. -/
def unplaced (s : State) (c : Nat) (x : Spot) : Option Nat :=
  match x with
  | .peer d rpa => (s.requests.find? (fun r => r.kind == 2 && r.st == 0 && r.slot == 48 && dieOf r.core == dieOf c && r.dev == d && r.addr / 256 == rpa / 256)).map (·.id)
  | _ => none
/-- LINV and LWB (R145). -/
def lineRun (drop : Bool) (a b : BitVec 6) (s : State) : Out :=
  scalarRun false 0 4 [a.toNat, b.toNat] (fun c sl g =>
    let va := g.field a
    let n := g.field b
    if n = 0 then .next s
    else if 2 ^ 32 < n then .trap s (illegal 4)
    else if 2 ^ 52 < va + n then .trap s { cause := 6, addr := BitVec.ofNat 64 (max va (2 ^ 52)) }
    else
      let l := linesOver s (partyOf s c sl g) va n
      let r := if g.arrived = some 1 then (true, s) else l.foldl (lineOp c drop) (true, s)
      if !r.1 then .park r.2 11 (.writeBacks c)
      else match l.findSome? (unplaced r.2 c) with
        | some id => .park (r.2.updGroup c sl (fun h => { h with arrived := some 1 })) 11 (.remote id)
        | none => .next r.2) s
/-- R145. -/
def execLinv (a b : BitVec 6) (s : State) : Out := lineRun true a b s
/-- R145. -/
def execLwb (a b : BitVec 6) (s : State) : Out := lineRun false a b s

end Sys2Proof.Machine
end

