-- ==== Sys2Proof/Machine/Barrier.lean ====
section
/-! DEFINITION. Barriers: BAR, NBINIT, NBARR and NBWAIT, with what an arrival and a completed wait do to memory (R129, R291,
Table 13-2, R336, R337, R391). -/

namespace Sys2Proof.Machine
open Bits

/-! ## Carried signatures -/

/-- The signature that an arrival of a party carries: SIG where the party has written and not released since (R129). -/
def carriedSig (s : State) (c bit : Nat) : BitVec 512 :=
  let k := s.core c
  if k.writers.getLsbD bit && !k.released.getLsbD bit then k.sig else 0
/-- A party that completes its wait takes the signature that the phase carried, if any (R129). -/
def takeCarried (s : State) (c bit : Nat) (v : BitVec 512) : State := if v = 0 then s else joinSig s c bit v

/-! ## Numbered barriers -/

/-- A phase flip (R337): COUNT and SQA are cleared, and a pending lowering is done. -/
def Barrier.flip (x : Barrier) : Barrier :=
  { x with phase := 1 - x.phase, count := 0, sqa := false, sql := false, expect := if x.sql then x.expect - 1 else x.expect
           lastSig := x.carried, carried := 0 }
/-- A barrier of a block changed; a flip counts in BPC (R391). -/
def Block.setNb (b : Block) (n : Nat) (x : Barrier) : Block :=
  if x.count = x.expect then { b with nbs := b.nbs.set n x.flip, bpc := (b.bpc + 1) % 2 ^ 32 } else { b with nbs := b.nbs.set n x }
/-- An arrival at a numbered barrier; `seq` is the sequencer's (R337). -/
def Block.nbArrive (b : Block) (n : Nat) (v : BitVec 512) (seq : Bool) : Block :=
  let x := b.nbs.getD n {}
  b.setNb n { x with count := x.count + 1, carried := x.carried ||| v, sqa := x.sqa || seq }
/-- What the sequencer's MEXIT does to one numbered barrier (R337). -/
def Block.nbLeave (b : Block) (n : Nat) : Block :=
  let x := b.nbs.getD n {}
  if x.expect < 2 then b
  else if x.sqa then { b with nbs := b.nbs.set n { x with sql := true } }
  else b.setNb n { x with expect := x.expect - 1 }
/-- R337. -/
def execNbinit (n : BitVec 4) (a : BitVec 6) (s : State) : Out :=
  scalarRun false 0 4 [a.toNat] (fun _ _ g =>
    let x := (s.blockOf g).nbs.getD n.toNat {}
    if g.field a = 0 ∨ 4095 < g.field a then .trap s (illegal 4)
    else if x.count ≠ 0 then .trap s { cause := 0x48, info := 0x11 }
    else .next (s.updBlock g.block (fun b => { b with nbs := b.nbs.set n.toNat { x with expect := g.field a } }))) s
/-- R337: it waits as LSYNC does, arrives, and does not wait. The group's earlier loads are performed before (R291, R292). -/
def execNbarr (n : BitVec 4) (s : State) : Out :=
  scalarRun false 0 4 [] (fun c sl g =>
    if !g.drained then .park s 11 .drained
    else match heldGroup s c sl with
    | some k => .park s 11 (.region k)
    | none => if farLoads s c sl then .park s 11 .farLoads else .next ((bindGroup s c sl).updBlock g.block (fun b => b.nbArrive n.toNat (carriedSig s c sl) false))) s
/-- R337: it parks until PHASE differs from bit 0 of S[a]. -/
def execNbwait (n : BitVec 4) (a : BitVec 6) (s : State) : Out :=
  scalarRun false 0 4 [a.toNat] (fun c sl g =>
    let x := (s.blockOf g).nbs.getD n.toNat {}
    if x.phase = g.field a % 2 then .park s 3 (.nb n.toNat (g.field a % 2)) else .next (takeCarried s c sl x.lastSig)) s

/-! ## Barriers of a partition -/

/-- The number of a core's quad in the module (R3). -/
def quadOf (c : Nat) : Nat := c / 48 * 12 + (c % 48 / 16 * 4 + c % 8 / 2)
/-- The entry of the instance of a scope that holds a core (R30, R336). -/
def barKey (scope c id : Nat) : Nat :=
  let i := match scope with
    | 0 => c
    | 1 => quadOf c
    | 2 => dieOf c
    | _ => 0
  (scope * 512 + i) * 64 + id
def barEntry (s : State) (part key : Nat) : BarEntry := ((s.part? part).map (fun p => p.bars.getD key {})).getD {}
/-- A block whose group arrived in a phase of a BAR entry that is complete. -/
def Block.barDone (key : Nat) (b : Block) : Block :=
  if b.arrivals.contains key then { b with bpc := (b.bpc + 1) % 2 ^ 32, arrivals := b.arrivals.filter (· != key) } else b
/-- A phase of a BAR entry is complete: BPC grows in every block of the partition that arrived, a saved one too (R391). -/
def barCounts (s : State) (part key : Nat) : State :=
  let saved (v : Saved) : Saved := if v.nb.part = part then { v with blocks := v.blocks.map (fun b => (b.1, b.2.barDone key)) } else v
  { s with
    blocks := s.blocks.mapV (fun _ b => if ((s.nbhd? b.nb).map (·.part)) == some part then b.barDone key else b)
    saves := s.saves.mapV (fun _ v => saved v) }
/-- An arrival at an entry, with the signature it carries (R336). -/
def barArrive (s : State) (part key : Nat) (v : BitVec 512) : State :=
  let e := barEntry s part key
  let full := e.count + 1 = e.expect
  let e : BarEntry := if full then { e with phase := 1 - e.phase, count := 0, lastSig := e.carried ||| v, carried := 0 }
    else { e with count := e.count + 1, carried := e.carried ||| v }
  let s := s.updPart part (fun p => { p with bars := p.bars.set key e })
  if full then barCounts s part key else s
/-- A completed wait at a scope (Table 13-2, R129): what runs again after the invalidation performs nothing more. -/
def barWaited (s : State) (c sl scope : Nat) (v : BitVec 512) : Res :=
  if scope = 0 then .next (takeCarried s c sl v)
  else
    let s := purgeL1 c s
    let s := if scope = 4 then fullSig (purgePartition (dieOf c) s) c sl else takeCarried s c sl v
    if invalidating s c (scope == 4) then .park (s.updGroup c sl (fun g => { g with arrived := some 2 })) 11 (.invalidation c (scope == 4))
    else .next s
/-- The steps of R133 that an arrival at a scope performs (Table 13-2); the group's earlier loads are performed before (R291, R292). -/
def barRelease (s : State) (c sl scope : Nat) : Rel :=
  if farLoads s c sl then .wait s 11 .farLoads
  else match heldGroup s c sl, scope with
  | some k, _ => .wait s 11 (.region k)
  | none, 0 => .ok (bindGroup s c sl)
  | none, 4 => releaseSteps s c sl 0b00010
  | none, _ => let r := flushL1 c (bindGroup s c sl); if r.1 then .ok r.2 else .wait r.2 11 (.writeBacks c)
/-- R336. -/
def execBar (d : BitVec 6) (sc : BitVec 3) (s : State) : Out :=
  scalarRun false 0 4 [] (fun c sl g =>
    let scope := sc.toNat
    let part := (s.nbhdOf g).part
    let key := barKey scope c d.toNat
    let e := barEntry s part key
    match g.arrived with
    | some 2 => .next s
    | some p => if e.phase = p then .park s 3 (.bar part key p) else barWaited s c sl scope e.lastSig
    | none =>
      if e.expect = 0 then .trap s { cause := 0x48, info := 0x10 }
      else if !g.drained then .park s 11 .drained
      else match barRelease s c sl scope with
        | .wait s r w => .park s r w
        | .trap s t => .trap s t
        | .ok s =>
          let v := if scope = 4 then 0 else carriedSig s c sl
          let note (b : Block) : Block := if b.arrivals.contains key then b else { b with arrivals := b.arrivals ++ [key] }
          let s := barArrive (s.updBlock g.block note) part key v
          let f := barEntry s part key
          if f.phase = e.phase then .park (s.updGroup c sl (fun g => { g with arrived := some e.phase })) 3 (.bar part key e.phase)
          else barWaited s c sl scope f.lastSig) s

end Sys2Proof.Machine
end

