-- ==== Sys2Proof/Machine/Copy.lean ====
section
/-! DEFINITION. Records that a scalar word reads at issue; the copy instructions, copy batches and operand maps (R164 to R186); the
engines' own steps are among the events. -/

namespace Sys2Proof.Machine
open Bits

/-! ## Records read at issue -/

/-- A record read at issue, or why the word stops (R77, R85, R169, R180, R298). -/
inductive Rec where
  | ok (s : State) (bs : List Byte)
  | stop (r : Res)
  deriving Repr, Inhabited
/-- The peer lines among placed bytes, each as the access of one numbered part. -/
def peerParts (hops : List Hop) : List (Acc × List Hop) :=
  let l := (hops.filterMap (fun h => match h.spot with
    | .peer d rpa => some (d, rpa / 256)
    | _ => none)).dedup
  (List.range l.length).map (fun j =>
    let x := l.getD j (0, 0)
    ({ lane := j, va := 0, n := 1, conv := .scalar 0 1 false }, [⟨0, .peer x.1 (x.2 * 256), none⟩]))
/-- The byte of a record: as a load of the issuing core sees it, or from the answer for its peer line. -/
def recordByte (s : State) (i : Issuer) (parts : List (Acc × List Hop)) (h : Hop) : Byte :=
  match h.spot with
  | .line pa => lineByte s i.c (pa / 64) (pa % 64)
  | .peer d rpa =>
    let mine := parts.find? (fun p => p.2.any (fun x => x.spot == .peer d (rpa / 256 * 256)))
    ((mine.bind (fun p => strongOf s i p.1)).map (fun r => r.data.getD (rpa % 256) 0)).getD 0
  | x => (byteNow s i.c false x).getD 0
/-- The bytes of an access that are read where they live, under the check of that memory, and in no cache (R110, R148). -/
def readThere (s : State) (c : Nat) (hops : List Hop) : List Hop := hops.filter (fun h => h.spot.key.isNone || (byteNow s c false h.spot).isNone)
/-- n bytes of a record at an address, read once by a scalar stream: alignment, aperture, translation, and the check of its bytes (R77,
R111, R148). -/
def readRecord (i : Issuer) (va n align : Nat) (s : State) : Rec :=
  if va % align ≠ 0 then .stop (.trap s { cause := 5, addr := BitVec.ofNat 64 va })
  else match i.p.outside apScalar va n with
  | some a => .stop (.trap s { cause := 6, addr := BitVec.ofNat 64 a })
  | none =>
    match route s i.p .read va n with
    | .error (f, a) => let t := offer s i.stream .read f a 0; .stop (.park t.2 8 (.fault t.1))
    | .ok hops =>
      if !tableRoom s i.c i.sl i.tag (entriesOf hops) then .stop (.park (joinQueue s i.c i.sl i.tag) 6 (.requests (entriesOf hops)))
      else
        let s := keepLeaves (leaveQueue s i.c i.sl i.tag) i.p hops
        let parts := peerParts hops
        let asked := parts.foldl (stepLane (askLane i true none)) { s }
        let s := asked.s
        let held := hops.findSome? (fun h => match h.spot, byteNow s i.c false h.spot with
          | .line pa, none => homeWaits i.me s pa false
          | _, _ => none)
        match asked.wait, strongFails s i (parts.map (·.1)), held with
        | some w, _, _ => .stop (.park s w.1 w.2)
        | none, (_, q) :: _, _ => .stop (.trap { s with requests := s.requests.filter (fun r => !parts.any (fun p => (strongOf s i p.1).any (fun y => y.id == r.id))) } q.fail)
        | none, [], some k => .stop (.park s 11 (.region k))
        | none, [], none =>
          let t := { s with requests := s.requests.filter (fun r => !parts.any (fun p => (strongOf s i p.1).any (fun y => y.id == r.id))) }
          let here := readThere s i.c hops
          match readErr s here with
          | some bad => .stop (.trap t bad)
          | none => .ok (countErrs t (unitsRead here)) (hops.map (recordByte s i parts))

/-! ## Batches -/

/-- The number after a batch number (R173). -/
def nextBatch (n : Nat) : Nat := if n = 2 ^ 32 - 1 then 1 else n + 1
/-- Whether batch b is at or before n (R175). -/
def atOrBefore (b n : Nat) : Bool := decide ((n + 2 ^ 32 - b) % 2 ^ 32 < 2 ^ 31)
/-- A batch that is sealed, complete and has no failure to report is no longer tracked. -/
def tidy (l : List Batch) : List Batch := l.filter (fun b => !(b.sealed && b.left == 0 && b.fail.isNone))
/-- A copy joins the open batch (R173). -/
def Group.join (g : Group) : Group :=
  let n := nextBatch g.bn
  let add (b : Batch) : Batch := if b.num = n then { b with left := b.left + 1 } else b
  if g.batches.any (fun b => b.num == n) then { g with batches := g.batches.map add }
  else { g with batches := g.batches ++ [{ num := n, left := 1, sealed := false, fail := none }] }
/-- A copy of a batch ends (R174). -/
def Group.copyEnds (g : Group) (n : Nat) (fail : Option TrapInfo) : Group :=
  let f (b : Batch) : Batch := if b.num = n then { b with left := b.left - 1, fail := b.fail.or fail } else b
  { g with batches := tidy (g.batches.map f) }
/-- The batches that a CWAIT of n covers (R175). -/
def covers (g : Group) (n : Nat) (b : Batch) : Bool := b.sealed && (n == 0 || !atOrBefore n g.bn || atOrBefore b.num n)
/-- Whether the batches that a CWAIT of n covers are complete. -/
def batchesDone (g : Group) (n : Nat) : Bool := g.batches.all (fun b => !covers g n b || b.left == 0)
/-- The batch sealed 64 seals before the open one (R173). -/
def sealedLong (n : Nat) : Nat := (n + 2 * (2 ^ 32 - 1) - 65) % (2 ^ 32 - 1) + 1
/-- R173: waits as LSYNC does, then while the batch sealed 64 seals earlier is incomplete. -/
def execCseal (d : BitVec 6) (s : State) : Out :=
  scalarRun false 0 4 [d.toNat] (fun c sl g =>
    let n := nextBatch g.bn
    if !g.drained then .park s 7 .drained
    else if g.batches.any (fun b => b.num == sealedLong n && b.sealed && b.left != 0) then .park s 7 (.batch (sealedLong n))
    else
      let shut (b : Batch) : Batch := if b.num = n then { b with sealed := true } else b
      .next (putS (s.updGroup c sl (fun h => { h with bn := n, batches := tidy (h.batches.map shut) })) c sl d n)) s
/-- R175. -/
def execCwait (a : BitVec 6) (s : State) : Out :=
  scalarRun false 0 4 [a.toNat] (fun c sl g =>
    let n := g.field a % 2 ^ 32
    if !batchesDone g n then .park s 7 (.batch n)
    else match g.batches.find? (fun b => covers g n b && b.fail.isSome) with
      | none => .next s
      | some x =>
        let told (b : Batch) : Batch := if b.num = x.num then { b with fail := none } else b
        .trap (s.updGroup c sl (fun h => { h with batches := tidy (h.batches.map told) })) (x.fail.getD default)) s
/-- How many seals lie between two batches; the numbers skip 0 (R173). -/
def sealsBack (bn n : Nat) : Nat := if n ≤ bn then bn - n else bn + (2 ^ 32 - 1) - n
/-- Whether a sealed batch is older than the 64 that a group tracks (R173, R176). -/
def olderThanTracked (g : Group) (n : Nat) : Bool := atOrBefore n g.bn && decide (64 ≤ sealsBack g.bn n)
/-- The number of the oldest batch with an unreported failure (R175). -/
def oldestFailure (g : Group) : Option Nat := (g.batches.find? (fun b => b.sealed && b.fail.isSome)).map (·.num)
/-- The status of a batch (R176). -/
def batchStatus (g : Group) (n : Nat) : Nat :=
  match g.batches.find? (fun b => b.num == n) with
  | some b =>
    if !b.sealed || b.left != 0 then 0
    else match b.fail with
      | some t => if olderThanTracked g n && oldestFailure g != some n then 1 else 2 + 256 * t.cause
      | none => 1
  | none => if n ≠ 0 ∧ g.bn ≠ 0 ∧ atOrBefore n g.bn then 1 else 0
/-- R176. -/
def execCpoll (d a : BitVec 6) (s : State) : Out :=
  scalarRun false 0 4 [d.toNat, a.toNat] (fun c sl g => .next (putS s c sl d (batchStatus g (g.field a % 2 ^ 32)))) s

/-! ## Copies -/

/-- Entries of an engine's queue in use (R164). -/
def engineUsed (s : State) (c eng : Nat) : Nat := ((s.core c).copies.filter (fun x => x.eng == eng)).length
/-- An engine with a free entry. -/
def freeEngine (s : State) (c : Nat) : Nat := if engineUsed s c 0 < 32 then 0 else 1
/-- The rows of a copy, and where row r begins on each side (R170 to R172, R204, R205); of a gather the current row's source is in
`sst1`. -/
def Copy.rows (x : Copy) : Nat := x.n1 * x.n2
def Copy.side (base st1 st2 : W64) (n1 r : Nat) : Nat := (base + BitVec.ofNat 64 (r % n1) * st1 + BitVec.ofNat 64 (r / n1) * st2).toNat
def Copy.from' (x : Copy) : Nat := if x.kind = 2 then x.sst1.toNat else Copy.side x.src x.sst1 x.sst2 x.n1 x.row
def Copy.to (x : Copy) : Nat := Copy.side x.dst x.dst1 x.dst2 x.n1 x.row
/-- Whether a copy reads memory of this module's addresses, and whether it writes them. -/
def Copy.reads (x : Copy) : Bool := x.kind != 4 && x.kind != 7
def Copy.writes (x : Copy) : Bool := x.kind != 3 && x.kind != 6
/-- Whether every row has been moved. -/
def Copy.moved (x : Copy) : Bool := decide (x.rows ≤ x.row)
/-- The party that a copy acts for. -/
def copyParty (s : State) (c : Nat) (x : Copy) : Party := { partyOf s c x.slot ((s.group? c x.slot).getD default) with lane := x.lane }
/-- A copy enters its engine's queue and its group's open batch. -/
def addCopy (s : State) (c sl : Nat) (x : Copy) : State :=
  let batch := ((s.group? c sl).map (fun g => nextBatch g.bn)).getD 0
  let (id, s) := s.newId
  (s.updGroup c sl Group.join).updCore c (fun k => { k with copies := k.copies ++ [{ x with id, slot := sl, batch }] })
/-- The first byte of one side of a box that lies outside one accepted aperture (R165, R170). -/
def spanOutside (p : Party) (accept : Nat) (base : W64) (rowb n1 n2 : Nat) (st1 st2 : W64) : Option Nat :=
  let e1 : Int := (n1 - 1 : Nat) * st1.toInt
  let e2 : Int := (n2 - 1 : Nat) * st2.toInt
  let lo : Int := min 0 e1 + min 0 e2
  let hi : Int := max 0 e1 + max 0 e2
  p.outside accept (ofInt 64 ((base.toNat : Int) + lo)) ((hi - lo).toNat + rowb)
/-- APERTURE at an address. -/
def apertureTrap (a : Nat) : TrapInfo := { cause := 6, addr := BitVec.ofNat 64 a }
/-- A 64-bit field of a record. -/
def wordAt (bs : List Byte) (o : Nat) : W64 := BitVec.ofNat 64 (leAt bs o 8)
/-- R170. -/
def execCpy (a b : BitVec 6) (e : BitVec 1) (m : BitVec 2) (s : State) : Out :=
  scalarRun false 4 4 [a.toNat, b.toNat] (fun c sl g =>
    let i := scalarIssuer s c sl g
    let x := g.field b
    let dims := m.toNat + 1
    let rowb := if dims = 1 then x else x % 2 ^ 24
    let n1 := if dims = 1 then 1 else x / 2 ^ 24 % 2 ^ 20
    let n2 := if dims = 3 then x / 2 ^ 44 else 1
    if (if dims = 1 then x = 0 ∨ 2 ^ 32 < x else rowb = 0 ∨ n1 = 0 ∨ n2 = 0 ∨ (dims = 2 ∧ x / 2 ^ 44 ≠ 0)) then .trap s (illegal 4)
    else match readRecord i (g.field a) (16 * dims) 16 s with
    | .stop r => r
    | .ok s bs =>
      let y : Copy := { id := 0, eng := e.toNat, slot := sl, batch := 0, kind := 1, src := wordAt bs 0, dst := wordAt bs 8, sst1 := wordAt bs 16,
                        dst1 := wordAt bs 24, sst2 := wordAt bs 32, dst2 := wordAt bs 40, rowb, n1, n2, pc := g.spc }
      match (spanOutside i.p apScalar y.src rowb n1 n2 y.sst1 y.sst2).or (spanOutside i.p apScalar y.dst rowb n1 n2 y.dst1 y.dst2) with
      | some v => .trap s (apertureTrap v)
      | none => if 32 ≤ engineUsed s c e.toNat then .park s 11 (.engineRoom e.toNat) else .next (addCopy s c sl y)) s
/-- R171. -/
def execCpyg (a b : BitVec 6) (e x : BitVec 1) (s : State) : Out :=
  scalarRun false 4 4 [a.toNat, b.toNat] (fun c sl g =>
    let i := scalarIssuer s c sl g
    let iwid := if x = 1 then 8 else 4
    match readRecord i (g.field a) 32 16 s with
    | .stop r => r
    | .ok s bs =>
      let elemb := leAt bs 16 4
      let count := leAt bs 20 4
      if elemb = 0 ∨ 4096 < elemb ∨ count = 0 ∨ 2 ^ 20 < count ∨ leAt bs 28 4 ≠ 0 then .trap s (illegal 4)
      else if g.field b % iwid ≠ 0 then .trap s { cause := 5, addr := BitVec.ofNat 64 (g.field b) }
      else
        let y : Copy := { id := 0, eng := e.toNat, slot := sl, batch := 0, kind := 2, src := wordAt bs 0, dst := wordAt bs 8, dst1 := BitVec.ofNat 64 elemb,
                          rowb := elemb, n1 := count, index := BitVec.ofNat 64 (g.field b), iwid, iscale := leAt bs 24 4, pc := g.spc }
        match (i.p.outside apScalar (g.field b) (iwid * count)).or (i.p.outside apScalar y.dst.toNat (elemb * count)) with
        | some v => .trap s (apertureTrap v)
        | none => if 32 ≤ engineUsed s c e.toNat then .park s 11 (.engineRoom e.toNat) else .next (addCopy s c sl y)) s
/-- One lane's copy (R172). -/
def addLaneCopy (i : Issuer) (s : State) (x : Nat × Nat × Nat × Nat) : State :=
  addCopy s i.c i.sl { id := 0, eng := freeEngine s i.c, slot := i.sl, lane := x.1, batch := 0, kind := 5, src := BitVec.ofNat 64 x.2.1, dst := BitVec.ofNat 64 x.2.2.1, rowb := x.2.2.2, pc := i.pc }
/-- R172. -/
def execLcpy (w : L3) (s : State) : Out :=
  laneRun 4 w.prd [srcA w.toLaneHead 2, srcB w.toLaneHead 2, srcC w 1] [] (fun e s =>
    let i := laneIssuer s e
    let arg (k : Nat) : Nat × Nat × Nat × Nat := (k, e.g.vn true w.sa.toNat k, e.g.vn true w.sb.toNat k, (e.g.v w.sc.toNat k).toNat)
    let l := e.acting.map arg
    let mask (l : List (Nat × Nat × Nat × Nat)) : W32 := BitVec.ofNat 32 (maskOf (l.map (·.1)))
    let bad := l.filterMap (fun x =>
      let p : Party := { i.p with lane := x.1 }
      ((p.outside apLane x.2.1 x.2.2.2).or (p.outside apLane x.2.2.1 x.2.2.2)).map (fun v => (x, v)))
    match l.filter (fun x => decide (65536 < x.2.2.2)), bad with
    | x :: xs, _ => .trap s { illegal 4 with mask := mask (x :: xs) }
    | [], (_, v) :: _ => .trap s { apertureTrap v with mask := mask (bad.map (·.1)) }
    | [], [] =>
      if 64 < (s.core e.c).copies.length + l.length then .park s 11 (.engineRoom (2 + l.length))
      else .next ((l.filter (fun x => x.2.2.2 != 0)).foldl (addLaneCopy i) s)) s

/-! ## Operand maps -/

/-- The fields of an operand-map record (Tables 8-5, 8-6). -/
structure OMap where
  base : Nat
  scoff : Int
  ssoff : Nat
  s1 : Int
  s2 : Int
  n0 : Nat
  n1 : Nat
  n2 : Nat
  ctl : Nat
  deriving DecidableEq, Repr, Inhabited
def omapOf (r : BitVec 256) : OMap :=
  let n := r.toNat
  { base := field n 0 64, scoff := toInt 32 (field n 64 32), ssoff := field n 96 32, s1 := toInt 32 (field n 128 32), s2 := toInt 32 (field n 160 32)
    n0 := field n 192 16, n1 := field n 208 16, n2 := field n 224 16, ctl := field n 240 16 }
def OMap.spb (m : OMap) : Bool := bit m.ctl 12
def OMap.fe (m : OMap) : Bool := bit m.ctl 11
def OMap.direct (m : OMap) : Bool := bit m.ctl 10
def OMap.stream (m : OMap) : Nat := field m.ctl 7 3
def OMap.fmt (m : OMap) : Nat := field m.ctl 3 4
def OMap.space (m : OMap) : Nat := field m.ctl 0 3
/-- Formats with scales, and elements that share one scale (R181, Table 8-6). -/
def scaled (fmt : Nat) : Bool := decide (9 ≤ fmt) && decide (fmt ≤ 13)
def scaleBlock (fmt : Nat) : Nat := if fmt = 9 then 64 else 32
/-- Whether a record is outside Tables 8-5 and 8-6 (R180). -/
def OMap.bad (m : OMap) (p : Party) : Bool :=
  decide (2 ^ 13 ≤ m.ctl) || decide (2 < m.space) || m.fmt == 0 || m.n0 == 0 || m.n1 == 0 || m.n2 == 0 ||
  (m.space == 1 && decide (2 ^ 16 ≤ m.base)) || (m.space == 2 && decide (2 ^ 46 ≤ m.base)) ||
  (m.space != 0 && (m.s1 != 0 || m.s2 != 0 || m.n2 != 1)) || (m.direct && m.stream != 0) ||
  (scaled m.fmt && m.n0 % scaleBlock m.fmt != 0) || (!scaled m.fmt && m.scoff != 0) ||
  (m.ssoff != 0 && m.fmt != 9 && !m.spb) || (m.spb && (scaled m.fmt || m.direct || m.ssoff % 16 != 0)) ||
  (m.fe && (m.space != 0 || !bit apGranule (p.ap m.base).1))
/-- Whether a slot is in a feed queue of its block (R182). -/
def feeding (b : Block) (k : Nat) : Bool := b.streams.any (fun x => x.2.feed.any (fun f => f.1 == k))
/-- A map enters its slot and, where it is a stream map, its stream's feed queue (R182). -/
def Block.takeMap (b : Block) (k : Nat) (r : BitVec 256) : Block :=
  let m := omapOf r
  if m.direct then { b with omaps := b.omaps.set k r }
  else if (b.seq.map (·.exited)).getD false then b
  else
    let x := b.streams.getD m.stream {}
    { b with omaps := b.omaps.set k r, streams := b.streams.set m.stream { x with feed := x.feed ++ [(k, r)] } }
/-- R180, R182; in a block without a sequencer it traps ILLEGAL_ROLE (R260). -/
def execOmap (a : BitVec 6) (k : BitVec 4) (s : State) : Out :=
  scalarRun false 4 4 [a.toNat] (fun c sl g =>
    let i := scalarIssuer s c sl g
    if (s.blockOf g).seq.isNone then .trap s { cause := 2 }
    else match readRecord i (g.field a) 32 32 s with
    | .stop r => r
    | .ok s bs =>
      let r : BitVec 256 := pack 256 bs
      if (omapOf r).bad i.p then .trap s (illegal 4)
      else if feeding (s.blockOf g) k.toNat then .park s 11 (.mapSlot k.toNat)
      else .next (s.updBlock g.block (fun b => b.takeMap k.toNat r))) s
/-- Bits of the elements that a stream holds. -/
def OStream.bits (x : OStream) : Nat := x.elems.foldl (fun n e => n + Numbers.elemBits e.fmt) 0
/-- Whether a stream of a sequencer has a read parked at a tile file of this module (R191, R196). -/
def tileParked (s : State) (b k : Nat) : Bool :=
  s.nbhds.any (fun n => n.2.ops.any (fun o => o.strm == .seq (b / 8) (b % 8) && o.tag == 8 + k && o.st == 1))
/-- Whether R183 or R184 stops a stream. -/
def OStream.halted (x : OStream) : Bool := match x.stop with
  | some .bounds | some (.fault _) | some (.fatal _) => true
  | _ => false
/-- The status of a stream (R186); `parked` says that a tile parks it. DESIGN CHOICE: a unit of the FIFO that is not full does not count, and
an answer that a peer still owes parks nothing (log 61). -/
def OStream.status (x : OStream) (parked : Bool) : Nat :=
  x.pos % 2 ^ 32 + 2 ^ 32 * (x.feed.length % 32) + (if x.halted || parked then 2 ^ 40 else 0) + 2 ^ 48 * min 1024 (x.bits / 512)
/-- R186. -/
def execOstat (d : BitVec 6) (k : BitVec 3) (s : State) : Out :=
  scalarRun false 0 4 [d.toNat] (fun c sl g => .next (putS s c sl d (((s.blockOf g).streams.getD k.toNat {}).status (tileParked s g.block k.toNat)))) s

end Sys2Proof.Machine
end

