-- ==== Sys2Proof/Machine/CrossLane.lean ====
section
/-! DEFINITION. The cross-lane instructions (R247 to R251). -/

namespace Sys2Proof.Machine
open Bits Numbers

/-- The lane that a shuffle reads, where it lies in 0 to 31 and contributes (R248). -/
def shflFrom (mode b i : Nat) (contrib : W32) : Option Nat :=
  let x := b % 32
  let src : Option Nat := match mode with
    | 0 => some x
    | 1 => if x ≤ i then some (i - x) else none
    | 2 => if i + x < 32 then some (i + x) else none
    | _ => some (i ^^^ x)
  src.filter (fun k => contrib.getLsbD k)
/-- A shuffle: the values, and PDST where it is not 0. -/
def shuffle (h : LaneHead) (mode : Nat) (srcs : List Src) (b : Group → Nat → Nat) (s : State) : Out :=
  laneRun 2 h.prd srcs [(h.dst.toNat, regsOf h.fmt)] (fun e s =>
    let from? (i : Nat) : Option Nat := shflFrom mode (b e.g i) i e.exec
    let m := e.exec &&& e.keep
    let hit : W32 := BitVec.ofNat 32 (maskOf ((lanesOf e.exec).filter (fun i => (from? i).isSome)))
    .next (s.updGroup e.c e.sl (fun g =>
      let g := g.putLanes (isPair h.fmt) h.dst.toNat m (fun i => e.g.vn (isPair h.fmt) h.sa.toNat ((from? i).getD i))
      if h.pdst = 0 then g else g.setP h.pdst.toNat m hit))) s
/-- R248. -/
def execShfl (w : L3) (s : State) : Out :=
  shuffle w.toLaneHead (w.aux.toNat % 4) [srcA w.toLaneHead (regsOf w.fmt), srcB w.toLaneHead 1] (fun g i => (g.v w.sb.toNat i).toNat) s
/-- R248: the mode sits in RM. -/
def execShflImm (w : LI) (s : State) : Out :=
  shuffle w.toLaneHead w.rm.toNat [srcA w.toLaneHead (regsOf w.fmt)] (fun _ _ => w.imm.toNat) s

/-- R249. -/
def execVote (w : L3) (s : State) : Out :=
  let kind := w.aux.toNat % 4
  let tos := bit w.aux.toNat 5
  laneRun 2 w.prd [] (if kind = 3 ∧ tos = false then [(w.dst.toNat, 1)] else []) (fun e s =>
    let p := e.g.p (w.sa.toNat % 8)
    let r := Flags.vote kind e.exec (if bit w.sa.toNat 3 then ~~~p else p)
    let m := e.exec &&& e.keep
    .next (
      if tos then putTos e w.dst (BitVec.ofNat 64 r) s
      else if kind = 3 then s.updGroup e.c e.sl (fun g => g.putLanes false w.dst.toNat m (fun _ => r))
      else if w.pdst = 0 then s
      else s.updGroup e.c e.sl (fun g => g.setP w.pdst.toNat m (if r = 1 then BitVec.allOnes 32 else 0)))) s

/-- The values of the contributing lanes, identities elsewhere (R250). -/
def contribs (w : L3) (op : Nat) (e : LaneEnv) : List Nat :=
  (List.range 32).map (fun i => if e.exec.getLsbD i then e.g.vn (isPair w.fmt) w.sa.toNat i else Alu.redId w.fmt.toNat op)
/-- A result as S[DST] takes it (R250). -/
def redScalar (fmt : BitVec 4) (x : Nat) : W64 := if fmt = 1 then sext64 32 x else BitVec.ofNat 64 x
/-- R250. -/
def execGred (w : L3) (s : State) : Out :=
  let op := w.aux.toNat % 8
  let tos := bit w.aux.toNat 5
  laneRun 2 w.prd [srcA w.toLaneHead (regsOf w.fmt)] (if tos then [] else [(w.dst.toNat, regsOf w.fmt)]) (fun e s =>
    let r := Alu.tree (Alu.redOp w.fmt.toNat op (modeNoRsr w.rm e.sp.fmtr)) (contribs w op e)
    .next (
      if tos then putTos e w.dst (redScalar w.fmt r) s
      else s.updGroup e.c e.sl (fun g => g.putLanes (isPair w.fmt) w.dst.toNat (e.exec &&& e.keep) (fun _ => r)))) s
/-- R250. -/
def execGscan (w : L3) (s : State) : Out :=
  let op := w.aux.toNat % 8
  laneMap 2 w.toLaneHead (isPair w.fmt) [srcA w.toLaneHead (regsOf w.fmt)]
    (fun e i =>
      let x := Alu.scan (Alu.redOp w.fmt.toNat op (modeNoRsr w.rm e.sp.fmtr)) (contribs w op e)
      if bit w.aux.toNat 3 then (if i = 0 then Alu.redId w.fmt.toNat op else x.getD (i - 1) 0) else x.getD i 0) s

end Sys2Proof.Machine
end

