-- ==== Sys2Proof/Machine/Trans.lean ====
section
/-! DEFINITION. SAPER, PPROBE and TLBI (R90 to R92). -/

namespace Sys2Proof.Machine
open Bits

/-! ## Probes -/

/-- Table 4-1 as SAPER reports it (R90). -/
def apertureWord (p : Party) (va : Nat) : Nat :=
  let x := p.ap va
  let scratch := p.nb.stage.scratch
  match x.1 with
  | 0 => 0
  | 2 => 2 + 256 * (x.2 / scratch) + 2 ^ 32 * (x.2 % scratch)
  | 5 => 5
  | k => k + 2 ^ 32 * x.2
/-- R90. -/
def execSaper (d a : BitVec 6) (s : State) : Out :=
  scalarRun false 0 4 [d.toNat, a.toNat] (fun c sl g => .next (putS s c sl d (apertureWord (partyOf s c sl g) (g.field a)))) s
/-- The kinds of PPROBE. -/
def probeKind (k : Nat) : Access := match k with
  | 0 => .read
  | 1 => .write
  | 2 => .atomic
  | _ => .exec
/-- What a probe of an address finds: the fault if any, the leaf if one was reached, and the place. -/
def probe (s : State) (ctx : Nat) (k : Access) (priv : Bool) (va : Nat) : Option XFault × Option Leaf × Option Place :=
  match walk s ctx va with
  | .error f => (some f, none, none)
  | .ok l => match reach s ctx l va with
    | .error f => (some f, some l, none)
    | .ok p => (permit l.entry k priv, some l, some p)
/-- The status word of PPROBE (R91). Bits 8:4 hold the flags in the order of Table 4-3, R in bit 4 and U in bit 8 (log 58). The member of a
type 4 leaf is given whether or not the access would translate, and is 0 where the stripe set is not well formed (log 58). DESIGN CHOICE:
where the walk reaches no leaf, the flags, X and the level are 0 as TYPE is (log 58). -/
def probeWord (va : Nat) (x : Option XFault × Option Leaf × Option Place) : Nat :=
  let leaf := match x.2.1 with
    | none => 0
    | some l =>
      2 * (l.entry % 8) + 16 * field l.entry 3 5 + 512 * field l.entry 8 1 + 1024 * l.level +
        2 ^ 16 * (if l.entry % 8 = 4 then (stripeMember l va).getD 0 else 0)
  match x.1 with
  | none => leaf + 1
  | some f => leaf + 2 ^ 32 * f.cause + 2 ^ 40 * f.sub
/-- R91: S[d] and S[d + 1]; it fills no translation cache. -/
def execPprobe (d a : BitVec 6) (k : BitVec 2) (s : State) : Out :=
  scalarRun false 0 4 [d.toNat, d.toNat + 1, a.toNat] (fun c sl g =>
    let priv := sl == Config.agentSlot
    let va := g.field a
    if 2 ^ 52 ≤ va then .next (putS (putS s c sl d 0) c sl (d + 1) 0)
    else
      let x := probe s (s.nbhdOf g).ctx (probeKind k.toNat) priv va
      let pa := match x with
        | (none, _, some p) => if priv then p.pa else 0
        | _ => 0
      .next (putS (putS s c sl d (probeWord va x)) c sl (d + 1) pa)) s

/-! ## Invalidating translations -/

/-- Whether a cached leaf maps a byte of a range. -/
def CachedLeaf.meets (l : CachedLeaf) (va n : Nat) : Bool := decide (l.base < va + n) && decide (va < l.base + 2 ^ spanBits l.level)
/-- The member device and the page at it of page j of a stripe-set leaf (R82). -/
def stripePage (l : CachedLeaf) (j : Nat) : Nat × Nat :=
  let e := l.entry.toNat
  let count := leAt l.desc 0 1
  (leAt l.desc (16 + 2 * ((field e 24 4 + j) % count)) 2, leAt l.desc 8 8 / 4096 + field e 28 24 + j / count)
/-- Whether a stripe-set leaf maps a page of a device within a range. -/
def CachedLeaf.maps (l : CachedLeaf) (va n dev page : Nat) : Bool :=
  l.entry.toNat % 8 == 4 && (List.range (2 ^ (9 * l.level))).any (fun j =>
    stripePage l j == (dev, page) && decide (l.base + 4096 * j < va + n) && decide (va < l.base + 4096 * j + 4096))
/-- The cached leaves of the module. -/
def allLeaves (s : State) : List CachedLeaf := s.cores.flatMap (fun c => c.2.tlb) ++ s.dies.flatMap (fun d => d.2.tlb)
/-- The stripe-set leaves that a table of a level holds for a range, in whatever level they stand; `base` is the first address of the table
(R78, R79). -/
def stripeLeaves (s : State) (ctx va n : Nat) : Nat → Nat → Nat → List CachedLeaf
  | 0, base, table => leavesOf 0 base table fun _ _ => []
  | level + 1, base, table => leavesOf (level + 1) base table (stripeLeaves s ctx va n level)
where
  /-- The leaves among the entries of one table that meet the range, with those of the tables below. -/
  leavesOf (level base table : Nat) (below : Nat → Nat → List CachedLeaf) : List CachedLeaf :=
    let span := 2 ^ spanBits level
    let first := (max va base - base) / span
    let last := min ((va + n - 1 - base) / span) (if level = 3 then 8191 else 511)
    (List.range (last + 1 - first)).flatMap (fun i =>
      let e := tableWord s (table + 8 * (first + i))
      let at' := base + span * (first + i)
      if (entryFault e level).isSome then []
      else match e % 8 with
        | 1 => below at' (field e 12 40 * 4096)
        | 4 => [{ ctx, base := at', level, entry := BitVec.ofNat 64 e, desc := leafDesc s (s.ctx ctx) e }]
        | _ => [])
/-- Whether a line of a remote-line partition lies in what the stripe-set leaves of a context map of a range: those that are cached and
those of its tables (R92). -/
def stripedLine (s : State) (ctx va n k : Nat) : Bool :=
  (((allLeaves s).filter (fun l => l.ctx == ctx && l.meets va n)) ++ stripeLeaves s ctx va n 3 0 (s.ctx ctx).ptroot.toNat).any
    (fun l => l.maps va n (k / 2 ^ 44) (k % 2 ^ 44 / 16))

/-- Translations that a test names dropped from every cache; lines of the remote-line partitions that a second test names written
back and dropped (R92). -/
def dropLeaves (s : State) (gone : CachedLeaf → Bool) (line : Nat → Bool) : State :=
  let s := s.dies.foldl (fun s d => (d.2.rlines.keys.filter line).foldl (fun s k => dropRemote s d.1 k) s) s
  { s with
    cores := s.cores.mapV (fun _ k => { k with tlb := k.tlb.filter (fun l => !gone l) })
    dies := s.dies.mapV (fun _ d => { d with tlb := d.tlb.filter (fun l => !gone l) }) }
/-- The context of the group in a slot. -/
def ctxOfSlot (s : State) (c sl : Nat) : Option Nat := (s.group? c sl).map (fun g => (s.nbhdOf g).ctx)
/-- The contexts that a TLBI concerns: the one that it names, or from 2 ^ 32 on every one that shares the table of stripe sets with it. -/
def concerns (s : State) (who : Nat) (x : Option Nat) : Bool :=
  match x with
  | none => false
  | some x => if who < 2 ^ 32 then x == who else (s.ctx x).sstbase == (s.ctx (who - 2 ^ 32)).sstbase
def flushAll (s : State) : Bool × State := s.cores.foldl (fun r c => let t := flushL1 c.1 r.2; (r.1 && t.1, t.2)) (true, s)
/-- Whether a TLBI waits for a store of the group in a slot, by the group's key: one that has ended may have been of any context. -/
def storeConcerns (s : State) (who key : Nat) : Bool := let x := ctxOfSlot s (key / 48) (key % 48); x.isNone || concerns s who x
/-- Whether accesses of the contexts that a TLBI concerns are still on their way to their homes: loads, remote accesses, and stores that an
L1 or a remote-line partition holds (R92, R126). -/
def accessing (s : State) (who : Nat) : Bool :=
  !(flushAll s).1 || s.cores.any (fun k => k.2.loads.any (fun l => concerns s who (ctxOfSlot s k.1 l.slot))) ||
  s.requests.any (fun r => r.st == 0 && decide (r.kind < 3) && (decide (48 ≤ r.slot) || concerns s who (ctxOfSlot s r.core r.slot) ||
    (r.kind == 2 && storeConcerns s who (r.core * 48 + r.slot)))) ||
  s.dies.any (fun d => d.2.rlines.any (fun l => l.2.dirty != 0 && l.2.writers.any (storeConcerns s who)))
/-- The end of a TLBI: it waits until the accesses of the contexts that it concerns are performed or placed. -/
def tlbiWait (s : State) (c sl who : Nat) : Res :=
  let s := (flushAll s).2
  if accessing s who then .park (s.updGroup c sl (fun g => { g with arrived := some 1 })) 11 (.accesses who) else .next s
/-- A TLBI of the issuing context, privileged; `sset` where it concerns the contexts that share its table of stripe sets. -/
def tlbiRun (sset : Bool) (regs : List Nat) (f : Group → Nat → State → Option State) (s : State) : Out :=
  scalarRun true 0 4 regs (fun c sl g =>
    let ctx := (s.nbhdOf g).ctx
    let who := ctx + (if sset then 2 ^ 32 else 0)
    if g.arrived = some 1 then tlbiWait s c sl who
    else match f g ctx s with
      | none => .next s
      | some s => tlbiWait s c sl who) s
/-- R92: a length of 0 completes at once. -/
def execTlbiRange (a b : BitVec 6) (s : State) : Out :=
  tlbiRun false [a.toNat, b.toNat] (fun g ctx s =>
    let va := g.field a
    let n := g.field b
    if n = 0 then none
    else some (dropLeaves s (fun l => l.ctx == ctx && l.meets va n) (stripedLine s ctx va n))) s
/-- R92. -/
def execTlbiCtx (s : State) : Out := tlbiRun false [] (fun _ ctx s => some (dropLeaves s (fun l => l.ctx == ctx) (fun _ => false))) s
/-- R92: the entries of every context that shares the table of stripe sets. -/
def execTlbiSset (a : BitVec 6) (s : State) : Out :=
  tlbiRun true [a.toNat] (fun g ctx s =>
    let same (x : Nat) : Bool := (s.ctx x).sstbase == (s.ctx ctx).sstbase
    some (dropLeaves s (fun l => same l.ctx && l.entry.toNat % 8 == 4 && field l.entry.toNat 12 12 == g.field a % 4096) (fun _ => false))) s

end Sys2Proof.Machine
end

