-- ==== Sys2Proof/Machine/Fabric.lean ====
section
/-! DEFINITION. Keyed remote memory access and FLUSHP: RMPUT, RMGET, RMATOM, RMFLUSH, KEYSET, KEYREV (R105 to R119). -/

namespace Sys2Proof.Machine
open Bits

/-! ## Descriptors -/

/-- An RMA descriptor (Table 5-7). -/
structure Rma where
  laddr : Nat
  roff : Nat
  key : Nat
  dev : Nat
  bad : Bool
  deriving DecidableEq, Repr, Inhabited
def rmaOf (bs : List Byte) : Rma :=
  { laddr := leAt bs 0 8, roff := leAt bs 8 8, key := leAt bs 16 4, dev := leAt bs 20 2 % 16384, bad := leAt bs 20 2 / 16384 != 0 || leAt bs 22 10 != 0 }
/-- REMOTE_NACK with a subcode (Table 5-4). -/
def remoteNack (sub addr : Nat) : TrapInfo := { cause := 0x20, info := BitVec.ofNat 64 sub, addr := BitVec.ofNat 64 addr }

/-! ## Channels -/

/-- The key of the channel of a device and a key index (R107). -/
def chanKey (dev key : Nat) : Nat := dev * 2 ^ 32 + key
/-- A group holds the channel from its first RMPUT on it. -/
def holdChan (s : State) (k who : Nat) : State :=
  let x := s.chans.getD k {}
  { s with chans := s.chans.set k (if x.holders.contains who then x else { x with holders := x.holders ++ [who] }) }
/-- Segments of RMPUT on a channel that are not acknowledged. -/
def chanBusy (s : State) (k : Nat) : Bool := s.requests.any (fun r => r.kind == 3 && r.st == 0 && chanKey r.dev r.key == k)
/-- A channel that no group holds and that has nothing in flight closes: the source sends a close (R107). -/
def closeChan (s : State) (k : Nat) : State :=
  let x := s.chans.getD k {}
  if x.openNow && x.holders.isEmpty && !chanBusy s k then
    let (id, s) := s.newId
    { s with
      chans := s.chans.set k { x with openNow := false, seqNo := 0 }
      requests := s.requests ++ [{ id, kind := 7, dev := k / 2 ^ 32, core := 0, slot := 50, addr := 0, key := k % 2 ^ 32, inc := x.inc, since := s.clock }] }
  else s

/-! ## RMPUT, RMGET and RMATOM -/

/-- The copy of an RMPUT (kind 6) or RMGET (kind 7). -/
def rmaCopy (kind sl eng n : Nat) (pc : W64) (x : Rma) : Copy :=
  let near := BitVec.ofNat 64 x.laddr
  let far := BitVec.ofNat 64 x.roff
  { id := 0, eng, slot := sl, batch := 0, kind, src := if kind = 6 then near else far, dst := if kind = 6 then far else near, rowb := n, dev := x.dev, key := x.key, pc }
/-- R114: the descriptor is read once at issue, and the copy joins the open batch. -/
def rmaRun (kind : Nat) (a b : BitVec 6) (e : BitVec 1) (s : State) : Out :=
  scalarRun false 4 4 [a.toNat, b.toNat] (fun c sl g =>
    let i := scalarIssuer s c sl g
    let n := g.field b
    if n = 0 ∨ 2 ^ 24 < n then .trap s (illegal 4)
    else match readRecord i (g.field a) 32 32 s with
    | .stop r => r
    | .ok s bs =>
      let x := rmaOf bs
      if x.bad then .trap s (illegal 4)
      else match i.p.outside apScalar x.laddr n with
      | some v => .trap s (apertureTrap v)
      | none =>
        if 32 ≤ engineUsed s c e.toNat then .park s 11 (.engineRoom e.toNat)
        else
          let s := if kind = 6 then holdChan s (chanKey x.dev x.key) (c * 48 + sl) else s
          .next (addCopy s c sl (rmaCopy kind sl e.toNat n g.spc x))) s
/-- R114. -/
def execRmput (a b : BitVec 6) (e : BitVec 1) (s : State) : Out := rmaRun 6 a b e s
/-- R114. -/
def execRmget (a b : BitVec 6) (e : BitVec 1) (s : State) : Out := rmaRun 7 a b e s
/-- The RMATOM of a scalar stream that has been sent. -/
def rmatomOf (s : State) (i : Issuer) : Option Request :=
  s.requests.find? (fun r => r.kind == 5 && r.core == i.c && r.slot == i.sl && r.split == i.tag)
/-- R115: sent to the target's home; the scalar stream waits for the response. `op` is AOP, or 8 for a compare and swap. DESIGN CHOICE: TADDR
of a misaligned ROFF, which is no generic address, is ROFF itself (log 61). The request takes an entry of the request table (R137). -/
def rmatomRun (d a b : BitVec 6) (w : BitVec 1) (op : Nat) (s : State) : Out :=
  scalarRun false 0 4 [d.toNat, a.toNat, b.toNat] (fun c sl g =>
    let i := scalarIssuer s c sl g
    let n := if w = 1 then 8 else 4
    match rmatomOf s i with
    | some r =>
      let t := { s with requests := s.requests.filter (fun q => q.id != r.id) }
      if r.st = 0 then .park s 11 (.remote r.id)
      else if r.st = 1 then .next (putS t c sl d (ofBytes (r.data.take n)))
      else .trap t r.fail
    | none =>
      match readRecord i (g.field a) 32 32 s with
      | .stop r => r
      | .ok s bs =>
        let x := rmaOf bs
        if x.bad then .trap s (illegal 4)
        else if x.roff % n ≠ 0 then .trap s { cause := 5, addr := BitVec.ofNat 64 x.roff }
        else if !tableRoom s c sl i.tag 1 then .park (joinQueue s c sl i.tag) 6 (.requests 1)
        else
          let (id, s) := (leaveQueue s c sl i.tag).newId
          let q : Request := { id, kind := 5, dev := x.dev, core := c, slot := sl, addr := x.roff, key := x.key, since := s.clock, split := i.tag,
                               op := op + 16 * n + 256 * (if n = 4 then 1 else 3), x := g.field b % 2 ^ (8 * n), y := g.field d % 2 ^ (8 * n),
                               fail := remoteNack 0 x.laddr }
          .park { s with requests := s.requests ++ [q] } 11 (.remote id)) s
/-- R115. -/
def execRmatom (d a b : BitVec 6) (w : BitVec 1) (op : BitVec 3) (s : State) : Out := rmatomRun d a b w op.toNat s
/-- R115. -/
def execRmatomCas (d a b : BitVec 6) (w : BitVec 1) (s : State) : Out := rmatomRun d a b w 8 s

/-! ## RMFLUSH and FLUSHP -/

/-- A device number that names no module of the system (R116). -/
def absent (dev : Nat) : Bool := decide (257 ≤ dev / 32) || !Config.present dev
/-- RMPUT copies and segments, and RMATOMs, of a group to a device that are neither placed nor failed (R116). -/
def rmaPending (s : State) (c sl dev : Nat) : Bool :=
  (s.core c).copies.any (fun x => x.slot == sl && x.kind == 6 && x.dev == dev) ||
  s.requests.any (fun r => r.st == 0 && r.dev == dev &&
    ((r.kind == 3 && r.writers.contains (c * 48 + sl)) || (r.kind == 5 && r.core == c && r.slot == sl)))
/-- A group's hold on its channels to a device ends (R107, R116). -/
def endHolds (s : State) (dev who : Nat) : State :=
  let leave (k : Nat) (x : Chan) : Chan := if k / 2 ^ 32 = dev then { x with holders := x.holders.filter (· != who) } else x
  let s := { s with chans := s.chans.mapV leave }
  (s.chans.keys.filter (fun k => k / 2 ^ 32 == dev)).foldl closeChan s
/-- R116. -/
def execRmflush (a : BitVec 6) (s : State) : Out :=
  scalarRun false 0 4 [a.toNat] (fun c sl g =>
    let dev := g.field a % 16384
    if dev = s.devnum.toNat ∨ absent dev then .trap s (remoteNack 2 0)
    else if rmaPending s c sl dev then .park s 11 (.rma (some dev))
    else
      let s := endHolds s dev (c * 48 + sl)
      match g.rmaFail.find? (fun f => f.1 == dev) with
      | none => .next s
      | some f => .trap (s.updGroup c sl (fun g => { g with rmaFail := g.rmaFail.filter (fun f => f.1 != dev) })) f.2) s
/-- R119: it waits as LSYNC does, then for the group's posted stores to the device. -/
def execFlushp (a : BitVec 6) (s : State) : Out :=
  scalarRun false 0 4 [a.toNat] (fun c sl g =>
    let dev := g.field a % 16384
    if !g.drained then .park s 11 .drained
    else
      let s := sendContrib s c (some dev)
      if postedPending s c sl (some dev) then .park s 11 (.posted (some dev))
      else match takePosted s c sl (some dev) with
        | some (t, s) => .trap s t
        | none => .next s) s

/-! ## Keys -/

/-- The trap of a page that is not a page leaf in local HBM with the requested rights (R117): the cause and the subcode that PPROBE would
report; for a page that grants them and is of another kind, which PPROBE would pass, the model reports TRANSLATION 0x02 (log 58). -/
def keyFault (s : State) (ctx rights : Nat) (priv : Bool) (va : Nat) : Option TrapInfo :=
  let kinds := (if bit rights 0 then [Access.read] else []) ++ (if bit rights 1 then [.write] else []) ++ (if bit rights 2 then [.atomic] else [])
  kinds.findSome? (fun k => match probe s ctx k priv va with
    | (some f, _, _) => some (f.trap va 0)
    | (none, some l, some p) => if l.entry % 8 = 2 ∧ isHbm p.pa then none else some (({ cause := 0x10, sub := 2, level := l.level } : XFault).trap va 0)
    | _ => some (({ cause := 0x10, sub := 2 } : XFault).trap va 0))
/-- The lowest entry of a key table that holds no valid key; entry 0 is never allocated (R105). -/
def freeKey (p : Part) : Option Nat := ((List.range 4096).drop 1).find? (fun k => ((p.keys.get? k).map (·.revoked)).getD true)
/-- R117; of a range that leaves the global window, for which PPROBE reports no cause, the model traps APERTURE (log 58). -/
def execKeyset (d a b : BitVec 6) (r : BitVec 3) (s : State) : Out :=
  scalarRun false 0 4 [d.toNat, a.toNat, b.toNat] (fun c sl g =>
    let va := g.field a
    let n := g.field b
    let nb := s.nbhdOf g
    let first := va / 4096
    if va % 64 ≠ 0 ∨ n % 64 ≠ 0 ∨ n = 0 ∨ 2 ^ 40 < n then .trap s (illegal 4)
    else if 2 ^ 52 < va + n then .trap s (apertureTrap (max va (2 ^ 52)))
    else match (List.range ((va + n + 4095) / 4096 - first)).findSome? (fun j => keyFault s nb.ctx r.toNat (sl == Config.agentSlot) (max va ((first + j) * 4096))) with
    | some t => .trap s t
    | none => match s.part? nb.part with
      | none => .next (putS s c sl d 0)
      | some p => match freeKey p with
        | none => .next (putS s c sl d 0)
        | some e =>
          let tag := (p.keyTag + 1) % 65536
          let s := s.updPart nb.part (fun p => { p with keyTag := tag, keys := p.keys.set e { tag, ctx := nb.ctx, vbase := va, len := n, rights := r.toNat } })
          .next (putS s c sl d (tag * 65536 + nb.part * 4096 + e))) s
/-- The key of a target channel: source device and key index. -/
def tchanKey (dev key : Nat) : Nat := dev * 2 ^ 32 + key
/-- R118, R109: the entry is revoked and every channel of the key closes; it may then be allocated again. -/
def execKeyrev (a : BitVec 6) (s : State) : Out :=
  scalarRun false 0 4 [a.toNat] (fun _ _ g =>
    let k := g.field a % 2 ^ 32
    let nb := s.nbhdOf g
    let mine := (s.part? nb.part).bind (fun p => (p.keys.get? (k % 4096)).bind (fun e =>
      if e.tag = k / 65536 ∧ k / 4096 % 16 = nb.part ∧ e.ctx = nb.ctx ∧ !e.revoked ∧ g.field a < 2 ^ 32 then some e else none))
    match mine with
    | none => .trap s (remoteNack 1 0)
    | some e =>
      let s := s.updPart nb.part (fun p => { p with keys := p.keys.set (k % 4096) { e with revoked := true } })
      .next { s with tchans := s.tchans.keep (fun t _ => t % 2 ^ 32 != k) }) s

end Sys2Proof.Machine
end

