-- ==== Sys2Proof/Machine/Queue.lean ====
section
/-! DEFINITION. Queues: their headers, rings and spill segments, the append of a run, and ENQ and ENQD (R341 to R349). -/

namespace Sys2Proof.Machine
open Bits

/-! ## Queue headers -/

/-- A queue header (Table 16-1). -/
structure QHdr where
  head : Nat
  rtail : Nat
  tail : Nat
  ring : Nat
  spseg : Nat
  scap : Nat
  log2 : Nat
  flags : Nat
  consumer : Nat
  deriving DecidableEq, Repr, Inhabited
def qhdr (s : State) (a : Nat) : QHdr :=
  let r (o n : Nat) : Nat := Memory.le s.mem (a + o) n
  { head := r 0 8, rtail := r 8 8, tail := r 16 8, ring := r 24 8, spseg := r 32 8, scap := r 40 4, log2 := r 44 1, flags := r 45 1, consumer := r 46 2 }
/-- What changes of HEAD, RTAIL and TAIL written back. -/
def putHdr (w : Who) (s : State) (a : Nat) (h : QHdr) : State :=
  let old := qhdr s a
  let put (o x y : Nat) : List (Nat × Byte) := if x = y then [] else cellsAt (a + o) (bytesOf 8 y)
  s.putBy w (put 0 old.head h.head ++ put 8 old.rtail h.rtail ++ put 16 old.tail h.tail)
/-- The backlog (R343). -/
def QHdr.backlog (h : QHdr) : Nat := h.tail - h.head
/-- Records that the spill segment can hold; none where spill is not permitted. -/
def QHdr.spill (h : QHdr) : Nat := if bit h.flags 1 then h.scap else 0
/-- The room for a run: a record goes to the ring only while the spill is empty (R347). -/
def QHdr.room (h : QHdr) : Nat :=
  if h.rtail < h.tail then h.spill - (h.tail - h.rtail) else (2 ^ h.log2 - (h.rtail - h.head)) + h.spill
/-- The addresses of a record and of its stamp in the ring and in the spill (R343, R344). -/
def QHdr.ringAt (h : QHdr) (n : Nat) : Nat × Nat :=
  (h.ring + 64 * (n % 2 ^ h.log2), h.ring + 64 * 2 ^ h.log2 + 8 * (n % 2 ^ h.log2))
def QHdr.spillAt (h : QHdr) (n : Nat) : Nat × Nat :=
  let k := if h.scap = 0 then 0 else n % h.scap
  (h.spseg + 64 * k, h.spseg + 64 * h.scap + 8 * k)
/-- A record and its stamp at two addresses. -/
def putRecord (w : Who) (s : State) (a : Nat × Nat) (r : BitVec 512) (stamp : Nat) : State :=
  (s.putBy w (cellsAt a.1 (unpack r))).putBy w (cellsAt a.2 (bytesOf 8 stamp))
/-- A record as a queue holds it: bits 15:0 of word 0 name the consumer stage (R342). -/
def stampSid (sid : Nat) (r : BitVec 512) : BitVec 512 := (r &&& ~~~(0xFFFF : BitVec 512)) ||| BitVec.ofNat 512 (sid % 2 ^ 16)
/-- One record appended, by its writer (R347). -/
def appendOne (stamp : Nat) (x : State × QHdr) (y : BitVec 512 × Who) : State × QHdr :=
  let h := x.2
  let r := stampSid h.consumer y.1
  if h.rtail = h.tail ∧ h.rtail - h.head < 2 ^ h.log2 then
    (putRecord y.2 x.1 (h.ringAt h.tail) r stamp, { h with rtail := h.rtail + 1, tail := h.tail + 1 })
  else (putRecord y.2 x.1 (h.spillAt h.tail) r stamp, { h with tail := h.tail + 1 })
/-- A run appended at its home in one step, where it has room (R347); the stamp says when, and whether from a peer (R344). The header is
written by the writer of its last record. -/
def appendRun (s : State) (hdr : Nat) (recs : List (BitVec 512)) (peer : Bool) (whos : List Who := []) : Option State :=
  let h := qhdr s hdr
  if h.room < recs.length then none
  else
    let x := (recs.zipIdx.map (fun y => (y.1, whos.getD y.2 unitWho))).foldl (appendOne (s.clock % 2 ^ 63 + (if peer then 2 ^ 63 else 0))) (s, h)
    some (putHdr (whos.getLast?.getD unitWho) x.1 hdr x.2)
/-- Record n of the ring with its stamp. -/
def ringRecord (s : State) (h : QHdr) (n : Nat) : BitVec 512 × Nat :=
  (pack 512 (Memory.read s.mem (h.ringAt n).1 64), Memory.le s.mem (h.ringAt n).2 8)
/-- The n records from HEAD, taken (R352). -/
def dequeue (w : Who) (s : State) (hdr n : Nat) : List (BitVec 512 × Nat) × State :=
  let h := qhdr s hdr
  ((List.range n).map (fun i => ringRecord s h (h.head + i)), putHdr w s hdr { h with head := h.head + n })

/-! ## Runs on their way -/

/-- The queue of a partition with an id. -/
def queueOf (s : State) (part q : Nat) : Option Queue := (s.part? part).bind (fun p => p.queues.get? q)
/-- The key of the outbound queue for a device and a remote queue (R408). -/
def outKey (part dev q : Nat) : Nat := (part * 16384 + dev) * 65536 + q
def outboundOf (s : State) (part dev q : Nat) : Outbound := s.outbound.getD (outKey part dev q) { part, queue := q, dev, recs := [] }
/-- Whether a queue is homed on this device. -/
def Queue.here (s : State) (q : Queue) : Bool := !q.remote || q.dev == s.devnum.toNat
/-- A run that leaves its stream: it waits for its home, or for its outbound queue, in arrival order (R347, R348). -/
def sendRun (s : State) (x : Run) : State :=
  let (id, s) := s.newId
  { s with runs := s.runs ++ [{ x with id }] }
/-- The deposit that a run with `.rel` makes on its header's line as it is appended (R349). -/
def runDeposit (s : State) (hdr : Nat) (x : Run) : State :=
  match x.rel with
  | none => s
  | some c => clearSig (deposit s hdr x.sig) c
/-- The records of a run as an outbound queue holds them: each carries the signature of a run with `.rel` to its home (R348, R349). -/
def outRecords (clock : Nat) (x : Run) : List (Nat × BitVec 512 × Option (BitVec 512)) := x.recs.map (fun r => (clock, r, x.rel.map (fun _ => x.sig)))
/-- A run admitted: appended at a home of this module, or entered in its outbound queue of 4,096 records. -/
def admitRun (s : State) (x : Run) : Option State :=
  match queueOf s x.part x.queue with
  | none => none
  | some q =>
    if q.here s then (appendRun s q.hdr x.recs false x.whos).map (fun s => runDeposit s q.hdr x)
    else
      let o := outboundOf s x.part q.dev x.queue
      if 4096 < o.recs.length + x.recs.length then none
      else
        let s := { s with outbound := s.outbound.set (outKey x.part q.dev x.queue) { o with recs := o.recs ++ outRecords s.clock x } }
        some (match x.rel with
          | none => s
          | some c => clearSig s c)

/-! ## ENQ and ENQD -/

/-- A split as runs name it; a split of a trap lane block has a name of its own. -/
def LaneEnv.runner (e : LaneEnv) : StreamId := .split e.c e.sl (e.k + (if e.g.trapMode then 8 else 0))
/-- The record of a lane: sixteen registers (R342, R345). -/
def recordOf (g : Group) (r lane : Nat) : BitVec 512 :=
  (List.range 16).foldl (fun v k => v ||| ((g.v (r + k) lane).setWidth 512 <<< (32 * k))) 0
/-- W[n] of the lane block in turn. -/
def LaneEnv.w (e : LaneEnv) (n : Nat) : Nat := ((((e.g.lanes).map LaneBlock.ws).getD []).getD n 0).toNat
/-- The queue that an OUTQ index names (R345); none for QUEUE_CONFIG 0x01. -/
def outQueue (s : State) (e : LaneEnv) (j : Nat) : Option Nat :=
  let st := (s.nbhdOf e.g).stage
  let q := st.outs.getD j 0xFFFF
  if st.nout ≤ j ∨ q = 0xFFFF ∨ (queueOf s (s.nbhdOf e.g).part q).isNone then none else some q
/-- The lanes of each queue, one run for each (R346). -/
def byQueue (l : List (Nat × Nat)) : List (Nat × List Nat) :=
  ((l.map (·.2)).dedup).map (fun q => (q, (l.filter (fun x => x.2 == q)).map (·.1)))
/-- The enqueue of records by lanes with their queues; none where a lane's index names no queue. A word that has sent its runs waits for
them, and is complete when all are appended (R346). -/
def enqueue (w : L3) (e : LaneEnv) (lanes : List (Nat × Option Nat)) (s : State) : Res :=
  let m := e.exec &&& e.keep
  let part := (s.nbhdOf e.g).part
  let mine (x : Run) : Bool := x.strm == some e.runner
  if s.runs.any mine then
    (match s.runs.filter (fun x => mine x && !x.done) with
      | [] => .next { s with runs := s.runs.filter (fun x => !mine x) }
      | x :: _ => .park s 11 (.queue part x.queue))
  else if lanes.isEmpty then .next s
  else if lanes.any (fun l => l.2.isNone) then .trap s { cause := 0x48, info := 1, mask := m }
  else
    let rel := w.ord == 2
    match (if rel then releaseSteps s e.c e.sl w.obs.toNat else .ok s : Rel) with
    | .wait s r c => .park s r c
    | .trap s t => .trap s { t with mask := m }
    | .ok s =>
      let sig := (s.core e.c).sig
      let s := if rel then releaseBit s e.c e.sl else s
      let runs := byQueue (lanes.map (fun l => (l.1, l.2.getD 0)))
      let send (s : State) (x : Nat × List Nat) : State := sendRun s
        { id := 0, part, queue := x.1, recs := x.2.map (recordOf e.g w.sa.toNat), strm := some e.runner, cmd := none,
          rel := if rel then some e.c else none, sig := if rel then sig else 0, whos := x.2.map (fun i => ((laneIssuer s e).who i).later s) }
      let s := runs.foldl send s
      .park (updSplit s e.c e.sl e.k (fun x => { x with unfinished := some m })) 11 (.queue part ((runs.head?.map (·.1)).getD 0))
/-- R345. -/
def execEnq (w : L3) (s : State) : Out :=
  laneRun 2 w.prd [srcA w.toLaneHead 16] [] (fun e s =>
    enqueue w e (e.acting.map (fun i => (i, outQueue s e (e.w (w.aux.toNat % 4) % 8)))) s) s
/-- R346. -/
def execEnqd (w : L3) (s : State) : Out :=
  laneRun 2 w.prd [srcA w.toLaneHead 16, srcB w.toLaneHead 1] [] (fun e s =>
    let j (i : Nat) : Nat := (e.g.v w.sb.toNat i).toNat % 8
    let on := e.acting.filter (fun i => bit (e.w (w.aux.toNat % 4)) (j i))
    enqueue w e (on.map (fun i => (i, outQueue s e (j i)))) s) s

end Sys2Proof.Machine
end

