-- ==== Sys2Proof/Machine/Launch.lean ====
section
/-! DEFINITION. Placing and seeding blocks: the room of a core, allocations of the scratchpad, group slots, and the blocks of a
launch (R69, R146, R147, R149, R211, R212, R257, R317, R337, R352, R355). -/

namespace Sys2Proof.Machine
open Bits

/-! ## The scratchpad of a core -/

/-- The bytes that a block of a stage takes on its core (R146). -/
def Stage.alloc (t : Stage) : Nat := t.scratch + (if t.tileFile then t.reserve else 0)
def blockStage (s : State) (b : Block) : Stage := ((s.nbhd? b.nb).map (·.stage)).getD default
/-- The blocks of a core, and the allocations they hold: base, bytes and block, by rising base. -/
def coreBlocks (s : State) (c : Nat) : List (Nat × Block) := s.blocks.filter (fun b => b.1 / 8 == c)
def allocs (s : State) (c : Nat) : List (Nat × Nat × Nat) :=
  ((coreBlocks s c).map (fun b => (b.2.base, (blockStage s b.2).alloc, b.1))).mergeSort (fun x y => decide (x.1 ≤ y.1))
/-- Table entries whose keys lie in a range, moved; what lay at their new place is gone. -/
def moveKeys {α : Type} (m : NMap α) (a b n : Nat) : NMap α :=
  let mine := m.filter (fun x => decide (a ≤ x.1) && decide (x.1 < a + n))
  let rest := m.filter (fun x => !(decide (a ≤ x.1) && decide (x.1 < a + n)) && !(decide (b ≤ x.1) && decide (x.1 < b + n)))
  mine.foldl (fun m x => NMap.set m (x.1 - a + b) x.2) rest
/-- The same, with the entries kept at their old place as well where nothing moved over them. -/
def copyKeys {α : Type} (m : NMap α) (a b n : Nat) : NMap α :=
  (m.filter (fun x => decide (a ≤ x.1) && decide (x.1 < a + n))).foldl (fun m x => NMap.set m (x.1 - a + b) x.2)
    (m.filter (fun x => !(decide (b ≤ x.1) && decide (x.1 < b + n))))
/-- A wait for a granule, where the granule has moved. -/
def moveWait (c a b n : Nat) (w : WaitCond) : WaitCond :=
  match w with
  | .granule x g due => if x = c ∧ a ≤ g ∧ g < a + n then .granule x (g - a + b) due else .granule x g due
  | w => w
def moveSplit (c a b n : Nat) (x : Split) : Split := { x with park := x.park.map (fun p => { p with cond := moveWait c a b n p.cond }) }
def moveLanes (c a b n : Nat) (l : LaneBlock) : LaneBlock := { l with splits := l.splits.map (moveSplit c a b n) }
def moveGroup (c a b n : Nat) (g : Group) : Group := { g with lb := g.lb.map (moveLanes c a b n), tlb := g.tlb.map (moveLanes c a b n) }
def moveSeq (c a b n : Nat) (q : Seq) : Seq := { q with park := q.park.map (fun p => { p with cond := moveWait c a b n p.cond }) }
/-- A resident allocation moved, with its full/empty bits and its waiters; no byte and no offset changes (R146). The bytes that it leaves
still hold what its context wrote, and still count as written by it (R147). -/
def moveAlloc (s : State) (c : Nat) (x : Nat × Nat × Nat) (base : Nat) : State :=
  if x.1 = base then s
  else
    let o := c * Config.spadBytes
    let bytes := Memory.read s.spad (o + x.1) x.2.1
    let n := (x.2.1 + 15) / 16
    let a := (o + x.1) / 16
    let b := (o + base) / 16
    let mv (w : Waiter) : Waiter := if a ≤ w.granule ∧ w.granule < a + n then { w with granule := w.granule - a + b, addr := w.addr - x.1 + base } else w
    let s := { s with
      spad := Memory.write s.spad (cellsAt (o + base) bytes)
      spadCtx := copyKeys s.spadCtx (o + x.1) (o + base) x.2.1
      full := moveKeys s.full a b n
      groups := s.groups.mapV (fun _ g => moveGroup c a b n g)
      blocks := s.blocks.mapV (fun _ x => { x with seq := x.seq.map (moveSeq c a b n) }) }
    (s.updCore c (fun k => { k with waits := k.waits.map mv })).updBlock x.2.2 (fun b => { b with base })
/-- The allocations of a core moved together, so that its free bytes form one range. -/
def packAllocs (c : Nat) : Nat → List (Nat × Nat × Nat) → State → State
  | _, [], s => s
  | base, x :: l, s => packAllocs c (roundUp (base + x.2.1) 256) l (moveAlloc s c x base)
/-- The end of the last allocation, rounded. -/
def allocEnd (l : List (Nat × Nat × Nat)) : Nat := l.foldl (fun n x => max n (roundUp (x.1 + x.2.1) 256)) 0
/-- A free range of n bytes among allocations. -/
def freeBase (l : List (Nat × Nat × Nat)) (n : Nat) : Option Nat :=
  (0 :: l.map (fun x => roundUp (x.1 + x.2.1) 256)).find? (fun b =>
    decide (b + n ≤ Config.spadBytes) && l.all (fun x => decide (x.1 + x.2.1 ≤ b) || decide (b + n ≤ x.1)))
/-- A free range found on a core, after a move where none is free (R146). -/
def takeBase (s : State) (c n : Nat) : Nat × State :=
  match freeBase (allocs s c) n with
  | some b => (b, s)
  | none =>
    let s := packAllocs c 0 (allocs s c) s
    (allocEnd (allocs s c), s)
/-- The bytes of a new allocation: EMPTY granules, and zero where another context wrote last (R147). -/
def clearAlloc (s : State) (c base n ctx : Nat) : State :=
  let o := c * Config.spadBytes + base
  let inside (a : Nat) : Bool := decide (o ≤ a) && decide (a < o + n)
  let other := (s.spadCtx.filter (fun x => inside x.1 && x.2 != ctx)).map (·.1)
  { s with
    spad := Memory.write s.spad (other.map (fun a => (a, 0)))
    spadCtx := s.spadCtx.keep (fun a x => !(inside a && x != ctx))
    full := s.full.keep (fun g _ => !inside (16 * g)) }

/-! ## Room -/

/-- Group slots with the lane registers that their groups hold (R212). -/
def slotUse (s : State) (c : Nat) : List (Nat × Nat) :=
  (s.groups.filter (fun g => g.1 / 48 == c && g.1 % 48 != 47)).map (fun g => (g.1 % 48, roundUp (s.nbhdOf g.2).stage.vregs 16))
/-- The lowest free slot of a half with room for v registers. -/
def freeGroupSlot (use : List (Nat × Nat)) (v : Nat) : Option Nat :=
  (List.range 47).find? (fun k =>
    !use.any (fun u => u.1 == k) &&
    decide ((use.filter (fun u => u.1 % 2 == k % 2)).foldl (fun n u => n + u.2) v ≤ (if k % 2 = 0 then 2048 else 1984)))
/-- Slots for n groups of v registers, and the slots in use then. -/
def takeSlots (v : Nat) : Nat → List (Nat × Nat) → Option (List Nat × List (Nat × Nat))
  | 0, use => some ([], use)
  | n + 1, use =>
    match freeGroupSlot use v with
    | none => none
    | some k => match takeSlots v n (use ++ [(k, v)]) with
      | none => none
      | some (l, use) => some (k :: l, use)
/-- The stages reserved on a core by other agents (R355). -/
def reservedOn (s : State) (part own c : Nat) (cores : Nat → Stage → List Nat) : List Stage :=
  match s.part? part with
  | none => []
  | some p => (p.reserved.filter (fun r => r.1 != own)).filterMap (fun r =>
    (p.stages.get? r.2).bind (fun t => if (cores r.1 t).contains c then some t else none))
/-- The cores of a stage's rectangle anchored at a core, in cluster order; none where it leaves the die (R149). -/
def rectangle (anchor : Nat) (t : Stage) : List Nat :=
  let r0 := anchor % 48 / 8
  let c0 := anchor % 8
  if 6 < r0 + t.rows ∨ 8 < c0 + t.cols then []
  else (List.range (t.rows * t.cols)).map (fun k => anchor / 48 * 48 + (r0 + k / t.cols) * 8 + c0 + k % t.cols)
/-- The slots that a core can give the groups of one more block of a stage, if it can take it (R146, R212, R353, R355). -/
def coreRoom (s : State) (part own c : Nat) (t : Stage) : Option (List Nat) :=
  let held := reservedOn s part own c rectangle
  let mine := ((s.part? part).map (fun p => (partCores p).contains c)).getD false && !bit (s.mgmt.cdis.getD (dieOf c) 0) (c % 48)
  let bytes := (allocs s c).foldl (fun n x => n + x.2.1) 0 + held.foldl (fun n t => n + t.alloc) 0
  if !mine || decide (8 ≤ (coreBlocks s c).length + held.length) || decide (Config.spadBytes < bytes + t.alloc) then none
  else
    let use := held.foldl (fun (u : Option (List (Nat × Nat))) t => u.bind (fun l => (takeSlots (roundUp t.vregs 16) t.groups l).map (·.2))) (some (slotUse s c))
    use.bind (fun l => (takeSlots (roundUp t.vregs 16) t.groups l).map (·.1))
/-- Whether the cores of a neighbourhood that is being saved or restored are among some cores (R372). -/
def savingCores (s : State) (cores : List Nat) : Bool :=
  s.saveOps.any (fun o => !o.restore && (s.blocks.any (fun b => b.2.nb == o.nb && cores.contains (b.1 / 8))))
/-- The slots of every core of a rectangle, or none where some core cannot take its block. -/
def rectRoom (s : State) (part own anchor : Nat) (t : Stage) : Option (List (Nat × List Nat)) :=
  let l := (rectangle anchor t).map (fun c => (coreRoom s part own c t).map (fun k => (c, k)))
  if l.isEmpty || l.any (·.isNone) || savingCores s (rectangle anchor t) then none else some (l.filterMap id)

/-! ## Seeds -/

/-- The generator state that a seed gives position i (R69). -/
def seedAt (v i : Nat) : W32 :=
  let x : W32 := BitVec.ofNat 32 v ^^^ BitVec.ofNat 32 (i * 0x9E3779B9)
  if x = 0 then 1 else x
def seedLanes (v : Nat) : NMap W32 := (List.range 32).map (fun i => (i, seedAt v i))
/-- The seed of a group at launch (R69). -/
def launchSeed (ticket g : Nat) : Nat := 0x2A5C1D3B ^^^ ((16 * ticket + g) % 2 ^ 32)

/-! ## Blocks -/

/-- What a launch gives every block: its records (none listed for a direct launch), its argument where direct, its queue and the
sequence number of HEAD. -/
structure Seeds where
  direct : Bool
  ticket : Nat
  recs : List (BitVec 512) := []
  arg : BitVec 512 := 0
  qid : Nat := 0xFFFF
  head : Nat := 0
  acq : Option (Nat × Nat) := none
  deriving DecidableEq, Repr, Inhabited
/-- The records of block k. -/
def Seeds.ofBlock (x : Seeds) (t : Stage) (k : Nat) : List (BitVec 512) := (x.recs.drop (32 * t.groups * k)).take (32 * t.groups)
/-- Word k of a record. -/
def recWord (r : BitVec 512) (k : Nat) : W32 := r.extractLsb' (32 * k) 32
/-- A group at launch (R211, R317, R352, Table 16-4). -/
def launchGroup (t : Stage) (x : Seeds) (bkey k g : Nat) : Group :=
  let block := x.ofBlock t k
  let mine := (block.drop (32 * g)).take 32
  let first := if block.isEmpty then x.head + x.recs.length else x.head + 32 * t.groups * k
  let s14 : NMap W64 := [(1, BitVec.ofNat 64 block.length), (2, BitVec.ofNat 64 (x.ticket + k)), (3, BitVec.ofNat 64 k),
    (4, BitVec.ofNat 64 (if x.direct then 0 else first)), (5, BitVec.ofNat 64 x.qid)]
  let regs := (List.range mine.length).flatMap (fun i => (List.range 16).map (fun n => (n * 32 + i, recWord (mine.getD i 0) n)))
  { block := bkey, gidx := g, spc := t.sentry, sregs := s14, vregs := regs.foldl (fun m w => NMap.set m w.1 w.2) [], ssp := t.lslice,
    live := if x.direct then BitVec.allOnes 32 else BitVec.ofNat 32 (2 ^ mine.length - 1), rng := seedLanes (launchSeed (x.ticket + k) g) }
/-- A block's sequencer at launch (R69, R257, R352). DESIGN CHOICE: two blocks with sequencers on one core each have their own accumulators and
their own three matrix units; whether they share a core's is left open (log 55). -/
def launchSeq (t : Stage) (x : Seeds) (k : Nat) : Seq :=
  let r : BitVec 512 := if x.direct then x.arg else (x.ofBlock t k).headD (BitVec.ofNat 512 t.sid)
  { qs := (List.range 16).map (fun n => (n, recWord r n)), rng := seedAt (launchSeed (x.ticket + k) 0) 32 }
/-- A block at launch (R337). -/
def launchBlock (t : Stage) (x : Seeds) (nb k base : Nat) (slots : List Nat) : Block :=
  { nb, k, ticket := BitVec.ofNat 64 (x.ticket + k), groups := slots, base
    nbs := (List.range 16).map (fun n => (n, { expect := t.groups + (if t.seq then 1 else 0) }))
    seq := if t.seq then some (launchSeq t x k) else none }
/-- The lowest free block slot of a core, as a block key. -/
def freeBlock (s : State) (c : Nat) : Nat := c * 8 + ((List.range 8).find? (fun k => (s.block? (c * 8 + k)).isNone)).getD 0
/-- The launch acquire of one group (R129, R349): a group whose invalidation is not complete waits for it before its first word. -/
def launchAcquire (s : State) (c sl : Nat) (x : Seeds) : State :=
  match x.acq with
  | none => s
  | some (line, obs) =>
    let s := acquire s c sl obs [line] []
    if invalidating s c (hasPH obs) then s.updGroup c sl (fun g => { g with park := some ⟨11, .invalidation c (hasPH obs)⟩ }) else s
/-- One block placed on its core, with its groups in their slots. -/
def placeBlock (t : Stage) (x : Seeds) (nb : Nat) (s : State) (k : Nat) (at' : Nat × List Nat) : State :=
  let c := at'.1
  let r := takeBase s c t.alloc
  let s := clearAlloc r.2 c r.1 t.alloc t.ctx
  let bkey := freeBlock s c
  let s := s.setBlock bkey (launchBlock t x nb k r.1 at'.2)
  let s := (List.range at'.2.length).foldl (fun s g => s.setGroup c (at'.2.getD g 0) (launchGroup t x bkey k g)) s
  at'.2.foldl (fun s sl => launchAcquire s c sl x) s
/-- The lowest tile-file handle that no live neighbourhood holds (R187). -/
def freeHandle (s : State) : Nat :=
  ((List.range (s.nbhds.length + s.saves.length + 1)).find? (fun h => !s.nbhds.any (fun n => n.2.handle == h) && !s.saves.any (fun v => v.2.nb.handle == h))).getD 0
/-- The backing area of a new neighbourhood of a stage: the first of the areas that the driver has laid one after the other which no live or
saved neighbourhood of the stage uses (DESIGN CHOICE, log 54). -/
def freeBacking (s : State) (part : Nat) (t : Stage) : Nat :=
  let used (a : Nat) : Bool :=
    s.nbhds.any (fun n => n.2.part == part && n.2.stage.sid == t.sid && n.2.backBase == a) || s.saves.any (fun v => v.2.nb.part == part && v.2.nb.stage.sid == t.sid && v.2.nb.backBase == a)
  t.backAt + t.area * ((List.range (s.nbhds.length + s.saves.length + 1)).find? (fun i => !used (t.backAt + t.area * i))).getD 0
/-- A neighbourhood placed on the cores of a rectangle. -/
def place (s : State) (part anchor : Nat) (t : Stage) (x : Seeds) (cores : List (Nat × List Nat)) (cmd : Option Nat) : State :=
  let (nb, s) := s.newId
  let n : Nbhd := { die := anchor / 48, row := anchor % 48 / 8, col := anchor % 8, stage := t, part, ctx := t.ctx, left := cores.length, handle := freeHandle s, backBase := freeBacking s part t, cmd }
  let s := countRunning { s with nbhds := s.nbhds.set nb n } part t.sid (· + cores.length)
  (List.range cores.length).foldl (fun s k => placeBlock t x nb s k (cores.getD k (0, []))) s

end Sys2Proof.Machine
end

