-- ==== Sys2Proof/Machine/Graph.lean ====
section
/-! DEFINITION. Counters and the scheduling rule: CTRADD, CTRWAIT, TICKET, DIFFMAX and LAUNCH (R351 to R361, R408). -/

namespace Sys2Proof.Machine
open Bits

/-! ## Counters -/

/-- QUEUE_CONFIG with a subcode (Table 16-8). -/
def queueConfig (sub : Nat) : TrapInfo := { cause := 0x48, info := BitVec.ofNat 64 sub }
/-- The address of a counter of a partition; none at or above CTRCOUNT (R356). -/
def counterAt (s : State) (part i : Nat) : Option Nat :=
  (s.part? part).bind (fun p => if i < p.ctrcount.toNat then some (p.ctrbase.toNat + 8 * i) else none)
/-- An unsigned addition to a counter that saturates (R356). -/
def counterAdd (s : State) (w : Who) (a n : Nat) : State :=
  if backed s a 8 && !inPool s a then s.perform w (cellsAt a (bytesOf 8 (min (tableWord s a + n) (2 ^ 64 - 1)))) else s
/-- SNAP_REGION of a writer to a shadow pool (R300). -/
def poolTrap : TrapInfo := { cause := 0x3B, info := 8 }
/-- R359; a counter in a shadow pool is not written (R300). -/
def execCtradd (a b : BitVec 6) (o : BitVec 5) (s : State) : Out :=
  scalarRun false 0 4 [a.toNat, b.toNat] (fun c sl g =>
    match counterAt s (s.nbhdOf g).part (g.field a % 2 ^ 32) with
    | none => .trap s (queueConfig 3)
    | some x =>
      let who := (scalarIssuer s c sl g).who 255
      if inPool s x then .trap s poolTrap
      else if o = 0 then .next (counterAdd s who x (g.field b))
      else match releaseSteps s c sl o.toNat with
        | .wait s r w => .park s r w
        | .trap s t => .trap s t
        | .ok s => .next (released (deposit (counterAdd s who x (g.field b)) x (s.core c).sig) c sl)) s
/-- R359: an acquire with a mask reads the counter's line. -/
def execCtrwait (a b : BitVec 6) (o : BitVec 5) (s : State) : Out :=
  scalarRun false 0 4 [a.toNat, b.toNat] (fun c sl g =>
    let part := (s.nbhdOf g).part
    match counterAt s part (g.field a % 2 ^ 32) with
    | none => .trap s (queueConfig 3)
    | some x =>
      if g.arrived = some 1 then .next s
      else if tableWord s x < g.field b then .park s 11 (.counter part (g.field a % 2 ^ 32) (g.field b))
      else if o = 0 then .next s
      else
        let s := acquire s c sl o.toNat [x / 64] []
        if invalidating s c (hasPH o.toNat) then finishWait (scalarIssuer s c sl g) s (.invalidation c (hasPH o.toNat)) else .next s) s
/-- R360. -/
def execTicket (d a b : BitVec 6) (s : State) : Out :=
  scalarRun false 0 4 [d.toNat, a.toNat, b.toNat] (fun c sl g =>
    if g.field b = 0 ∨ 65536 < g.field b then .trap s (illegal 4)
    else match counterAt s (s.nbhdOf g).part (g.field a % 2 ^ 32) with
    | none => .trap s (queueConfig 3)
    | some x => if inPool s x then .trap s poolTrap else .next (putS (counterAdd s ((scalarIssuer s c sl g).who 255) x (g.field b)) c sl d (tableWord s x))) s

/-! ## The scheduling rule -/

/-- A queue's entry in the summary table of a die (R357). -/
def summaryOf (s : State) (die part q : Nat) : Option Summary := (s.die die).summaries.get? (part * 65536 + q)
def backlogOf (s : State) (die part q : Nat) : Nat := ((summaryOf s die part q).map (·.backlog)).getD 0
/-- The age of a queue's head record: the reported age plus the clocks since the report (R357). -/
def ageOf (s : State) (die part q : Nat) : Nat :=
  ((summaryOf s die part q).map (fun x => x.age + (s.clock - x.since))).getD 0
/-- The key of a device's report on a stage (kind 0) or a queue (kind 1). -/
def reportKey (part kind i dev : Nat) : Nat := ((part * 2 + kind) * 65536 + i) * 16384 + dev
/-- The last reports of every device on a stage or a queue. -/
def reportsOf (s : State) (die part kind i : Nat) : List Report :=
  ((s.die die).reports.filter (fun r => r.1 / 16384 == reportKey part kind i 0 / 16384)).map (·.2)
/-- The input queues of a stage, those that are homed on this device (R408), and its output queues. -/
def insOf (t : Stage) : List Nat := t.ins.take t.nin
def insHere (s : State) (part : Nat) (t : Stage) : List Nat :=
  (insOf t).filter (fun q => ((queueOf s part q).map (Queue.here s)).getD false)
def outsOf (t : Stage) : List Nat := (t.outs.take t.nout).filter (· != 0xFFFF)
/-- The backlog of an output queue: for one homed on a peer, its outbound backlog as well (R354). -/
def outBacklog (s : State) (die part q : Nat) : Nat :=
  let far := match queueOf s part q with
    | some x => if x.here s then 0 else (outboundOf s part x.dev q).recs.length
    | none => 0
  min (backlogOf s die part q + far) (2 ^ 23 - 1)
def backlogIn (s : State) (die part : Nat) (t : Stage) : Nat := (insHere s part t).foldl (fun n q => n + min (backlogOf s die part q) (2 ^ 23 - 1)) 0
/-- Whether the upstream of a stage is quiescent, over all its input queues (R353, case 3). -/
def upstreamQuiet (s : State) (die part : Nat) (t : Stage) : Bool :=
  let ins := insOf t
  let stages := ((s.part? part).map (·.stages)).getD []
  stages.all (fun u => !(outsOf u.2).any (fun q => ins.contains q) ||
    (!(reportsOf s die part 0 u.1).any (·.running) && (insOf u.2).all (fun q => backlogOf s die part q == 0))) &&
  ins.all (fun q => !(reportsOf s die part 1 q).any (fun r => r.outbound || r.feeding))
/-- Whether a stage is eligible at a core (R353): B_in counts the input queues homed here alone (R408), the age and the upstream take all. -/
def eligible (s : State) (part core : Nat) (t : Stage) : Bool :=
  let die := dieOf core
  let n := (insHere s part t).foldl (fun n q => n + backlogOf s die part q) 0
  decide (1 ≤ t.nin) && (rectRoom s part core core t).isSome && (
    decide (t.batch ≤ n) ||
    (t.linger != 0 && decide (1 ≤ n) && (insOf t).any (fun q => decide (1 ≤ backlogOf s die part q) && decide (t.linger ≤ ageOf s die part q))) ||
    (decide (1 ≤ n) && upstreamQuiet s die part t))
/-- The differential of a stage (R354), in 1/256 units. -/
def differential (s : State) (die part : Nat) (t : Stage) : Int :=
  let bout := (outsOf t).foldl (fun m q => max m (outBacklog s die part q)) 0
  t.weight * ((min (backlogIn s die part t) (2 ^ 23 - 1) : Int) - bout)
/-- The eligible stage with the largest positive differential, ties to the lower index (R354, R360). -/
def bestStage (s : State) (part core lo hi : Nat) : Option (Int × Nat) :=
  (((s.part? part).map (·.stages)).getD []).foldl (fun r t =>
    if lo ≤ t.1 ∧ t.1 ≤ hi ∧ (insHere s part t.2).isEmpty = false ∧ eligible s part core t.2 then
      let d := differential s (dieOf core) part t.2
      match r with
      | none => if 0 < d then some (d, t.1) else none
      | some y => if y.1 < d then some (d, t.1) else r
    else r) none
/-- R360, R408. -/
def execDiffmax (d a b : BitVec 6) (s : State) : Out :=
  scalarRun true 0 4 [d.toNat, a.toNat, b.toNat] (fun c sl g =>
    let v := match bestStage s (s.nbhdOf g).part c (g.field a % 65536) (g.field b % 65536) with
      | none => 0
      | some (x, i) => 2 ^ 63 + x.toNat % 2 ^ 40 * 65536 + i
    .next (putS s c sl d v)) s

/-! ## Launching -/

/-- The input queue of a launch: the one with the largest summary backlog, ties to the lower IN index (R352). -/
def pickQueue (s : State) (die part : Nat) (t : Stage) : Option Nat :=
  ((insHere s part t).foldl (fun (r : Option (Nat × Nat)) q =>
    let n := backlogOf s die part q
    match r with
    | none => some (n, q)
    | some y => if y.1 < n then some (n, q) else r) none).map (·.2)
/-- The queue at whose home a launch of an agent's core already waits. -/
def waitsAt (s : State) (part c : Nat) : Option Nat :=
  (s.part? part).bind (fun p => (p.queues.find? (fun q => q.2.deq.contains c)).map (·.1))
/-- A reservation and a place among the dequeues that wait, taken up and given up. -/
def holdPlace (s : State) (part c sid q : Nat) : State :=
  let join (x : Queue) : Queue := if x.deq.contains c then x else { x with deq := x.deq ++ [c] }
  s.updPart part (fun p => { p with reserved := p.reserved.set c sid, queues := p.queues.modify join q })
def freePlace (s : State) (part c : Nat) : State :=
  let leave (_ : Nat) (x : Queue) : Queue := { x with deq := x.deq.filter (· != c) }
  s.updPart part (fun p => { p with reserved := p.reserved.erase c, queues := p.queues.mapV leave })
/-- The records that a dequeue takes, and whether the ring holds them and no earlier dequeue waits (R350, R352). -/
def wanted (s : State) (hdr : Nat) (t : Stage) : Nat := min (qhdr s hdr).backlog (32 * t.groups * t.rows * t.cols)
def dequeueReady (s : State) (q : Queue) (c : Nat) (t : Stage) : Bool :=
  let h := qhdr s q.hdr
  ((q.deq.takeWhile (· != c)).isEmpty) && decide (wanted s q.hdr t ≤ h.rtail - h.head)
/-- The launch of a stage from the records of a queue of this device (R349, R352, R355, R361). -/
def launchFrom (s : State) (c sl part sid qid : Nat) (d : BitVec 6) (t : Stage) (q : Queue) (ticket : Nat) (cores : List (Nat × List Nat)) : Res :=
  if !dequeueReady s q c t then .park (holdPlace s part c sid qid) 11 (.queue part qid)
  else
    let n := wanted s q.hdr t
    let s := freePlace s part c
    if n = 0 then .next (putS s c sl d 2)
    else
      let head := (qhdr s q.hdr).head
      let r := dequeue ((scalarIssuer s c sl ((s.group? c sl).getD default)).who 255) s q.hdr n
      let peer := r.1.any (fun x => Nat.testBit x.2 63)
      let x : Seeds := { direct := false, ticket, recs := r.1.map (·.1), qid, head, acq := some (q.hdr / 64, if peer then 0b11110 else 0b11100) }
      .next (putS (place r.2 part c t x cores none) c sl d (256 * n))
/-- R361: the dequeuing form. -/
def execLaunch (d a b : BitVec 6) (s : State) : Out :=
  scalarRun true 0 4 [d.toNat, a.toNat, b.toNat] (fun c sl g =>
    let part := (s.nbhdOf g).part
    let sid := g.field a % 65536
    match (s.part? part).bind (fun p => p.stages.get? sid) with
    | none => .next (putS s c sl d 3)
    | some t =>
      match rectRoom s part c c t with
      | none => .next (putS (freePlace s part c) c sl d 1)
      | some cores =>
        match (waitsAt s part c).or (pickQueue s (dieOf c) part t) with
        | none => .next (putS s c sl d 2)
        | some qid => match queueOf s part qid with
          | none => .next (putS (freePlace s part c) c sl d 2)
          | some q => launchFrom s c sl part sid qid d t q (g.field b) cores) s
/-- The direct-launch request that a launch serves: the oldest of its die for the stage and the argument (R354, R362). -/
def servedRequest (s : State) (die part sid : Nat) (arg : BitVec 512) : Option Direct :=
  (s.die die).direct.find? (fun x => x.part == part && x.sid == sid && x.arg == arg)
/-- R361: the direct form, with the launch block at S[b]. -/
def execLaunchDirect (d a b : BitVec 6) (s : State) : Out :=
  scalarRun true 0 4 [d.toNat, a.toNat, b.toNat] (fun c sl g =>
    let part := (s.nbhdOf g).part
    let sid := g.field a % 65536
    match (s.part? part).bind (fun p => p.stages.get? sid) with
    | none => .next (putS s c sl d 3)
    | some t =>
      match readRecord (scalarIssuer s c sl g) (g.field b) 72 1 s with
      | .stop r => r
      | .ok s bs =>
        match rectRoom s part c c t with
        | none => .next (putS s c sl d 1)
        | some cores =>
          let arg := pack 512 (bs.drop 8)
          let cmd := servedRequest s (dieOf c) part sid arg
          let s := s.updDie (dieOf c) (fun x => { x with direct := match cmd with
            | some y => x.direct.erase y
            | none => x.direct })
          .next (putS (place s part c t { direct := true, ticket := leAt bs 0 8, arg } cores (cmd.map (·.cmd))) c sl d 0)) s

end Sys2Proof.Machine
end

