-- ==== Sys2Proof/Machine/Tile.lean ====
section
/-! DEFINITION. The shared tile file: tile words, the judgement of a home (Table 9-3), and the instructions TDEF, TRDS, TKILL,
TQRY, TDEFV and TRD (R187 to R209). -/

namespace Sys2Proof.Machine
open Bits Numbers

/-! ## Tile words -/

/-- The fields of a tile word (Table 9-1). -/
def tileFmt (w : Nat) : Nat := field w 28 4
def tileCols (w : Nat) : Nat := field w 22 6 + 1
def tileRows (w : Nat) : Nat := field w 16 6 + 1
def rowBytes (w : Nat) : Nat := tileCols w * elemBits (tileFmt w) / 8
def tileSize (w : Nat) : Nat := rowBytes w * tileRows w
/-- A shape that Table 9-2 and R189 do not allow. -/
def shapeBad (w : Nat) : Bool :=
  (decide (9 ≤ tileFmt w) && decide (tileFmt w ≤ 13)) || (elemBits (tileFmt w) == 6 && tileCols w % 4 != 0) ||
  (elemBits (tileFmt w) == 4 && tileCols w % 2 != 0) || decide (16384 < tileSize w)
/-- A tile trap: the subcode, and the tile word in bits 47:16 (Table 17-2). -/
def tileTrap (cause sub w : Nat) : TrapInfo := { cause, info := BitVec.ofNat 64 (sub + 65536 * w) }
/-- Element (r, c) of a tile's value. -/
def tileElem (w : Nat) (value : List Byte) (r c : Nat) : Nat := elemAt (tileFmt w) ((value.drop (r * rowBytes w)).take (rowBytes w)) c
/-- The pairings of Table 9-6. -/
def tilePair (tf mfmt fmt : Nat) : Bool :=
  match tf with
  | 0 | 14 => mfmt == 0 && (fmt == 0 || fmt == 1 || fmt == 2 || fmt == 5)
  | 15 => mfmt == 0 && (fmt == 3 || fmt == 4 || fmt == 8)
  | _ => mfmt == tf

/-! ## The home -/

/-- Reads of a name that are accepted and not complete (R190, R191). -/
def outstanding (n : Nbhd) (name : Nat) : Nat :=
  (n.ops.filter (fun o => o.kind == 0 && o.counted && o.word % 4096 == name)).foldl (fun k o => k + o.n) 0
/-- The bytes charged against the backing area (R193). -/
def charged (n : Nbhd) : Nat := n.tiles.foldl (fun k t => if t.2.st = 0 then k else k + roundUp (tileSize t.2.word) 256) 0
/-- The core of a stream. -/
def coreOf : StreamId → Nat
  | .scalar c _ => c
  | .split c _ _ => c
  | .seq c _ => c
/-- The first byte of a tile's rows, laid out from an address with a pitch, that lies outside the accepted apertures. -/
def rowsOutside (p : Party) (accept w dst pitch : Nat) : Option Nat :=
  (List.range (tileRows w)).findSome? (fun r => p.outside accept ((dst + r * (if pitch = 0 then rowBytes w else pitch)) % 2 ^ 64) (rowBytes w))
/-- The party of a tile operation. -/
def partyOfStream (s : State) : StreamId → Party
  | .scalar c sl => partyOf s c sl ((s.group? c sl).getD default)
  | .split c sl _ => partyOf s c sl ((s.group? c sl).getD default)
  | .seq c b => partyOfBlock s (c * 8 + b)
/-- Why a tile of some shape does not fit a lane read: its format (0x02), or an element outside it (0x03), with the lanes (R196, R209). -/
def TileOp.misfit (o : TileOp) (shape : Nat) : Option TrapInfo :=
  let out := o.cells.filter (fun x => decide (tileRows shape ≤ x.2.1) || decide (tileCols shape < x.2.2 + (if o.fmts.1 = 7 then 2 else 1)))
  if o.cells.isEmpty then none
  else if !tilePair (tileFmt shape) o.fmts.2 o.fmts.1 then some { tileTrap 0x33 2 o.word with mask := BitVec.ofNat 32 (maskOf (o.cells.map (·.1))) }
  else if out.isEmpty then none else some { tileTrap 0x33 3 o.word with mask := BitVec.ofNat 32 (maskOf (out.map (·.1))) }
/-- The judgement of one operation against the directory (Table 9-3, R193, R205). -/
def judge (s : State) (n : Nbhd) (o : TileOp) : Nbhd × TileOp :=
  let name := o.word % 4096
  let t := n.tiles.getD name {}
  let d := (o.word / 4096 % 16 + 16 - t.gen) % 16
  let refuse (cause : Nat) : Nbhd × TileOp := (n, { o with st := 3, trap := tileTrap cause 0 o.word })
  if 8 ≤ d then refuse 0x31
  else if 0 < d then (n, { o with st := 1 })
  else match o.kind with
  | 0 =>
    let late := if o.counted then o.late else t.kill
    if t.st = 2 then
      match (if o.tag / 2 = 1 ∧ o.st = 0 then rowsOutside (partyOfStream s o.strm) apGranule t.word o.dst o.pitch else none), o.misfit t.word with
      | some v, _ => (n, { o with st := 3, trap := apertureTrap v })
      | none, some x => (n, { o with st := 3, counted := false, trap := x })
      | none, none => (n, { o with st := 2, counted := true, late, value := t.value, shape := t.word })
    else (n, { o with st := 1, counted := true, late })
  | 1 =>
    if t.st ≠ 0 then refuse 0x30
    else if n.stage.area < charged n + roundUp (tileSize o.word) 256 then refuse 0x34
    else ({ n with tiles := n.tiles.set name { t with st := 1, word := o.word, value := o.value, place := 0, core := coreOf o.strm } }, { o with st := 2 })
  | _ => if t.kill then refuse 0x31 else ({ n with tiles := n.tiles.set name { t with kill := true } }, { o with st := 2 })
/-- Operations judged in order; those that a test does not select are left. -/
def judgeList (s : State) (f : TileOp → Bool) : List TileOp → Nbhd → Nbhd × List TileOp
  | [], n => (n, [])
  | o :: os, n =>
    let r := if f o then judge s n o else (n, o)
    let t := judgeList s f os { r.1 with ops := n.ops.map (fun x => if x.id = o.id then r.2 else x) }
    (t.1, r.2 :: t.2)
/-- The operations parked on a name are judged again, in the order in which the home took them (R190, R191). -/
def rejudge (s : State) (name : Nat) (n : Nbhd) : Nbhd :=
  let r := judgeList s (fun o => o.st == 1 && o.word % 4096 == name) n.ops n
  { r.1 with ops := r.2 }
/-- The reads of peers that have been judged are answered: with the tile word and the value, or with the trap (R181, R190). -/
def answerPeers (s : State) (nb : Nat) : State :=
  let due (o : TileOp) : Bool := o.peer.isSome && decide (2 ≤ o.st)
  let ops := ((s.nbhd? nb).map (·.ops)).getD []
  let s := (ops.filter due).foldl (fun s o =>
    let d := o.peer.getD (0, 0)
    if o.st = 2 then answer s d.1 0 d.2 0 (bytesOf 4 o.shape ++ o.value) 2 else nack s d.1 d.2 o.trap.cause (o.trap.info.toNat % 256) 2) s
  s.updNbhd nb (fun n => { n with ops := n.ops.filter (fun o => !due o) })
def dropTileOp (s : State) (nb id : Nat) : State := s.updNbhd nb (fun n => { n with ops := n.ops.filter (fun x => x.id != id) })
/-- A refused operation of an interrupted context whose group is in trap mode: its trap waits for RFT (R367). The unfinished lanes of a split
are those that trapped, and the registers of a lane read are FULL again (R209). -/
def pendRefused (nb : Nat) (s : State) (o : TileOp) : State :=
  let late (c sl : Nat) : Bool := ((s.group? c sl).map (·.trapMode)).getD false && o.st == 3 && o.copy.isNone && o.peer.isNone && (o.tag == 0 || o.tag == 2)
  match o.strm with
  | .scalar c sl =>
    if late c sl then (dropTileOp s nb o.id).updGroup c sl (fun g => { g with pendTrap := g.pendTrap ++ [⟨0, 0, o.trap, none⟩] }) else s
  | .split c sl k =>
    if late c sl then (dropTileOp s nb o.id).updGroup c sl (fun g =>
      let m := (g.split k).unfinished.getD 0
      let g := if o.kind = 0 then (List.range o.pitch).foldl (fun g i => g.markFull (o.dst + i) m) g else g
      { g with pendTrap := g.pendTrap ++ [⟨1, k, { o.trap with mask := if o.trap.mask = 0 then m else o.trap.mask }, none⟩] })
    else s
  | .seq _ _ => s
/-- What the home's judgements bring about at once: answers to peers, and traps that wait. -/
def judged (s : State) (nb : Nat) : State :=
  let s := answerPeers s nb
  (((s.nbhd? nb).map (·.ops)).getD []).foldl (pendRefused nb) s
/-- A name changed, and what is parked on it judged again, in its home order. -/
def changeName (s : State) (nb name : Nat) (f : TileName → TileName) : State :=
  judged (s.updNbhd nb (fun n => rejudge s name { n with tiles := n.tiles.set name (f (n.tiles.getD name {})) })) nb

/-- Whether a queued kill takes effect: the name is DEFINED and every read accepted before the kill is complete (R198). -/
def killDue (n : Nbhd) (name : Nat) (t : TileName) : Bool :=
  t.st == 2 && t.kill && !n.ops.any (fun o => o.kind == 0 && o.counted && !o.late && o.word % 4096 == name)
/-- A kill takes effect: the name is EMPTY at the next generation. -/
def killName (s : State) (nb name : Nat) : State := changeName s nb name (fun t => { gen := (t.gen + 1) % 16 })
/-- Every kill that is due takes effect. -/
def settleKills (s : State) : State :=
  s.nbhds.foldl (fun s x => (x.2.tiles.filter (fun t => killDue x.2 t.1 t.2)).foldl (fun s t => killName s x.1 t.1) s) s

/-! ## Issuing -/

/-- The operation that a stream has sent and not yet ended. -/
def tileOf (s : State) (nb : Nat) (strm : StreamId) (tag : Nat) : Option TileOp :=
  ((s.nbhd? nb).getD default).ops.find? (fun o => o.strm == strm && o.tag == tag && o.copy.isNone && o.st != 4)
def setTileOp (s : State) (nb : Nat) (o : TileOp) : State :=
  s.updNbhd nb (fun n => { n with ops := n.ops.map (fun x => if x.id = o.id then o else x) })
def sendTileOp (s : State) (nb : Nat) (o : TileOp) : State :=
  let (id, s) := s.newId
  s.updNbhd nb (fun n => { n with ops := n.ops ++ [{ o with id }] })
/-- The issue of an operation and the wait for its acceptance (R192); `early` accepts a read that is parked. -/
def tileRun (nb : Nat) (early : Bool) (o : TileOp) (first accepted : TileOp → State → Res) (s : State) : Res :=
  match tileOf s nb o.strm o.tag with
  | none => first o s
  | some x =>
    if x.st = 3 then .trap (dropTileOp s nb x.id) x.trap
    else if x.st = 2 ∨ (early ∧ x.st = 1) then accepted x s
    else .park s 5 (.tile nb (o.word % 4096))
/-- An operation sent, and its issuer parked. -/
def sendAndWait (nb : Nat) (o : TileOp) (s : State) : Res := .park (sendTileOp s nb o) 5 (.tile nb (o.word % 4096))

/-! ## Scalar tile instructions -/

/-- R204. -/
def execTdef (a b : BitVec 6) (s : State) : Out :=
  scalarRun false 0 4 [a.toNat, b.toNat] (fun c sl g =>
    let i := scalarIssuer s c sl g
    let nb := i.p.blk.nb
    let w := g.field a % 2 ^ 32
    let pitch := g.field a / 2 ^ 32
    let o : TileOp := { id := 0, strm := .scalar c sl, tag := if g.trapMode then 1 else 0, kind := 1, word := w }
    let full := 64 ≤ (s.core c).copies.length
    tileRun nb false o
      (fun o s =>
        if shapeBad w then .trap s (tileTrap 0x33 1 w)
        else match rowsOutside i.p apScalar w (g.field b) pitch with
          | some v => .trap s (apertureTrap v)
          | none => if full then .park s 11 (.engineRoom 3) else sendAndWait nb o s)
      (fun x s =>
        if full then .park s 11 (.engineRoom 3)
        else .next (addCopy (dropTileOp s nb x.id) c sl
          { id := 0, eng := freeEngine s c, slot := sl, batch := 0, kind := 3, src := BitVec.ofNat 64 (g.field b), dst := 0, sst1 := BitVec.ofNat 64 (if pitch = 0 then rowBytes w else pitch), rowb := rowBytes w, n1 := tileRows w, tile := w, waiting := 1, pc := g.spc }))
      s) s
/-- R205. -/
def execTrds (a b : BitVec 6) (s : State) : Out :=
  scalarRun false 0 4 [a.toNat, b.toNat] (fun c sl g =>
    let i := scalarIssuer s c sl g
    let nb := i.p.blk.nb
    let w := g.field a % 2 ^ 32
    let o : TileOp := { id := 0, strm := .scalar c sl, tag := if g.trapMode then 3 else 2, kind := 0, word := w, dst := g.field b, pitch := g.field a / 2 ^ 32 }
    let full := 64 ≤ (s.core c).copies.length
    tileRun nb true o
      (fun o s => match i.p.outside apGranule (g.field b) 1 with
        | some v => .trap s (apertureTrap v)
        | none => if full then .park s 11 (.engineRoom 3) else sendAndWait nb o s)
      (fun x s =>
        if full then .park s 11 (.engineRoom 3)
        else .next (setTileOp (addCopy s c sl
          { id := 0, eng := freeEngine s c, slot := sl, batch := 0, kind := 4, src := 0, dst := BitVec.ofNat 64 (g.field b), dst1 := BitVec.ofNat 64 (g.field a / 2 ^ 32), rowb := 1, tile := w, pc := g.spc })
          nb { x with copy := some s.nextId }))
      s) s
/-- R206. -/
def execTkill (a : BitVec 6) (s : State) : Out :=
  scalarRun false 0 4 [a.toNat] (fun c sl g =>
    let nb := (s.blockOf g).nb
    let o : TileOp := { id := 0, strm := .scalar c sl, tag := if g.trapMode then 1 else 0, kind := 2, word := g.field a % 2 ^ 32 }
    tileRun nb false o (sendAndWait nb) (fun x s => .next (dropTileOp s nb x.id)) s) s
/-- The directory entry of a name as TQRY reads it (R207). -/
def tileQuery (n : Nbhd) (name : Nat) : Nat :=
  let t := n.tiles.getD name {}
  t.st + (if t.kill then 4 else 0) + 16 * t.gen + 256 * t.place + 4096 * (outstanding n name % 65536) +
    2 ^ 28 * (if t.st = 0 then 0 else t.word / 65536) + 2 ^ 48 * (n.handle % 65536)
/-- R207. -/
def execTqry (d a : BitVec 6) (s : State) : Out :=
  scalarRun false 0 4 [d.toNat, a.toNat] (fun c sl g => .next (putS s c sl d (tileQuery (s.nbhdOf g) (g.field a % 4096)))) s

/-! ## Lane tile instructions -/

/-- The low half of a uniform word of the lane stream in turn, or 0 where no lane stream is. -/
def laneWord (s : State) (n : Nat) : Nat :=
  match s.turn with
  | .lane c sl => (((((s.group? c sl).bind Group.lanes).map LaneBlock.ws).getD []).getD n 0).toNat % 2 ^ 32
  | _ => 0
/-- The lane registers that the group in turn holds. -/
def laneVregs (s : State) : Nat :=
  match s.turn with
  | .lane c sl => ((s.group? c sl).map (fun g => (s.nbhdOf g).stage.vregs)).getD 0
  | _ => 0
/-- The registers of one row of a tile, and whether they are pairs. -/
def rowRegsOf (h : LaneHead) (w : Nat) : Nat :=
  let epr := if h.fmt = 7 then 2 else 1
  (tileCols w + epr - 1) / epr * (if isPair h.fmt then 2 else 1)
/-- The pattern that element c of a lane's row stores (R72, R208). -/
def rowElem (h : LaneHead) (md : Mode) (sat : Bool) (g : Group) (lane c : Nat) : Nat :=
  let x := if isPair h.fmt then g.vn true (h.sa.toNat + 2 * c) lane
    else if h.fmt = 7 then (g.v (h.sa.toNat + c / 2) lane).toNat / 2 ^ (16 * (c % 2)) % 65536 else (g.v (h.sa.toNat + c) lane).toNat
  if h.mfmt = 0 then x else storeElem h.mfmt.toNat h.fmt.toNat md sat x
/-- The value that the executing lanes define (R208). -/
def lanesValue (h : LaneHead) (md : Mode) (sat : Bool) (e : LaneEnv) (w : Nat) : List Byte :=
  (List.range (tileRows w)).flatMap (fun r =>
    if e.acting.contains r then bytesOf (rowBytes w) (packElems (elemBits (tileFmt w)) ((List.range (tileCols w)).map (rowElem h md sat e.g r)))
    else List.replicate (rowBytes w) 0)
/-- R208. -/
def execTdefv (w : L3) (s : State) : Out :=
  let t := laneWord s (w.aux.toNat % 4)
  let n := rowRegsOf w.toLaneHead t
  let beyond := laneVregs s < w.sa.toNat + n
  laneRun 2 w.prd (if beyond || shapeBad t then [] else [srcA w.toLaneHead n]) [] (fun e s =>
    let nb := (s.blockOf e.g).nb
    let m := e.exec &&& e.keep
    if m = 0 then .next s
    else if beyond then .trap s { illegal 6 with mask := m }
    else if shapeBad t || decide (32 < tileRows t) then .trap s { tileTrap 0x33 1 t with mask := m }
    else if !tilePair (tileFmt t) w.mfmt.toNat w.fmt.toNat then .trap s { tileTrap 0x33 2 t with mask := m }
    else
      let o : TileOp := { id := 0, strm := .split e.c e.sl e.k, tag := if e.g.trapMode then 1 else 0, kind := 1, word := t, value := lanesValue w.toLaneHead (modeNoRsr w.rm e.sp.fmtr) (e.sp.fmtr.getLsbD 14) e t }
      let first (o : TileOp) (s : State) : Res := sendAndWait nb o (updSplit s e.c e.sl e.k (fun x => { x with unfinished := some m }))
      match tileRun nb false o first (fun x s => .next (dropTileOp s nb x.id)) s with
      | .trap s t => .trap s { t with mask := m }
      | r => r) s
/-- The register value of a lane's read: one element, or two for bf16x2 (R209). -/
def trdValue (h : LaneHead) (w : Nat) (value : List Byte) (r c : Nat) : Nat :=
  let el (k : Nat) : Nat := loadElem h.mfmt.toNat h.fmt.toNat (tileElem w value r (c + k))
  if h.fmt = 7 then el 0 + 65536 * el 1 else el 0
/-- R209: all lanes or none; V[d] is EMPTY from issue until the data arrives. -/
def execTrd (w : L3) (s : State) : Out :=
  let t := laneWord s (w.aux.toNat % 4)
  let pair := isPair w.fmt
  let regs := if pair then [w.dst.toNat, w.dst.toNat + 1] else [w.dst.toNat]
  laneRun 2 w.prd [srcA w.toLaneHead 1, srcB w.toLaneHead 1] [(w.dst.toNat, regs.length)] (fun e s =>
    let nb := (s.blockOf e.g).nb
    let m := e.exec &&& e.keep
    let at' (i : Nat) : Nat × Nat := ((e.g.v w.sa.toNat i).toNat, (e.g.v w.sb.toNat i).toNat)
    let o : TileOp := { id := 0, strm := .split e.c e.sl e.k, tag := if e.g.trapMode then 1 else 0, kind := 0, word := t, n := e.acting.length, dst := w.dst.toNat, pitch := regs.length, fmts := (w.fmt.toNat, w.mfmt.toNat), cells := e.acting.map (fun i => (i, at' i)) }
    let full (s : State) : State := s.updGroup e.c e.sl (fun g => regs.foldl (fun g r => g.markFull r m) g)
    let first (o : TileOp) (s : State) : Res :=
      let s := s.updGroup e.c e.sl (fun g => regs.foldl (fun g r => g.markEmpty r m) g)
      sendAndWait nb o (updSplit s e.c e.sl e.k (fun x => { x with unfinished := some m }))
    let served (x : TileOp) (s : State) : Res :=
      let put (c : Nat × Nat × Nat) : List (Nat × W32) := regWords pair w.dst.toNat (trdValue w.toLaneHead x.shape x.value c.2.1 c.2.2)
      .next (setTileOp s nb { x with st := 4, data := x.cells.map (fun c => { lane := c.1, regs := put c }) })
    if m = 0 then .next s
    else match tileRun nb false o first served s with
      | .trap s t => .trap (full s) { t with mask := if t.mask = 0 then m else t.mask }
      | r => r) s

end Sys2Proof.Machine
end

