-- ==== Sys2Proof/Machine/Feed.lean ====
section
/-! DEFINITION. The operand fetcher and the consumption of operand streams: where the elements of a map lie, how the fetcher reads
them, and how an MMA takes them and accumulates (R61, R64, R179 to R186, R262 to R268). -/

namespace Sys2Proof.Machine
open Bits Numbers

/-! ## Elements of a map -/

/-- The elements of a map. -/
def OMap.count (m : OMap) : Nat := m.n0 * m.n1 * m.n2
/-- The address of the packed row of element j, and the element's index in it (R181). -/
def OMap.row (m : OMap) (j : Nat) : Nat :=
  ofInt 64 ((m.base : Int) + (j / m.n0 % m.n1 : Nat) * m.s1 + (j / (m.n0 * m.n1) : Nat) * m.s2)
/-- Elements of a packed group (Table 3-4). -/
def packGroup (fmt : Nat) : Nat := match elemBits fmt with
  | 6 => 4
  | 4 => 2
  | _ => 1
/-- The bytes of element i of a packed row: the offset of the first, and how many. -/
def elemBytes (fmt i : Nat) : Nat × Nat := (i * elemBits fmt / 8, (i * elemBits fmt + elemBits fmt + 7) / 8 - i * elemBits fmt / 8)
/-- The address and length of element j, and of its packed group. -/
def OMap.span (m : OMap) (j : Nat) : Nat × Nat := let e := elemBytes m.fmt (j % m.n0); ((m.row j + e.1) % 2 ^ 64, e.2)
def OMap.group (m : OMap) (j : Nat) : Nat × Nat :=
  let g := packGroup m.fmt
  ((m.row j + j % m.n0 / g * g * elemBits m.fmt / 8) % 2 ^ 64, g * elemBits m.fmt / 8)
/-- The block of element j, which has one scale (R181). -/
def OMap.blockOf (m : OMap) (j : Nat) : Nat := j / m.n0 * (m.n0 / scaleBlock m.fmt) + j % m.n0 / scaleBlock m.fmt
/-- The addresses and lengths of the scale and the superscale of element j. -/
def OMap.scales (m : OMap) (j : Nat) : List (Nat × Nat) :=
  if scaled m.fmt then
    let b := m.blockOf j
    (ofInt 64 ((m.base : Int) + m.scoff + b), 1) ::
      (if m.fmt = 9 then [(ofInt 64 ((m.base : Int) + toInt 32 m.ssoff + 4 * (b / 256 : Nat)), 4)] else [])
  else []
/-- The effective scale of a Q16N block (R64), as an FP32 pattern. -/
def q16nScale (sc g : Nat) : Nat :=
  let c := value f32 0x3B808081
  round f32 .rne false (mul (value f32 (round f32 .rne false (mul (.fin false sc 0) (value f32 g)))) c)

/-! ## Reading an element -/

/-- The outcome of the read of one element: the element; a wait; an element out of range (R183), or in the stack aperture (R77); a
fault that is offered (R184); a failure of a peer; a tile trap. -/
inductive Got1 where
  | ok (s : State) (e : Elem)
  | wait (s : State) (reason : Nat) (c : WaitCond)
  | bounds
  | stack (va : Nat)
  | fault (s : State) (f : XFault) (va : Nat)
  | fail (s : State) (t : TrapInfo)
  | tile (s : State) (t : TrapInfo)
  deriving Repr, Inhabited
/-- The sequencer of a block as an issuer; k tells its streams and, at 8, its direct maps apart. -/
def seqIssuer (s : State) (b k : Nat) : Issuer := { c := b / 8, sl := 64 + b % 8, k, scalar := false, pc := 0, p := partyOfBlock s b }
/-- A line of a peer that the issuer has asked for. -/
def heldLine (s : State) (i : Issuer) (d rpa : Nat) : Option Request :=
  s.requests.find? (fun r => r.strong && r.kind == 0 && r.core == i.c && r.slot == i.sl && r.split == i.tag && r.dev == d && r.addr / 256 == rpa / 256)
/-- Answered lines of an issuer that are not among some places are let go. -/
def dropHeld (s : State) (i : Issuer) (hops : List Hop) : State :=
  let used (r : Request) : Bool := hops.any (fun h => match h.spot with
    | .peer d rpa => r.dev == d && r.addr / 256 == rpa / 256
    | _ => false)
  { s with requests := s.requests.filter (fun r => !(r.strong && r.kind == 0 && r.core == i.c && r.slot == i.sl && r.split == i.tag && r.st != 0 && !used r)) }
/-- What must come before the bytes of some places can be read by an engine: FULL granules (R182), lines of peers, a home that
waits; or the failure of a peer. -/
inductive Ready where
  | ok (s : State)
  | wait (s : State) (reason : Nat) (c : WaitCond)
  | fail (s : State) (t : TrapInfo)
  deriving Repr, Inhabited
/-- Who reads at the homes: the requester of the request table, whether each granule is waited for (R182), and whether the core's dirty bytes
of a line are written back first, so that a sequencer's own reads see what its block's groups stored before an NBARR (R294); and the party
among those that wait at a home slice (R308). -/
structure Reader where
  owner : Nat
  fe : Bool := false
  own : Bool := false
  me : SliceParty
  deriving DecidableEq, Repr, Inhabited
/-- A party that is no stream waits for a region in arrival order (R308). -/
def waitAt (w : SliceParty) (c : WaitCond) (s : State) : State :=
  match c with
  | .region k => joinPlace k w 0 s
  | _ => s
def readyOne (i : Issuer) (w : Reader) (r : Ready) (h : Hop) : Ready :=
  match r with
  | .ok s => match h.spot with
    | .spad c a => if w.fe && !isFull s (a / 16) then .wait s 2 (.granule c (a / 16)) else r
    | .line pa => match homeWaits (· == w.me) s pa false with
      | some k => .wait s 11 (.region k)
      | none =>
        if w.own then
          let t := writeBack i.c (pa / 64) s
          if t.1 then .ok t.2 else .wait t.2 11 (.writeBacks i.c)
        else r
    | .peer d rpa => match heldLine s i d rpa with
      | some q => if q.st = 0 then .wait s 11 (.remote q.id) else if q.st = 2 then .fail { s with requests := s.requests.filter (fun x => x.id != q.id) } q.fail else r
      | none =>
        if !tableRoom s i.c w.owner i.engMark 1 then .wait (joinQueue s i.c w.owner i.engMark) 11 (.requests 1)
        else match sendRead i { lane := w.owner - 80, va := h.va, n := 1, conv := .scalar 0 1 false } d rpa (leaveQueue s i.c w.owner i.engMark) with
        | .wait s x c => .wait s x c
        | .done s | .full s _ _ | .bad s _ => .ok s
    | _ => r
  | _ => r
/-- Bytes that an engine or a sequencer reads at their homes: what must come first, and an error of their check (R110, R111). -/
def readyAll (i : Issuer) (w : Reader) (hops : List Hop) (s : State) : Ready :=
  match hops.foldl (readyOne i w) (.ok s) with
  | .ok s => match readErr s hops with
    | some t => .fail s t
    | none => .ok (countErrs s (unitsRead hops))
  | r => r
/-- A byte as an engine reads it: at its port or home, never in an L1 (R165, R271). -/
def homeByte (s : State) (i : Issuer) (h : Hop) : Byte :=
  match h.spot with
  | .peer d rpa => ((heldLine s i d rpa).map (fun r => r.data.getD (rpa % 256) 0)).getD 0
  | x => (byteNow s i.c true x).getD 0
/-- The places of bytes of an element, or why there are none; all of a packed group must translate (R88). -/
def placed (s : State) (p : Party) (k : Access) (x g : Nat × Nat) : Except Got1 (List Hop) :=
  if (p.ap x.1).1 = 3 then .error (.stack x.1)
  else if (p.outside apScalar x.1 x.2).isSome then .error .bounds
  else match (if (p.ap x.1).1 = 5 then route s p k g.1 g.2 else .ok []) with
    | .error (f, va) => .error (.fault s f va)
    | .ok _ => match route s p k x.1 x.2 with
      | .error (f, va) => .error (.fault s f va)
      | .ok hops => .ok hops
/-- Element j of a map in memory (R181, R183, R184) for a stream, or at tag 0 for a sequencer's direct map (R294). -/
def readMem (s : State) (i : Issuer) (tag : Nat) (m : OMap) (j : Nat) : Got1 :=
  let own := tag == 0
  let me : SliceParty := if own then .stream (.seq i.c (i.p.bkey % 8)) false else .operand i.p.bkey (tag - 8)
  let parts := (m.span j, m.group j) :: (m.scales j).map (fun x => (x, x))
  match parts.mapM (fun x => placed s i.p .read x.1 x.2) with
  | .error e => e
  | .ok ls =>
    let hops := ls.flatten
    let s := keepLeaves s i.p hops
    match readyAll i { owner := fetcherTable, fe := m.fe, own, me } hops s with
    | .wait s r c => .wait s r c
    | .fail s t => .fail s t
    | .ok s =>
      let bs := ls.map (fun l => l.map (homeByte s i))
      let b := elemBits m.fmt
      let pat := ofBytes (bs.getD 0 []) / 2 ^ (j % m.n0 * b % 8) % 2 ^ b
      let sc := ofBytes (bs.getD 1 [])
      .ok (dropHeld s i hops)
        { fmt := m.fmt, pat, scale := if m.fmt = 9 then q16nScale sc (ofBytes (bs.getD 2 [])) else sc
          first := !scaled m.fmt || j % m.n0 % scaleBlock m.fmt == 0 }
/-- The tile that a map names, with its tile word (R181, R196, R202). -/
inductive TileGot where
  | value (s : State) (word : Nat) (bs : List Byte)
  | wait (s : State) (c : WaitCond)
  | trap (s : State) (t : TrapInfo)
  deriving Repr, Inhabited
/-- The tile of this device that a map reads: its neighbourhood. -/
def tileHome (s : State) (b : Block) (m : OMap) : Option Nat :=
  if m.space = 1 then some b.nb else (s.nbhds.findV (fun _ n => n.handle == m.base / 2 ^ 30 % 65536)).map (·.1)
/-- The read of a tile of this device by a sequencer; one that it had sent for another map, before its stream was fetched again, is dropped
(R203). -/
def tileHere (s : State) (strm : StreamId) (tag nb name : Nat) : TileGot :=
  let old := (tileOf s nb strm tag).filter (fun o => o.word % 65536 != name)
  let s := match old with
    | some o => dropTileOp s nb o.id
    | none => s
  match tileOf s nb strm tag with
  | none => .wait (sendTileOp s nb { id := 0, strm, tag, kind := 0, word := name }) (.tile nb (name % 4096))
  | some o =>
    if o.st = 3 then .trap (dropTileOp s nb o.id) o.trap
    else if o.st = 2 then .value s o.shape o.value
    else .wait s (.tile nb (name % 4096))
/-- The read of a tile of another device; the answer holds the tile word and then the value. -/
def tileFar (s : State) (i : Issuer) (dev handle name : Nat) : TileGot :=
  match s.requests.find? (fun r => r.kind == 8 && r.core == i.c && r.slot == i.sl && r.split == i.tag) with
  | none =>
    let (id, s) := s.newId
    .wait { s with requests := s.requests ++ [{ id, kind := 8, dev, core := i.c, slot := i.sl, addr := name, key := handle, since := s.clock, split := i.tag, strong := true }] } (.remote id)
  | some r =>
    if r.st = 0 then .wait s (.remote r.id)
    else if r.st = 2 then .trap { s with requests := s.requests.filter (fun x => x.id != r.id) } r.fail
    else .value s (leAt r.data 0 4) (r.data.drop 4)
/-- The tile that a map names. A read of this device that was under way when its neighbourhood retired keeps its answer (R202). -/
def tileSource (s : State) (i : Issuer) (tag : Nat) (m : OMap) : TileGot :=
  let name := m.base % 65536
  let dev := m.base / 65536 % 16384
  let kept := s.requests.any (fun r => r.kind == 8 && r.core == i.c && r.slot == i.sl && r.split == i.tag && r.addr == name && r.key == m.base / 2 ^ 30 % 65536)
  if m.space = 2 ∧ (dev ≠ s.devnum.toNat ∨ kept) then tileFar s i dev (m.base / 2 ^ 30 % 65536) name
  else match tileHome s i.p.blk m with
    | some nb => tileHere s (.seq i.c (i.p.bkey % 8)) tag nb name
    | none =>
      if s.saves.any (fun v => v.2.nb.handle == m.base / 2 ^ 30 % 65536) then .wait s (.tile 0 (name % 4096)) else .trap s (tileTrap 0x31 0 name)
/-- The end of a read of a tile. -/
def tileEnd (s : State) (i : Issuer) (tag : Nat) (m : OMap) : State :=
  let s := { s with requests := s.requests.filter (fun r => !(r.kind == 8 && r.core == i.c && r.slot == i.sl && r.split == i.tag)) }
  match (if m.space = 0 then none else tileHome s i.p.blk m) with
  | none => s
  | some nb => match tileOf s nb (.seq i.c (i.p.bkey % 8)) tag with
    | some o => dropTileOp s nb o.id
    | none => s
/-- Element j of a map in a tile (R181, R183, R196). -/
def readTile (s : State) (i : Issuer) (tag : Nat) (m : OMap) (j : Nat) : Got1 :=
  match tileSource s i tag m with
  | .wait s c => .wait s 5 c
  | .trap s t => .tile s t
  | .value s w bs =>
    if tileFmt w ≠ m.fmt then .tile (tileEnd s i tag m) (tileTrap 0x33 2 (m.base % 65536))
    else if tileCols w ≤ j % m.n0 ∨ tileRows w ≤ j / m.n0 then .bounds
    else .ok s { fmt := m.fmt, pat := tileElem w bs (j / m.n0) (j % m.n0) }
/-- Element j of a map for a stream, or at tag 0 for a direct map. -/
def readElem (s : State) (i : Issuer) (tag : Nat) (m : OMap) (j : Nat) : Got1 := if m.space = 0 then readMem s i tag m j else readTile s i tag m j
/-- What a map holds of its source is let go once its last element is delivered. -/
def endMap (s : State) (i : Issuer) (tag : Nat) (m : OMap) : State := tileEnd (dropHeld s i []) i tag m

/-! ## Streams -/

/-- The stream position of the first element of the first map that a stream keeps. -/
def OStream.start (x : OStream) : Nat := x.pos + x.elems.length - x.next - x.past.foldl (fun n f => n + (omapOf f.2).count) 0
/-- Maps of which nothing from a position on is needed are dropped. -/
def trimPast (keep : Nat) : Nat → List (Nat × BitVec 256) → List (Nat × BitVec 256)
  | _, [] => []
  | start, f :: fs => if start + (omapOf f.2).count ≤ keep then trimPast keep (start + (omapOf f.2).count) fs else f :: fs
def OStream.trim (x : OStream) (keep : Nat) : OStream := { x with past := trimPast keep x.start x.past }
/-- A stream whose elements from a position on are to be fetched again (R373). -/
def OStream.refetch (x : OStream) (p : Nat) : OStream :=
  { x with pos := p, elems := [], past := [], feed := x.past ++ x.feed, next := p - x.start
           stop := match x.stop with
             | some .bounds => some .bounds
             | _ => none }
def updStream (s : State) (b k : Nat) (f : OStream → OStream) : State := s.updBlock b (fun x => { x with streams := x.streams.set k (f (x.streams.getD k {})) })
/-- Bytes of a spilled element in the own scratchpad: the address and how many (R185). -/
def spillSpan (m : OMap) (j : Nat) : Nat × Nat := let e := elemBytes m.fmt j; (m.ssoff + e.1, e.2)
/-- A spilled element's bits put into the own scratchpad (R185). -/
def spillElem (s : State) (p : Party) (m : OMap) (j pat : Nat) : State × List Nat :=
  let x := spillSpan m j
  let a := p.core * Config.spadBytes + p.blk.base + x.1
  let sh := j * elemBits m.fmt % 8
  let old := Memory.le s.spad a x.2
  let v := old - (old / 2 ^ sh % 2 ^ elemBits m.fmt) * 2 ^ sh + pat * 2 ^ sh
  ({ s with spad := Memory.write s.spad (cellsAt a (bytesOf x.2 v)) }, (List.range x.2).map (· + a))
/-- Up to n elements appended to a stream, in position order (R182 to R185). The addresses of spilled bytes are returned. A map in the
stack aperture stops at the element that the word in turn consumes, which traps (log 43). -/
def deliver (b k : Nat) : Nat → State → State × List Nat
  | 0, s => (s, [])
  | n + 1, s =>
    let x := ((s.block? b).getD default).streams.getD k {}
    let i := seqIssuer s b k
    match x.feed, x.stop with
    | [], _ | _, some .bounds | _, some (.fault _) | _, some (.fatal _) | _, some (.trap _) => (s, [])
    | (sl, rec) :: fs, _ =>
      let m := omapOf rec
      let halt (s : State) (r : Option Stop) : State × List Nat := (updStream s b k (fun x => { x with stop := r }), [])
      let spill := spillSpan m x.next
      if 8 * 65536 < x.bits + elemBits m.fmt then (s, [])
      else if m.spb && decide (i.p.nb.stage.scratch < spill.1 + spill.2) then halt s (some .bounds)
      else match readElem s i (8 + k) m x.next with
      | .wait s _ c => halt (waitAt (.operand b k) c s) (match c with
          | .tile _ _ => some .tile
          | .remote _ => if m.space = 2 then some .tile else none
          | _ => none)
      | .bounds => halt s (some .bounds)
      | .stack va => halt s (some (.trap (apertureTrap va)))
      | .fail s t => halt s (some (.fatal t.cause))
      | .tile s t => halt s (some (.trap t))
      | .fault s f va =>
        let t := offer s (.seq i.c (b % 8)) .read f va 0
        let mark (r : Nat × FaultRec) : Nat × FaultRec := if r.1 = t.1 then (r.1, { r.2 with kind := 5, ref := k }) else r
        halt { t.2 with faults := t.2.faults.map mark } (some (.fault t.1))
      | .ok s e =>
        let s := leavePlaces s (.operand b k)
        let w := if m.spb then spillElem s i.p m x.next e.pat else (s, [])
        let last := x.next + 1 = m.count
        let s := if last then endMap w.1 i (8 + k) m else w.1
        let s := updStream s b k (fun x =>
          if last then { x with elems := x.elems ++ [e], next := 0, feed := fs, past := x.past ++ [(sl, rec)], stop := none }
          else { x with elems := x.elems ++ [e], next := x.next + 1, stop := none })
        let r := deliver b k n s
        (r.1, w.2 ++ r.2)
/-- A delivery with its spill, which is one engine write (R157, R185). -/
def deliverSome (s : State) (b k n : Nat) : State :=
  let r := deliver b k n s
  let cells := (r.2.dedup).map (fun a => (a, Memory.get r.1.spad a))
  if cells.isEmpty then r.1 else writeSpad r.1 (partyOfBlock s b).nb.ctx true cells

/-! ## Consumption -/

/-- OPERAND_BOUNDS of a stream and of a direct map (Table 12-4). -/
def streamBounds (reason k pos : Nat) : TrapInfo := { cause := 0x28, info := BitVec.ofNat 64 (reason * 2 ^ 60 + k * 2 ^ 32 + pos % 2 ^ 32) }
def mapBounds (reason slot pos : Nat) : TrapInfo := { cause := 0x28, info := BitVec.ofNat 64 (reason * 2 ^ 60 + slot * 2 ^ 36 + 2 ^ 35 + pos % 2 ^ 32) }
/-- OPERAND_FAULT at a position (R184). -/
def operandFault (cause pos : Nat) : TrapInfo := { cause := 0x29, info := BitVec.ofNat 64 (cause * 2 ^ 32 + pos % 2 ^ 32) }
/-- Rows and columns of a flight, ascending. -/
def Flight.rowList (x : Flight) : List Nat := bitsOf 64 x.rows.toNat
def Flight.colList (x : Flight) : List Nat := bitsOf 64 x.cols.toNat
/-- Elements of one scale block of an MMAQ (R268); 0 for an MMA. -/
def Flight.q (x : Flight) : Nat := if x.quant then scaleBlock x.word.af.toNat else 0
/-- Whether a flight has taken all its elements and done all its rows. -/
def Flight.complete (x : Flight) : Bool := x.bs.length == x.k * x.colList.length && x.done == x.rowList.length
/-- The first of elements that does not fit: its place among them and the reason (R262, R268). -/
def misfit (fmt q at' : Nat) : Nat → List Elem → Option (Nat × Nat)
  | _, [] => none
  | i, e :: es => if e.fmt ≠ fmt then some (i, 1) else if q ≠ 0 ∧ (at' + i) % q = 0 ∧ !e.first then some (i, 2) else misfit fmt q at' (i + 1) es
/-- Elements taken from a stream: up to n, at place `at'` of a run; what was taken, the stream, and the trap or the shortage. -/
structure Taken where
  elems : List Elem
  strm : OStream
  trap : Option TrapInfo := none
  short : Bool := false
  deriving Repr, Inhabited
def takeElems (x : OStream) (k fmt q at' n : Nat) : Taken :=
  let l := x.elems.take n
  match misfit fmt q at' 0 l with
  | some (i, reason) => { elems := l.take i, strm := { x with elems := x.elems.drop i, pos := x.pos + i }, trap := some (streamBounds reason k (x.pos + i)) }
  | none =>
    let y := { x with elems := x.elems.drop n, pos := x.pos + l.length }
    if l.length = n then { elems := l, strm := y }
    else { elems := l, strm := y, short := true, trap := match x.stop with
      | some .bounds => some (streamBounds 0 k y.pos)
      | some (.fatal c) => some (operandFault c y.pos)
      | some (.trap t) => some t
      | _ => none }

/-! ## Accumulation -/

/-- The value of an element, unscaled for the block formats (R61, R62, R268). -/
def elemValue (fmt pat : Nat) : Number :=
  match fmt with
  | 9 => q16nLevel pat
  | 10 => value e4m3 pat
  | 11 => value e2m3 pat
  | 12 => value e2m1 pat
  | 13 => scale (-6) (ofInteger (toInt 8 pat))
  | f => match elemFmt f with
    | some g => value g pat
    | none => .nan
/-- The scale of a block (R61, R64). -/
def scaleValue (fmt sc : Nat) : Number := if fmt = 9 then value f32 sc else if sc = 255 then .nan else .fin false 1 ((sc : Int) - 127)
/-- An exact sum (R230). -/
def exactSum : List Number → Number
  | [] => .fin false 0 0
  | x :: xs => xs.foldl (add .rne) x
/-- Exact products of two runs. -/
def products (a b : List Elem) : List Number := List.zipWith (fun x y => mul (elemValue x.fmt x.pat) (elemValue y.fmt y.pat)) a b
/-- R265: one rounding per chunk of 16; n chunks are left. -/
def accFloat : Nat → List Elem → List Elem → Nat → Nat
  | 0, _, _, c => c
  | n + 1, a, b, c => accFloat n (a.drop 16) (b.drop 16) (round f32 .rne false (add .rne (value f32 c) (exactSum (products (a.take 16) (b.take 16)))))
/-- R268: one scaled sum per block of q. -/
def accBlock (q : Nat) : Nat → List Elem → List Elem → Nat → Nat
  | 0, _, _, c => c
  | n + 1, a, b, c =>
    let s := exactSum (products (a.take q) (b.take q))
    let sa := (a.head?.map (fun e => scaleValue e.fmt e.scale)).getD .nan
    let sb := (b.head?.map (fun e => scaleValue e.fmt e.scale)).getD .nan
    let t := round f32 .rne false (mul (mul s sa) sb)
    accBlock q n (a.drop q) (b.drop q) (round f32 .rne false (add .rne (value f32 c) (value f32 t)))
/-- An 8-bit integer element (R266). -/
def elemInt (e : Elem) : Int := if e.fmt = 7 then toInt 8 e.pat else (e.pat : Int)
/-- R266. -/
def accInt (sat : Bool) (a b : List Elem) (c : Nat) : Nat :=
  (a.zip b).foldl (fun c p =>
    let v := toInt 32 c + elemInt p.1 * elemInt p.2
    ofInt 32 (if sat then Alu.clampInt (-(2 ^ 31)) (2 ^ 31 - 1) v else v)) c
/-- R267. -/
def accDouble (a b : List Elem) (c : Nat) : Nat :=
  (a.zip b).foldl (fun c p => round f64 .rne false (fma .rne (value f64 p.1.pat) (value f64 p.2.pat) (value f64 c))) c
/-- An accumulator word, and the pair as one value (R269). -/
def Seq.ac (q : Seq) (i m n : Nat) : Nat := (q.acs.getD (4096 * i + 64 * m + n) 0).toNat
def Seq.setAc (q : Seq) (i m n v : Nat) : Seq := { q with acs := q.acs.set (4096 * i + 64 * m + n) (BitVec.ofNat 32 v) }
def Seq.pair (q : Seq) (i m n : Nat) : Nat := q.ac i m n + 2 ^ 32 * q.ac (i + 1) m n
def Seq.setPair (q : Seq) (i m n v : Nat) : Seq := (q.setAc i m n v).setAc (i + 1) m n (v / 2 ^ 32)
/-- ACCUMULATE of one element (R264 to R268). -/
def accumulate (x : Flight) (q : Seq) (m n : Nat) (a b : List Elem) : Seq :=
  let i := x.word.acc.toNat
  let af := x.word.af.toNat
  if x.quant then q.setAc i m n (accBlock (scaleBlock af) (x.k / scaleBlock af) a b (q.ac i m n))
  else if af = 15 then q.setPair i m n (accDouble a b (q.pair i m n))
  else if af = 7 ∨ af = 8 then q.setAc i m n (accInt (x.word.sat == 1) a b (q.ac i m n))
  else q.setAc i m n (accFloat (x.k / 16) a b (q.ac i m n))
/-- One complete row accumulated (R262). -/
def accumulateRow (x : Flight) (q : Seq) (m : Nat) (row : List Elem) : Seq :=
  (List.range x.colList.length).foldl (fun q c => accumulate x q m (x.colList.getD c 0) row ((x.bs.drop (c * x.k)).take x.k)) q

/-! ## Flights -/

/-- A flight, its A stream and the sequencer after rows are done: at most n rows. -/
structure Drained where
  fl : Flight
  strm : OStream
  q : Seq
  trap : Option TrapInfo := none
  deriving Repr, Inhabited
def drainRows : Nat → Drained → Drained
  | 0, r => r
  | n + 1, r =>
    match r.fl.rowList[r.fl.done]? with
    | none => r
    | some m =>
      let t := takeElems r.strm r.fl.word.sa.toNat r.fl.word.af.toNat r.fl.q r.fl.row.length (r.fl.k - r.fl.row.length)
      let row := r.fl.row ++ t.elems
      if t.trap.isSome || t.short then { r with fl := { r.fl with row }, strm := t.strm, trap := t.trap }
      else drainRows n { r with fl := { r.fl with row := [], done := r.fl.done + 1 }, strm := t.strm, q := accumulateRow r.fl r.q m row }
/-- The first flight takes what its streams hold: B column by column, then A row by row (R262, R263). The trap of a flight leaves it
alone in flight, with the PC at its word (R259). -/
def drain (s : State) (b : Nat) : State × Option TrapInfo :=
  match s.block? b with
  | none => (s, none)
  | some x =>
    match x.seq with
    | none => (s, none)
    | some q =>
      match q.stopped, q.flights with
      | false, f :: fs =>
        let kb := f.word.sb.toNat + 4
        let bf := if f.quant then f.word.af.toNat else f.word.bf.toNat
        let t := takeElems (x.streams.getD kb {}) kb bf f.q f.bs.length (f.k * f.colList.length - f.bs.length)
        let f := { f with bs := f.bs ++ t.elems }
        let ka := f.word.sa.toNat
        let r : Drained := { fl := f, strm := x.streams.getD ka {}, q, trap := t.trap }
        let r := if t.trap.isSome || t.short then r else drainRows 64 r
        let q := match r.trap with
          | some _ => { r.q with flights := [r.fl], pc := r.fl.pc, prog := 1, buf := [] }
          | none => { r.q with flights := r.fl :: fs }
        let keep (k : Nat) (y : OStream) : OStream := y.trim ((q.flights.flatMap (fun g =>
          (if g.word.sa.toNat = k then [g.apos + g.done * g.k] else []) ++ (if g.word.sb.toNat + 4 = k then [g.bpos] else []))).foldl min y.pos)
        let streams := ((x.streams.set kb t.strm).set ka r.strm).mapV keep
        (s.setBlock b { x with seq := some q, streams }, r.trap)
      | _, _ => (s, none)
/-- Flights as far as their streams allow, with the sequencer's trap where one is due. -/
def drainNow (s : State) (b : Nat) : State :=
  match drain s b with
  | (s, some t) => raiseSeq s b t
  | (s, none) => s

end Sys2Proof.Machine
end

