-- ==== Sys2Proof/Machine/Matrix.lean ====
section
/-! DEFINITION. The matrix sequencer's words (R257 to R284), with the fetcher's deliveries and the completion of a unit. -/

namespace Sys2Proof.Machine
open Bits Numbers

/-! ## Order of words -/

/-- A word that waits until no MMA is in flight: the words take effect in program order (R258, R259). -/
def alone (s : State) (q : Seq) (f : Unit → Res) : Res := if q.flights.isEmpty then f () else .park s 9 .units
/-- Whether an MSTA of a sequencer is not yet complete (R276): a peer store to be placed, or a write that host memory has not
accepted. -/
def storesLeft (s : State) (b : Nat) : Option WaitCond :=
  if s.requests.any (fun r => r.kind == 2 && r.st == 0 && r.core == b / 8 && r.slot == 56 + b % 8) then some (.posted none)
  else if s.hostWrites.any (fun h => h.2.1 == 10000000 + b) then some .hostWrites else none
/-- A word that waits until every earlier word is complete (R278, R282). -/
def settled (s : State) (b : Nat) (q : Seq) (f : Unit → Res) : Res :=
  alone s q (fun _ => match storesLeft s b with
    | some c => .park s 11 c
    | none => f ())
/-- QD and IMM48 of a word of form M-C (Table 1-4). -/
def seqQd (s : State) : Nat := field s.word.toNat 50 4
def seqImm (s : State) : Nat := field s.word.toNat 0 48

/-! ## MMA and MMAQ -/

/-- The position at which a new word in flight starts on a stream (R262). -/
def streamEnd (x : Block) (q : Seq) (k : Nat) : Nat :=
  q.flights.foldl (fun p f =>
    if f.word.sa.toNat = k then f.apos + f.k * f.rowList.length
    else if f.word.sb.toNat + 4 = k then f.bpos + f.k * f.colList.length else p) (x.streams.getD k {}).pos
/-- The lowest free unit (R261). -/
def freeUnit (q : Seq) : Option Nat := (List.range 3).find? (fun u => q.flights.all (fun f => f.unit != u))
/-- K of a word (R264). -/
def kOf (q : Seq) (quant : Bool) (w : MA) : Option Nat :=
  let d := if w.af = 15 then 8 else if quant && w.af == 9 then 64 else 32
  if w.kc ≠ 0 then some (w.kc.toNat * (if w.af = 15 then 8 else 32))
  else
    let k := (q.qs.getD w.qk.toNat 0).toNat
    if k = 0 ∨ k % d ≠ 0 then none else some k
/-- What the flights do at once, as the end of the word that dispatches. -/
def drained (s : State) (b : Nat) : Res :=
  match drain s b with
  | (s, some t) => .trap s t
  | (s, none) => .next s
/-- R262 to R268: dispatch captures K and the predicates and takes a unit. -/
def matrixMul (quant : Bool) (w : MA) (s : State) : Out :=
  seqRun (fun b x q =>
    if q.prog = 1 then drained s b
    else match kOf q quant w, freeUnit q with
      | none, _ => alone s q (fun _ => .trap s (streamBounds 5 w.sa.toNat 0))
      | some _, none => .park s 9 .units
      | some k, some u =>
        let f : Flight := {
          unit := u, pc := q.pc, word := w, quant, k, rows := q.mrp.getD w.mrp.toNat 0, cols := q.mcp.getD w.mcp.toNat 0
          apos := streamEnd x q w.sa.toNat, bpos := streamEnd x q (w.sb.toNat + 4) }
        drained (updSeq s b (fun q => { q with flights := q.flights ++ [f] })) b) s
/-- R262, R264 to R267. -/
def execMma (w : MA) (s : State) : Out := matrixMul false w s
/-- R262, R268. -/
def execMmaq (w : MA) (s : State) : Out := matrixMul true w s

/-! ## The accumulator path -/

/-- An accumulator with every bit zero. -/
def Seq.zeroAc (q : Seq) (i : Nat) : Seq := { q with acs := q.acs.keep (fun k _ => k / 4096 != i) }
/-- R270. -/
def execMzero (w : MA) (s : State) : Out :=
  seqRun (fun b _ q => alone s q (fun _ =>
    .next (updSeq s b (fun q => if w.sub = 1 then (q.zeroAc w.acc.toNat).zeroAc (w.acc.toNat + 1) else q.zeroAc w.acc.toNat)))) s
/-- Elements of a predicate pair that lie within N1 rows and N0 columns, in row-major order. -/
def unmasked (q : Seq) (w : MA) (n1 n0 : Nat) : List (Nat × Nat) :=
  let cols := (bitsOf 64 (q.mcp.getD w.mcp.toNat 0).toNat).filter (fun n => decide (n < n0))
  ((bitsOf 64 (q.mrp.getD w.mrp.toNat 0).toNat).filter (fun m => decide (m < n1))).flatMap (fun m => cols.map (fun n => (m, n)))
/-- R272. -/
def execMadda (w : MA) (s : State) : Out :=
  seqRun (fun b _ q => alone s q (fun _ =>
    .next (updSeq s b (fun q => (unmasked q w 64 64).foldl (fun q e =>
      q.setAc w.acc.toNat e.1 e.2 (round f32 .rne false (add .rne (value f32 (q.ac w.acc.toNat e.1 e.2)) (value f32 (q.ac w.acb.toNat e.1 e.2))))) q)))) s
/-- The record of a direct map, as it was when the word at the PC started (R182, R258). -/
def mapRecord (x : Block) (slot : Nat) : BitVec 256 := (x.seq.bind (·.omap)).getD (x.omaps.getD slot 0)
/-- The word at the PC starts: it keeps the record of its map. -/
def noteMap (s : State) (b : Nat) (x : Block) (slot : Nat) : State := updSeq s b (fun q => { q with omap := some (mapRecord x slot) })
/-- The word at the PC stops with a trap, and begins anew where it is issued again. -/
def undoWord (s : State) (b : Nat) : State := updSeq s b (fun q => { q with prog := 0, buf := [], omap := none, disp := none })
/-- The checks of a direct map (R271, R273, R274): its record, or the trap. -/
def directMap (x : Block) (slot fmt : Nat) (flat : Bool) : Except TrapInfo OMap :=
  let m := omapOf (mapRecord x slot)
  if !m.direct then .error (mapBounds 3 slot 0)
  else if m.fmt ≠ fmt then .error (mapBounds 1 slot 0)
  else if flat && m.n2 != 1 then .error (mapBounds 4 slot 0)
  else .ok m
/-- A sequencer's fault at a map position offered to the fault service, with the word parked (R184, R87). -/
def seqFault (s : State) (b pos : Nat) (k : Access) (f : XFault) (va : Nat) : Res :=
  let t := offer s (.seq (b / 8) (b % 8)) k f va 0
  let mark (r : Nat × FaultRec) : Nat × FaultRec := if r.1 = t.1 then (r.1, { r.2 with ref := pos }) else r
  .park { t.2 with faults := t.2.faults.map mark } 8 (.fault t.1)
/-- The reads of elements of a direct map, in order, from the progress that the sequencer holds; `done` takes the patterns. -/
def readMap (b slot : Nat) (m : OMap) (done : List Nat → State → Res) : List Nat → List Nat → State → Res
  | [], buf, s => done buf.reverse (endMap s (seqIssuer s b 8) 0 m)
  | j :: js, buf, s =>
    let keep (s : State) : State := updSeq s b (fun q => { q with prog := buf.length, buf })
    let undo (s : State) : State := endMap (undoWord s b) (seqIssuer s b 8) 0 m
    match readElem s (seqIssuer s b 8) 0 m j with
    | .ok s e => readMap b slot m done js (e.pat :: buf) s
    | .wait s r c => .park (keep s) r c
    | .bounds => .trap (undo s) (mapBounds 0 slot j)
    | .stack va => .trap (undo s) (apertureTrap va)
    | .fault s f va => seqFault (keep s) b j .read f va
    | .fail s t => .trap (undo s) (operandFault t.cause j)
    | .tile s t => .trap (undo s) t
/-- An element as an accumulator word or pair (R271). -/
def ldaWord (af pat : Nat) : Nat :=
  match af with
  | 7 => ofInt 32 (toInt 8 pat)
  | 8 | 14 | 15 => pat
  | f => match elemFmt f with
    | some g => widen g f32 pat
    | none => pat
/-- R271: every element is read before the accumulator is written. -/
def execMlda (w : MA) (s : State) : Out :=
  seqRun (fun b x q => alone s q (fun _ =>
    match directMap x w.omi.toNat w.af.toNat true with
    | .error t => .trap s t
    | .ok m =>
      let cells := (List.range (min m.n1 64)).flatMap (fun r => (List.range (min m.n0 64)).map (fun n => (r, n)))
      let put (q : Seq) (e : (Nat × Nat) × Nat) : Seq :=
        if w.af = 15 then q.setPair w.acc.toNat e.1.1 e.1.2 (ldaWord 15 e.2) else q.setAc w.acc.toNat e.1.1 e.1.2 (ldaWord w.af.toNat e.2)
      let clear (q : Seq) : Seq := if w.af = 15 then (q.zeroAc w.acc.toNat).zeroAc (w.acc.toNat + 1) else q.zeroAc w.acc.toNat
      readMap b w.omi.toNat m (fun pats s => .next (updSeq s b (fun q => (cells.zip pats).foldl put (clear q))))
        ((cells.drop q.prog).map (fun e => e.2 + m.n0 * e.1)) q.buf (noteMap s b x w.omi.toNat))) s

/-! ## MSTA -/

/-- The value that MSTA rounds: the accumulator times the enabled scales (R274). -/
def scaledAc (q : Seq) (w : MA) (m n : Nat) : Number :=
  let c := if w.af = 15 then value f64 (q.pair w.acc.toNat m n) else value f32 (q.ac w.acc.toNat m n)
  let r := if q.rscaleOn then mul c (value f32 (q.rscale.getD m 0).toNat) else c
  if q.cscaleOn then mul r (value f32 (q.cscale.getD n 0).toNat) else r
/-- The pattern that MSTA writes for an element, with the bits drawn for rsr (R274). -/
def staElem (q : Seq) (w : MA) (r m n : Nat) : Nat :=
  let c := q.ac w.acc.toNat m n
  let md := modeOf w.rm.toNat r
  match w.af.toNat with
  | 7 => if w.sat = 1 then ofInt 8 (Alu.clampInt (-128) 127 (toInt 32 c)) else c % 256
  | 8 => if w.sat = 1 then ofInt 8 (Alu.clampInt 0 255 (toInt 32 c)) else c % 256
  | 14 => if !q.rscaleOn && !q.cscaleOn then c else round f32 md (w.sat == 1) (scaledAc q w m n)
  | af => match elemFmt af with
    | some f => round f md (w.sat == 1) (scaledAc q w m n)
    | none => c
/-- The patterns of the written elements in order, and the generator after their draws (R68). -/
def staElems (q : Seq) (w : MA) : List (Nat × Nat) → W32 → List Nat × W32
  | [], g => ([], g)
  | e :: es, g =>
    let d := if w.rm = 5 then draw g else (g, 0)
    let r := staElems q w es d.1
    (staElem q w d.2 e.1 e.2 :: r.1, r.2)
/-- The packed groups of the written elements, in order: row and group. -/
def staGroups (fmt : Nat) (l : List (Nat × Nat)) : List (Nat × Nat) := (l.map (fun e => (e.1, e.2 / packGroup fmt))).dedup
/-- The first element of a packed group that is out of range, or in the stack aperture (R274). -/
def groupBad (p : Party) (m : OMap) (x : Nat × Nat) : Option Nat :=
  ((List.range (packGroup m.fmt)).map (fun i => x.2 * packGroup m.fmt + i + m.n0 * x.1)).find? (fun j => (p.outside apScalar (m.span j).1 (m.span j).2).isSome)
/-- The groups before the first that is out of range, and its position. -/
def goodGroups (p : Party) (m : OMap) : List (Nat × Nat) → List (Nat × Nat) × Option Nat
  | [] => ([], none)
  | x :: xs => match groupBad p m x with
    | some j => ([], some j)
    | none => let r := goodGroups p m xs; (x :: r.1, r.2)
/-- The bytes of a group: masked elements are the +0 code. -/
def groupCells (m : OMap) (pats : List ((Nat × Nat) × Nat)) (x : Nat × Nat) : List (Nat × Byte) :=
  let g := packGroup m.fmt
  let pat (i : Nat) : Nat := ((pats.find? (fun e => e.1 == (x.1, x.2 * g + i))).map (·.2)).getD 0
  let a := m.group (x.2 * g + m.n0 * x.1)
  cellsAt a.1 (bytesOf a.2 (packElems (elemBits m.fmt) ((List.range g).map pat)))
/-- Runs of consecutive bytes that no 64-byte boundary divides (R166). -/
def unitsOf : List (Nat × Byte) → List (List (Nat × Byte))
  | [] => []
  | x :: xs => match unitsOf xs with
    | (y :: ys) :: us => if y.1 = x.1 + 1 ∧ y.1 % 64 ≠ 0 then (x :: y :: ys) :: us else [x] :: (y :: ys) :: us
    | _ => [[x]]
/-- A unit of an MSTA with the bytes of its row that follow it at once, at most 31, which are checked with it: so is the rest of a packed
group that begins in it (R88, R166). -/
structure StaUnit where
  row : Nat
  cells : List (Nat × Byte)
  ahead : Nat
  deriving DecidableEq, Repr, Inhabited
def withAhead (row : Nat) : List (List (Nat × Byte)) → List StaUnit
  | [] => []
  | u :: us =>
    let next := us.headD []
    let joined := (next.head?.map (·.1)) == some ((u.getLast?.map (·.1)).getD 0 + 1)
    { row, cells := u, ahead := if joined then min 31 next.length else 0 } :: withAhead row us
/-- The units of an MSTA, row by row. -/
def staUnits (m : OMap) (pats : List ((Nat × Nat) × Nat)) (gs : List (Nat × Nat)) : List StaUnit :=
  ((gs.map (·.1)).dedup).flatMap (fun r => withAhead r (unitsOf ((gs.filter (fun g => g.1 == r)).flatMap (groupCells m pats))))
/-- A posted store of an MSTA (R103, R274). -/
def postUnit (b dev : Nat) (l : List (Nat × Byte)) (s : State) : State :=
  match l with
  | [] => s
  | (a, _) :: _ =>
    let (id, s) := s.newId
    { s with requests := s.requests ++ [{ id, kind := 2, dev, core := b / 8, slot := 56 + b % 8, addr := a, bytes := l, since := s.clock }] }
/-- One unit written at its ports and homes (R88, R124, R129, R157, R274), or why it waits. -/
def writeUnit (b : Nat) (posOf : Nat → Nat → Nat) (u : StaUnit) (s : State) : Res :=
  let p := partyOfBlock s b
  let l := u.cells
  match route s p .write ((l.head?.map (·.1)).getD 0) (l.length + u.ahead) with
  | .error (f, va) => seqFault s b (posOf u.row va) .write f va
  | .ok hops =>
    let hops := hops.take l.length
    match snapFault s p.nb.ctx hops with
    | some sub => .trap (undoWord s b) { cause := 0x3B, info := BitVec.ofNat 64 sub, addr := BitVec.ofNat 64 (snapAt s p.nb.ctx hops) }
    | none =>
      let s := keepLeaves s p hops
      let x := hops.zip (l.map (·.2))
      let mine := lineCells x
      let far := byPeer (peerCells x)
      let s := far.foldl (fun s y => dropPeerLine s (b / 8) y.1 (farAddr y)) s
      match far.findSome? (fun y => remoteBlock s (b / 8) (56 + b % 8) y.1 (farAddr y)) with
      | some id => .park s 11 (.remote id)
      | none =>
        let mark := (seqIssuer s b 8).engMark
        if !tableRoom s (b / 8) fetcherTable mark far.length then .park (joinQueue s (b / 8) fetcherTable mark) 11 (.requests far.length)
        else
        let r := dropLines (b / 8) (lines64 mine) (leaveQueue s (b / 8) fetcherTable mark)
        if !r.1 then .park r.2 11 (.writeBacks (b / 8))
        else match homeAll (· == .stream (.seq (b / 8) (b % 8)) false) { agent := 2, core := b / 8, slot := 47, pc := (p.blk.seq.map (·.pc)).getD 0, block := some b } (byLine mine) r.2 with
          | .noRoom k s => .park (exhaust s k) 11 (.region (k + 256 * roomPlace))
          | .waits k s => .park s 11 (.region k)
          | .poolPage s => .trap (undoWord s b) { cause := 0x3B, info := 8, addr := BitVec.ofNat 64 (snapAt s p.nb.ctx hops) }
          | .done s =>
            let s := toHost (addLines s (b / 8) (48 + b % 8) (lines64 mine)) (10000000 + b) mine
            let s := writeSpad s p.nb.ctx true (spadCells x)
            let s := { s with chip := Memory.write s.chip (chipCells x) }
            .next (far.foldl (fun s y => postUnit b y.1 y.2 s) s)
/-- The generator after a number of draws (R68). -/
def drawn : Nat → W32 → W32
  | 0, g => g
  | n + 1, g => drawn n (draw g).1
/-- The units that are left, in order; the progress counts those written, and `draws` the elements of a unit that drew for it. -/
def writeUnits (b : Nat) (posOf : Nat → Nat → Nat) (draws : StaUnit → Nat) (fin : State → Res) : Nat → List StaUnit → State → Res
  | _, [], s => fin s
  | n, u :: us, s =>
    match writeUnit b posOf u s with
    | .next s => writeUnits b posOf draws fin (n + 1) us (updSeq s b (fun q => { q with prog := n + 1, rng := drawn (draws u) q.rng }))
    | r => r
/-- The elements that draw as a unit is written: the unmasked ones that begin in it, of the groups in range (R68, R274). -/
def staDraws (w : MA) (m : OMap) (es gs : List (Nat × Nat)) (u : StaUnit) : Nat :=
  if w.rm = 5 then (es.filter (fun e => e.1 == u.row && gs.contains (e.1, e.2 / packGroup m.fmt) &&
    u.cells.any (fun x => x.1 == (m.span (e.2 + m.n0 * e.1)).1))).length else 0
/-- An MSTA into memory (R274): of the elements, those of the groups before the first out of range are written, and only they draw. -/
def staMemory (b : Nat) (w : MA) (m : OMap) (es : List (Nat × Nat)) (pats : List Nat) (s : State) : Res :=
  let p := partyOfBlock s b
  let q := (p.blk.seq).getD {}
  let g := goodGroups p m (staGroups m.fmt es)
  let fin (s : State) : Res := match g.2 with
    | none => .next s
    | some j => .trap (undoWord s b) (if (p.ap (m.span j).1).1 = 3 then apertureTrap (m.span j).1 else mapBounds 0 w.omi.toNat j)
  let at' (e : Nat × Nat) : Nat × Nat := m.span (e.2 + m.n0 * e.1)
  let posOf (row va : Nat) : Nat := ((es.find? (fun e => e.1 == row && decide ((at' e).1 ≤ va) && decide (va < (at' e).1 + (at' e).2))).map (fun e => e.2 + m.n0 * e.1)).getD 0
  writeUnits b posOf (staDraws w m es g.1) fin q.prog ((staUnits m (es.zip pats) g.1).drop q.prog) s
/-- The tile word that an MSTA defines (R275). -/
def staTile (w : MA) (m : OMap) : Nat := w.af.toNat * 2 ^ 28 + (m.n0 - 1) % 64 * 2 ^ 22 + (m.n1 - 1) % 64 * 2 ^ 16 + m.base % 65536
/-- The value of the tile, masked elements as zero. -/
def staValue (m : OMap) (t : Nat) (pats : List ((Nat × Nat) × Nat)) : List Byte :=
  (List.range m.n1).flatMap (fun r => bytesOf (rowBytes t) (packElems (elemBits m.fmt)
    ((List.range m.n0).map (fun n => ((pats.find? (fun e => e.1 == (r, n))).map (·.2)).getD 0))))
/-- R274, R275. The elements are converted once, when the word starts; the generator advances as they are written, or as the definition is
accepted (R68, R192). -/
def execMsta (w : MA) (s : State) : Out :=
  seqRun (fun b x q => alone s q (fun _ =>
    match directMap x w.omi.toNat w.af.toNat true with
    | .error t => .trap s t
    | .ok m =>
      let es := unmasked q w m.n1 m.n0
      let pats := if q.buf.isEmpty then (staElems q w es q.rng).1 else q.buf
      let start (s : State) : State := updSeq (noteMap s b x w.omi.toNat) b (fun q => { q with buf := pats })
      if m.n0 % packGroup m.fmt ≠ 0 then .trap s (mapBounds 4 w.omi.toNat 0)
      else match m.space with
      | 0 => staMemory b w m es pats (start s)
      | 1 =>
        let t := staTile w m
        let o : TileOp := { id := 0, strm := .seq (b / 8) (b % 8), kind := 1, word := t, value := staValue m t (es.zip pats) }
        if decide (64 < m.n0) || decide (64 < m.n1) || shapeBad t then .trap s (tileTrap 0x33 1 t)
        else match tileRun x.nb false o (fun o s => sendAndWait x.nb o (start s))
          (fun o s => .next (updSeq (dropTileOp s x.nb o.id) b (fun q => { q with rng := drawn (if w.rm = 5 then es.length else 0) q.rng }))) s with
        | .trap s t => .trap (undoWord s b) t
        | r => r
      | _ => .trap s (operandFault 6 0))) s

/-! ## Predicates and scales -/

/-- The predicate of MPRD (R277). -/
def mprdMask (first count : Nat) : W64 := BitVec.ofNat 64 (maskOf ((List.range 64).filter (fun j => decide (first ≤ j) && decide (j < first + count))))
def Seq.setPred (q : Seq) (w : MP) (v : W64) : Seq :=
  if w.rc = 0 then { q with mrp := q.mrp.set w.pi.toNat v } else { q with mcp := q.mcp.set w.pi.toNat v }
/-- R277. -/
def execMprdCnt (w : MP) (s : State) : Out :=
  seqRun (fun b _ q => alone s q (fun _ => .next (updSeq s b (fun q => q.setPred w (mprdMask w.first.toNat w.cnt.toNat))))) s
/-- R277. -/
def execMprdQ (w : MP) (s : State) : Out :=
  seqRun (fun b _ q => alone s q (fun _ =>
    .next (updSeq s b (fun q => q.setPred w (mprdMask w.first.toNat (min 64 ((q.qs.getD w.qs.toNat 0).toNat % 128))))))) s
/-- A scale vector loaded and enabled, or disabled: its 64 values stay (Table 12-1). -/
def Seq.setScale (q : Seq) (w : MP) (v : NMap W32) : Seq := if w.rc = 0 then { q with rscale := v, rscaleOn := true } else { q with cscale := v, cscaleOn := true }
def Seq.clearScale (q : Seq) (w : MP) : Seq := if w.rc = 0 then { q with rscaleOn := false } else { q with cscaleOn := false }
/-- A scale vector from its 64 values. -/
def scaleVec (pats : List Nat) : NMap W32 := (List.range 64).map (fun i => (i, BitVec.ofNat 32 (pats.getD i 0)))
/-- R273. -/
def execMsclSet (w : MP) (s : State) : Out :=
  seqRun (fun b x q => alone s q (fun _ =>
    match directMap x w.omi.toNat 14 false with
    | .error t => .trap s t
    | .ok m =>
      if m.count < 64 then .trap s (mapBounds 4 w.omi.toNat 0)
      else readMap b w.omi.toNat m (fun pats s => .next (updSeq s b (fun q => q.setScale w (scaleVec pats))))
        ((List.range 64).drop q.prog) q.buf (noteMap s b x w.omi.toNat))) s
/-- R273. -/
def execMsclClr (w : MP) (s : State) : Out := seqRun (fun b _ q => alone s q (fun _ => .next (updSeq s b (fun q => q.clearScale w)))) s

/-! ## Control -/

/-- R278, R129: it carries, arrives, and then sets its released bit, which clears nothing. -/
def execMnba (s : State) : Out :=
  seqRun (fun b _ q => settled s b q (fun _ =>
    let s' := s.updBlock b (fun x => x.nbArrive (seqImm s % 16) (carriedSig s (b / 8) (48 + b % 8)) true)
    .next (releaseBit s' (b / 8) (48 + b % 8)))) s
/-- R278, R129. -/
def execMnbw (s : State) : Out :=
  seqRun (fun b x q => alone s q (fun _ =>
    let n := x.nbs.getD (seqImm s % 16) {}
    let ph := seqImm s / 16 % 2
    if n.phase = ph then .park s 3 (.nb (seqImm s % 16) ph) else .next (takeCarried s (b / 8) (48 + b % 8) n.lastSig))) s
/-- Whether the streams of a mask have an empty feed queue and an empty FIFO (R279). -/
def streamsEmpty (x : Block) (mask : Nat) : Bool :=
  (bitsOf 8 mask).all (fun k => (x.streams.getD k {}).feed.isEmpty && (x.streams.getD k {}).elems.isEmpty)
/-- R279. -/
def execMwaits (s : State) : Out :=
  seqRun (fun _ x q => alone s q (fun _ => if streamsEmpty x (seqImm s % 256) then .next s else .park s 9 (.streams (seqImm s % 256)))) s
/-- R280. -/
def execMloop (s : State) : Out :=
  seqRun (fun b _ q => alone s q (fun _ =>
    if 4 ≤ q.loops.length then .trap s (illegal 0x10)
    else .next (updSeq s b (fun q => { q with qs := q.qs.set (seqQd s) (BitVec.ofNat 32 (seqImm s % 2 ^ 20)), loops := (seqQd s, q.pc + 1) :: q.loops })))) s
/-- R280. -/
def execMend (s : State) : Out :=
  seqRun (fun b _ q => alone s q (fun _ =>
    match q.loops with
    | [] => .trap s (illegal 0x11)
    | (d, start) :: ls =>
      let v := q.qs.getD d 0 - 1
      let s' := updSeq s b (fun q => { q with qs := q.qs.set d v, loops := if v = 0 then ls else q.loops })
      if v = 0 then .next s' else .jump s' (BitVec.ofNat 64 start))) s
/-- R281. -/
def execMjmp (s : State) : Out :=
  seqRun (fun _ _ q => alone s q (fun _ => .jump s (BitVec.ofNat 64 (ofInt 32 ((q.pc : Int) + toInt 20 (seqImm s % 2 ^ 20)))))) s
/-- R282. -/
def execMsafe (s : State) : Out :=
  seqRun (fun b x q =>
    if s.saveOps.any (fun o => o.nb == x.nb && !o.restore && !o.done) then
      settled s b q (fun _ => .next (updSeq s b (fun q => { q with safe := some (BitVec.ofNat 48 (seqImm s)) })))
    else .next s) s
/-- The sequencer's end: its accumulators and streams are emptied and the numbered barriers stop expecting it (R282, R337). -/
def Block.endSeq (x : Block) : Block :=
  let x := { x with
    seq := x.seq.map (fun q => { q with exited := true, acs := [], flights := [] })
    streams := x.streams.mapV (fun _ y => { y with elems := [], feed := [], past := [], next := 0, stop := none }) }
  (List.range 16).foldl Block.nbLeave x
/-- The reads of a sequencer's operands and tiles that are under way are dropped. -/
def dropOperands (s : State) (b : Nat) : State :=
  let mine (o : TileOp) : Bool := o.strm == .seq (b / 8) (b % 8)
  { s with
    requests := s.requests.filter (fun r => !(r.strong && r.core == b / 8 && r.slot == 64 + b % 8))
    nbhds := s.nbhds.mapV (fun _ n => { n with ops := n.ops.filter (fun o => !mine o) }) }
/-- R282. -/
def execMexit (s : State) : Out :=
  seqRun (fun b _ q => settled s b q (fun _ =>
    .next (releaseBit (dropOperands (s.updBlock b Block.endSeq) b) (b / 8) (48 + b % 8)))) s
/-- R34, R281. -/
def execMhint (s : State) : Out := seqRun (fun _ _ _ => .next s) s

/-! ## Events of the fetcher and the units -/

/-- R182: the fetcher of a block appends up to the number of elements that the event brings to one of its streams. -/
def execFetcherDeliver (s : State) : Out :=
  event (fun s =>
    let b := s.input.core * 8 + s.input.idx % 8
    let k := s.input.x % 8
    (s.block? b).bind (fun x => if x.seq.isSome && !(x.streams.getD k {}).feed.isEmpty then some (drainNow (deliverSome s b k s.input.len) b) else none)) s
/-- A trap that waited for the words in flight before it is taken (R259). -/
def pendNow (s : State) (b : Nat) : State :=
  match (s.block? b).bind (·.seq) with
  | none => s
  | some q => match q.pend with
    | some t => if q.flights.isEmpty && !q.stopped then raiseSeq s b t else s
    | none => s
/-- R261: the unit of the first word in flight finishes it, and the next one takes its elements. -/
def execMatrixUnitComplete (s : State) : Out :=
  event (fun s =>
    let b := s.input.core * 8 + s.input.idx % 8
    ((s.block? b).bind (·.seq)).bind (fun q => match q.stopped, q.flights with
      | false, f :: fs => if f.complete && f.unit == s.input.unit then some (pendNow (drainNow (updSeq s b (fun q => { q with flights := fs })) b) b) else none
      | _, _ => none)) s

end Sys2Proof.Machine
end

