-- ==== Sys2Proof/Machine/Snap.lean ====
section
/-! DEFINITION. Snapshot regions: SNAPDEF, SNAP, SACC, SREJ, SQRY and SSWEEP (R298 to R316); what the Sinter engine then does is
among the events. -/

namespace Sys2Proof.Machine
open Bits

/-! ## Regions -/

/-- The region of a context with an index, and its slot. -/
def findRegion (s : State) (ctx sg : Nat) : Option (Nat × Region) := s.regions.findV (fun _ r => r.ctx == ctx && r.sg == sg)
/-- SNAP_REGION, SNAP_DEPTH and SNAP_EPOCH_WRAP with a subcode (Table 14-5). -/
def snapRegion (sub : Nat) : TrapInfo := { cause := 0x3B, info := BitVec.ofNat 64 sub }
def snapDepth (sub : Nat) : TrapInfo := { cause := 0x39, info := BitVec.ofNat 64 sub }
/-- The pages that n bytes from a page-crossing address touch. -/
def pagesOf (va n : Nat) : List Nat := (List.range ((va + n + 4095) / 4096 - va / 4096)).map (· + va / 4096)
/-- The physical page of a virtual page that a type 2 leaf maps in local HBM with R and W (R299); none of a page outside the global
window. -/
def hbmPage (s : State) (ctx page : Nat) : Option Nat :=
  if 2 ^ 52 ≤ page * 4096 then none
  else match walk s ctx (page * 4096) with
  | .error _ => none
  | .ok l =>
    match resolve s ctx l (page * 4096) with
    | .error _ => none
    | .ok x => if l.entry % 8 = 2 ∧ bit l.entry 3 ∧ bit l.entry 4 ∧ isHbm x.pa ∧ x.dev = none then some (x.pa / 4096) else none
/-- Pages all of which are such pages. -/
def hbmPages (s : State) (ctx : Nat) : List Nat → Option (List Nat)
  | [] => some []
  | p :: ps => match hbmPage s ctx p, hbmPages s ctx ps with
    | some x, some l => some (x :: l)
    | _, _ => none
/-- The entry of the page map for a page of a region (R299). -/
def regionPage (slot base lines page : Nat) : Nat × Nat × Nat :=
  let lo := base / 256
  let hi := lo + lines - 1
  (slot, if lo / 16 = page then lo % 16 else 0, if hi / 16 = page then hi % 16 else 15)
/-- The virtual pages of a pool (R298). -/
def poolPagesOf (pool pent : Nat) : List Nat := pagesOf pool (272 * pent)
/-- The first free slot of the module's region table; slot 0 means none (R299). -/
def regionSlot (s : State) : Option Nat := (List.range 256).find? (fun k => k != 0 && (s.regions.get? k).isNone)
/-- Pages entered in the page map. -/
def markPages (m : NMap (Nat × Nat × Nat)) (l : List (Nat × (Nat × Nat × Nat))) : NMap (Nat × Nat × Nat) := l.foldl (fun m x => m.set x.1 x.2) m
/-- The 64-byte lines of a region, by physical address. -/
def Region.lines64 (r : Region) : List Nat :=
  (List.range r.lines).flatMap (fun k =>
    let va := r.base + 256 * k
    let pa := r.pages.getD (va / 4096 - r.base / 4096) 0 * 4096 + va % 4096
    [pa, pa + 64, pa + 128, pa + 192])
/-- The 256-byte lines of a region, by number. -/
def Region.tagKeys (r : Region) : List Nat := (r.lines64.map (· / 256)).dedup

/-! ## The instructions -/

/-- The wait for an operation of one's own (R313). -/
def ownRegion (slot : Nat) : WaitCond := .region (slot % 256 + 256 * ownPlace)
/-- The place of a group's scalar stream at a region's record. -/
def recordPlace (c sl : Nat) (g : Group) : SliceParty × Nat := (.stream (.scalar c sl) g.trapMode, 0)
/-- Whether an instruction is the first of those that have reached a region's record and can go on (R312). -/
def firstAtRecord (s : State) (r : Region) (me : SliceParty × Nat) : Bool := !r.before s (· == me.1) 0
/-- An operation that the Sinter engine runs to its end; the scalar stream waits for it (R313). -/
def startOp (s : State) (c sl slot : Nat) (g : Group) (f : Region → Region) : Res :=
  let mine (r : Region) : Region := { f r with issuer := some (c * 48 + sl, if g.trapMode then 1 else 0) }
  .park ((s.updRegion slot mine).updGroup c sl (fun h => { h with arrived := some 2 })) 11 (ownRegion slot)
/-- The wait of an instruction whose own operation has been accepted (R313). -/
def ownWait (c sl slot : Nat) (g : Group) (r : Region) (s : State) : Res :=
  if r.issuer = some (c * 48 + sl, if g.trapMode then 1 else 0) then .park s 11 (ownRegion slot) else .next s
/-- An instruction at a region's record: taken in its turn, once no other runs (R312). -/
def inTurn (c sl slot : Nat) (g : Group) (r : Region) (s : State) (body : State → Res) : Res :=
  if r.st ≠ 0 ∨ firstAtRecord s r (recordPlace c sl g) = false then .park s 11 (.region slot) else body (leaveRegion s slot (recordPlace c sl g))
/-- A region instruction: its own accepted operation is waited for, and another's first (R312, R313). -/
def regionRun (a : BitVec 6) (c sl : Nat) (g : Group) (s : State) (body : State → Nat → Region → Res) : Res :=
  match findRegion s (s.nbhdOf g).ctx (g.field a % 64) with
  | none => if g.arrived = some 2 then .next s else .trap s (snapRegion 3)
  | some (slot, r) => if g.arrived = some 2 then ownWait c sl slot g r s else inTurn c sl slot g r s (fun s => body s slot r)

/-- R302: it waits as LSYNC does and performs step 1 of R133 first (R314). -/
def execSnap (a : BitVec 6) (s : State) : Out :=
  scalarRun false 0 4 [a.toNat] (fun c sl g =>
    regionRun a c sl g s (fun s slot r =>
      if !g.drained then .park s 11 .drained
      else
        let f := flushL1 c s
        if !f.1 then .park f.2 11 (.writeBacks c)
        else
          let s := f.2
          if r.depth = 7 then .trap s (snapDepth 1)
          else if r.e = 0xFFFF then .trap s { cause := 0x3A, info := 1 }
          else .next (s.updRegion slot (fun r => { r with e := r.e + 1, depth := r.depth + 1, levels := r.levels ++ [(r.e + 1, r.n)] })))) s
/-- R307. -/
def execSacc (a : BitVec 6) (s : State) : Out :=
  scalarRun false 0 4 [a.toNat] (fun c sl g =>
    regionRun a c sl g s (fun s slot r =>
      if r.depth = 0 then .trap s (snapDepth 2)
      else if r.depth = 1 then .next (s.updRegion slot (fun r => { r with n := 0, depth := 0, levels := [], exhausted := false }))
      else startOp s c sl slot g (fun r => { r with st := 2 }))) s
/-- R308: the release steps for its mask, the REJECTING instant, and the L1 copies of the region dropped. -/
def execSrej (a : BitVec 6) (o : BitVec 5) (s : State) : Out :=
  scalarRun false 0 4 [a.toNat] (fun c sl g =>
    regionRun a c sl g s (fun s slot r =>
      if r.depth = 0 then .trap s (snapDepth 2)
      else if !g.drained then .park s 11 .drained
      else match releaseSteps s c sl (if o = 0 then 0b11110 else o.toNat) with
        | .wait s reason w => .park s reason w
        | .trap s t => .trap s t
        | .ok s =>
          let inside (line : Nat) : Bool := match regionAt s (line * 64) with
            | some (k, false, _) => k == slot
            | _ => false
          let drop (k : Core) : Core := { k with l1 := k.l1.keep (fun l _ => !inside l) }
          startOp (s.updCore c drop) c sl slot g (fun r => { r with st := 1 }))) s
/-- R311. -/
def execSsweep (a : BitVec 6) (s : State) : Out :=
  scalarRun false 0 4 [a.toNat] (fun c sl g =>
    regionRun a c sl g s (fun s slot r =>
      if r.depth ≠ 0 then .trap s (snapDepth 3) else startOp s c sl slot g (fun r => { r with st := 3 }))) s
/-- The record of a region as SQRY reads it (Table 14-4). -/
def Region.query (r : Region) : Nat :=
  r.depth + 8 * (if r.st = 5 then 0 else r.st) + 64 + (if r.exhausted then 128 else 0) + 256 * r.e + 2 ^ 24 * r.n
/-- R315. -/
def execSqry (d a : BitVec 6) (s : State) : Out :=
  scalarRun false 0 4 [d.toNat, a.toNat] (fun c sl g =>
    .next (putS s c sl d (((findRegion s (s.nbhdOf g).ctx (g.field a % 64)).map (fun x => x.2.query)).getD 0))) s

/-! ## SNAPDEF -/

/-- A region defined: its pages marked; its tags are then set (R299, R301, R314). -/
def defineRegion (s : State) (c sl : Nat) (g : Group) (sg base lines pent pool : Nat) : Res :=
  let ctx := (s.nbhdOf g).ctx
  match regionSlot s with
  | none => .trap s (snapRegion 6)
  | some slot =>
    match hbmPages s ctx (pagesOf base (256 * lines)), hbmPages s ctx (poolPagesOf pool pent) with
    | some rp, some pp =>
      if (rp ++ pp).any (fun p => (s.pageMap.get? p).isSome) || pp.any (fun p => rp.contains p) then .trap s (snapRegion 1)
      else
        let marks := (pagesOf base (256 * lines)).zip rp |>.map (fun x => (x.2, regionPage slot base lines x.1))
        let r : Region := { ctx, sg, base, lines, pent, pool, pages := rp, poolPages := pp, st := 5 }
        let s := { s with regions := s.regions.set slot r, pageMap := markPages s.pageMap (marks ++ pp.map (fun p => (p, slot, 0, 15))) }
        startOp s c sl slot g (fun r => r)
    | _, _ => .trap s (snapRegion 2)
/-- A pool grown in place, or moved by the Sinter engine (R310). -/
def growRegion (s : State) (c sl : Nat) (g : Group) (slot : Nat) (r : Region) (pent pool : Nat) : Res :=
  match hbmPages s r.ctx (poolPagesOf pool pent) with
  | none => .trap s (snapRegion 2)
  | some pp =>
    let old := if pool = r.pool then r.poolPages else []
    if pp.any (fun p => !old.contains p && (s.pageMap.get? p).isSome) then .trap s (snapRegion 1)
    else
      let gone := old.filter (fun p => !pp.contains p)
      let s := { s with pageMap := markPages (s.pageMap.keep (fun p _ => !gone.contains p)) (pp.map (fun p => (p, slot, 0, 15))) }
      if pool = r.pool then .next (s.updRegion slot (fun r => { r with pent, poolPages := pp, exhausted := false }))
      else startOp s c sl slot g (fun r => { r with st := 4, newPool := pool, newPent := pent, newPages := pp })
/-- A region removed: its pages and its pool's are unmarked (R311). -/
def removeRegion (s : State) (slot : Nat) : State :=
  { s with regions := s.regions.erase slot, pageMap := s.pageMap.keep (fun _ m => m.1 != slot) }
/-- A descriptor outside Table 14-1. -/
def illegalRec (bs : List Byte) : Bool :=
  let lines := leAt bs 8 4
  let grow := bit (leAt bs 24 4) 0
  decide (2 ≤ leAt bs 24 4) || leAt bs 28 4 != 0 || ((lines != 0 || grow) &&
    (leAt bs 0 8 % 256 != 0 || decide (2 ^ 52 ≤ leAt bs 0 8) || leAt bs 12 4 == 0 || leAt bs 16 8 % 4096 != 0 || decide (2 ^ 52 ≤ leAt bs 16 8)))
/-- The descriptor that a waiting SNAPDEF has read, kept as a number from 2^256 up (R298). -/
def keptRec (g : Group) : Option (List Byte) := g.arrived.bind (fun n => if 2 ^ 256 ≤ n then some (bytesOf 32 n) else none)
def keepRec (bs : List Byte) (c sl : Nat) (s : State) : State := s.updGroup c sl (fun g => { g with arrived := some (2 ^ 256 + ofBytes bs) })
/-- R314: the descriptor is read once, at issue (R298). -/
def execSnapdef (a b : BitVec 6) (s : State) : Out :=
  scalarRun false 0 4 [a.toNat, b.toNat] (fun c sl g =>
    let sg := g.field a % 64
    let found := findRegion s (s.nbhdOf g).ctx sg
    if g.arrived = some 2 then
      (match found with
        | none => .next s
        | some (slot, r) => ownWait c sl slot g r s)
    else match (match keptRec g with
      | some bs => .ok s bs
      | none => readRecord (scalarIssuer s c sl g) (g.field b) 32 32 s : Rec) with
    | .stop x => x
    | .ok s bs =>
      if illegalRec bs then .trap s (illegal 4)
      else match found with
      | none =>
        if bit (leAt bs 24 4) 0 then .trap s (snapRegion 7)
        else if leAt bs 8 4 = 0 then .trap s (snapRegion 3)
        else defineRegion s c sl g sg (leAt bs 0 8) (leAt bs 8 4) (leAt bs 12 4) (leAt bs 16 8)
      | some (slot, r) =>
        inTurn c sl slot g r (keepRec bs c sl s) (fun s =>
          if bit (leAt bs 24 4) 0 then
            (if leAt bs 0 8 ≠ r.base ∨ leAt bs 8 4 ≠ r.lines ∨ leAt bs 12 4 < r.n then .trap s (snapRegion 7)
             else growRegion s c sl g slot r (leAt bs 12 4) (leAt bs 16 8))
          else if leAt bs 8 4 ≠ 0 then .trap s (snapRegion 4)
          else if r.depth ≠ 0 then .trap s (snapDepth 3)
          else .next (removeRegion s slot))) s

end Sys2Proof.Machine
end

