-- ==== Sys2Proof/WellFormed.lean ====
section
/-! DEFINITION. Which instructions are well formed: those that every check of R33 on their field values accepts. -/

namespace Sys2Proof

/-- An instruction whose fields pass the checks of Table 1-13, in a group with the architectural maximum of 256 lane
registers (R210). The check of a smaller allocation is made when the word is fetched (R212). -/
def WellFormed (i : Instr) : Prop := Encoding.fault 256 i = none

/-- Well-formedness as a Boolean. -/
def wellFormed (i : Instr) : Bool := (Encoding.fault 256 i).isNone

end Sys2Proof
end

