-- ==== Sys2Proof/Decode.lean ====
section
/-! DEFINITION. The decoder of the three streams, total on any bits, and the encoder beside it (Tables 1-1 to 1-12).
A word that fails a check of R33 is answered by its ILLEGAL_ENCODING subcode (Table 1-13). -/

namespace Sys2Proof

/-! ## Scalar words -/

/-- A scalar word of form S-R (Table 1-1). -/
def wordSR (op d a b : BitVec 6) (sub : BitVec 5) (f : BitVec 3) : W32 := op ++ d ++ a ++ b ++ sub ++ f
/-- A scalar word of form S-I (Table 1-1). -/
def wordSI (op d a : BitVec 6) (imm : BitVec 13) : W32 := op ++ d ++ a ++ imm ++ 0#1
/-- A scalar word of form S-B (Table 1-1). -/
def wordSB (op a : BitVec 6) (off : BitVec 20) : W32 := op ++ a ++ off
/-- A scalar word of form S-E (Table 1-1). -/
def wordSE (op d a b : BitVec 6) (sub : BitVec 3) (ctl : BitVec 5) : W32 := op ++ d ++ a ++ b ++ sub ++ ctl
/-- The first word of form S-X (Table 1-1). -/
def wordSX (op d a b c : BitVec 6) : W32 := op ++ d ++ a ++ b ++ c ++ 0#2
/-- IMM32 of an S-X memory word (Table 1-2). -/
def wordSXMem (x : SXMem) : W32 := x.off ++ x.ord ++ x.obs ++ x.wid ++ x.sgn ++ 0#1

/-- The control fields in IMM32 (Table 1-2). -/
def sxMemOf (i : W32) : SXMem :=
  { off := i.extractLsb' 12 20, ord := i.extractLsb' 10 2, obs := i.extractLsb' 5 5, wid := i.extractLsb' 2 3,
    sgn := i.extractLsb' 1 1 }

/-- True when the OP field names a cell of form S-X, whose words are 64 bits (Table 1-9). -/
def isSX (w : W32) : Bool :=
  let op := (w.extractLsb' 26 6).toNat
  op == 0x34 || (0x38 ≤ op && op ≤ 0x3F)

/-- An answer guarded by a check: the subcode where the check finds a fault. -/
def guard (bad : Bool) (sub : Nat) (k : Except Nat Instr) : Except Nat Instr := if bad then .error sub else k

/-- The S-R cell 0x00 (Table 1-9, R252). -/
def rawCell00 (d a b : BitVec 6) (sub : BitVec 5) (f : BitVec 3) : Except Nat Instr :=
  match sub.toNat with
  | 0 => .ok (.sadd d a b f)
  | 1 => .ok (.ssub d a b f)
  | 2 => .ok (.smul d a b f)
  | 3 => .ok (.smulh d a b f)
  | 4 => .ok (.smin d a b f)
  | 5 => .ok (.smax d a b f)
  | 6 => guard (b != 0) 3 (.ok (.sabs d a f))
  | 7 => guard (b != 0) 3 (.ok (.sneg d a f))
  | 8 => .ok (.saddc d a b f)
  | 9 => .ok (.sand d a b f)
  | 10 => .ok (.sor d a b f)
  | 11 => .ok (.sxor d a b f)
  | 12 => guard (b != 0) 3 (.ok (.snot d a f))
  | 13 => .ok (.sshl d a b f)
  | 14 => .ok (.sshr d a b f)
  | 15 => .ok (.ssra d a b f)
  | 16 => guard (b != 0) 3 (.ok (.spopc d a f))
  | 17 => guard (b != 0) 3 (.ok (.sclz d a f))
  | 18 => guard (b != 0) 3 (.ok (.sbrev d a f))
  | 19 => guard (b != 0) 3 (.ok (.smov d a f))
  | _ => .error 2

/-- The floating S-R cell 0x02 (Table 1-9, R254). -/
def rawCell02 (d a b : BitVec 6) (sub : BitVec 5) (f : BitVec 3) : Except Nat Instr :=
  match sub.toNat with
  | 0 => .ok (.sfadd d a b f)
  | 1 => .ok (.sfmul d a b f)
  | 2 => .ok (.sfmin d a b f)
  | 3 => .ok (.sfmax d a b f)
  | 4 => guard (b.extractLsb' 3 3 != 0) 4 (.ok (.scvt d a (b.extractLsb' 0 3) f))
  | _ => .error 2

/-- The S-E cell 0x20 (Tables 1-9 and 1-10). -/
def rawCell20 (d a b : BitVec 6) (sub : BitVec 3) (c : BitVec 5) : Except Nat Instr :=
  match sub.toNat with
  | 0 => guard (d != 0 || c.extractLsb' 2 2 != 0) 3 (.ok (.cpy a b (c.extractLsb' 4 1) (c.extractLsb' 0 2)))
  | 1 => guard (d != 0 || c.extractLsb' 1 3 != 0) 3 (.ok (.cpyg a b (c.extractLsb' 4 1) (c.extractLsb' 0 1)))
  | 2 => guard (a != 0 || b != 0 || c != 0) 3 (.ok (.cseal d))
  | 3 => guard (d != 0 || b != 0 || c != 0) 3 (.ok (.cwait a))
  | 4 => guard (b != 0 || c != 0) 3 (.ok (.cpoll d a))
  | 5 => guard (d != 0 || b != 0 || c.extractLsb' 4 1 != 0) 3 (.ok (.omap a (c.extractLsb' 0 4)))
  | 6 => guard (a != 0 || b != 0 || c.extractLsb' 3 2 != 0) 3 (.ok (.ostat d (c.extractLsb' 0 3)))
  | _ => .error 2

/-- The S-E cell 0x21 (Tables 1-9 and 1-10). -/
def rawCell21 (d a b : BitVec 6) (sub : BitVec 3) (c : BitVec 5) : Except Nat Instr :=
  match sub.toNat with
  | 0 => guard (d != 0 || c != 0) 3 (.ok (.tdef a b))
  | 1 => guard (d != 0 || c != 0) 3 (.ok (.trds a b))
  | 2 => guard (d != 0 || b != 0 || c != 0) 3 (.ok (.tkill a))
  | 3 => guard (b != 0 || c != 0) 3 (.ok (.tqry d a))
  | _ => .error 2

/-- The S-E cell 0x22 (Tables 1-9 and 1-10). -/
def rawCell22 (d a b : BitVec 6) (sub : BitVec 3) (c : BitVec 5) : Except Nat Instr :=
  match sub.toNat with
  | 0 => guard (d != 0 || c != 0) 3 (.ok (.snapdef a b))
  | 1 => guard (d != 0 || b != 0 || c != 0) 3 (.ok (.snap a))
  | 2 => guard (d != 0 || b != 0 || c != 0) 3 (.ok (.sacc a))
  | 3 => guard (d != 0 || b != 0) 3 (.ok (.srej a c))
  | 4 => guard (b != 0 || c != 0) 3 (.ok (.sqry d a))
  | 5 => guard (d != 0 || b != 0 || c != 0) 3 (.ok (.ssweep a))
  | _ => .error 2

/-- The S-E cell 0x23 (Tables 1-9 and 1-10). -/
def rawCell23 (d a b : BitVec 6) (sub : BitVec 3) (c : BitVec 5) : Except Nat Instr :=
  match sub.toNat with
  | 0 => guard (a != 0 || b != 0 || c.extractLsb' 3 2 != 0) 3 (.ok (.bar d (c.extractLsb' 0 3)))
  | 1 => guard (b != 0 || c != 0) 3 (guard (d.extractLsb' 4 2 != 0) 4 (.ok (.nbinit (d.extractLsb' 0 4) a)))
  | 2 => guard (a != 0 || b != 0 || c != 0) 3 (guard (d.extractLsb' 4 2 != 0) 4 (.ok (.nbarr (d.extractLsb' 0 4))))
  | 3 => guard (b != 0 || c != 0) 3 (guard (d.extractLsb' 4 2 != 0) 4 (.ok (.nbwait (d.extractLsb' 0 4) a)))
  | _ => .error 2

/-- The S-E cell 0x24 (Tables 1-9 and 1-10). -/
def rawCell24 (d a b : BitVec 6) (sub : BitVec 3) (c : BitVec 5) : Except Nat Instr :=
  match sub.toNat with
  | 0 => guard (d != 0) 3 (.ok (.ctradd a b c))
  | 1 => guard (d != 0) 3 (.ok (.ctrwait a b c))
  | 2 => guard (c != 0) 3 (.ok (.ticket d a b))
  | 3 => guard (c != 0) 3 (.ok (.diffmax d a b))
  | 4 => guard (c.extractLsb' 1 4 != 0) 3 (.ok (if c.extractLsb' 0 1 = 0 then .launch d a b else .launchDirect d a b))
  | _ => .error 2

/-- The S-E cell 0x25 (Tables 1-9 and 1-10). -/
def rawCell25 (d a b : BitVec 6) (sub : BitVec 3) (c : BitVec 5) : Except Nat Instr :=
  match sub.toNat with
  | 0 => guard (d != 0 || c.extractLsb' 0 4 != 0) 3 (.ok (.rmput a b (c.extractLsb' 4 1)))
  | 1 => guard (d != 0 || c.extractLsb' 0 4 != 0) 3 (.ok (.rmget a b (c.extractLsb' 4 1)))
  | 2 => guard (c.extractLsb' 4 1 != 0 && c.extractLsb' 0 3 != 0) 4 (.ok (if c.extractLsb' 4 1 = 0 then .rmatom d a b (c.extractLsb' 3 1) (c.extractLsb' 0 3) else .rmatomCas d a b (c.extractLsb' 3 1)))
  | 3 => guard (d != 0 || b != 0 || c != 0) 3 (.ok (.rmflush a))
  | 4 => guard (c.extractLsb' 3 2 != 0) 3 (.ok (.keyset d a b (c.extractLsb' 0 3)))
  | 5 => guard (d != 0 || b != 0 || c != 0) 3 (.ok (.keyrev a))
  | 6 => guard (d != 0 || b != 0 || c != 0) 3 (.ok (.flushp a))
  | _ => .error 2

/-- The S-E cell 0x26 (Tables 1-9 and 1-10). -/
def rawCell26 (d a b : BitVec 6) (sub : BitVec 3) (c : BitVec 5) : Except Nat Instr :=
  match sub.toNat with
  | 0 => guard (d != 0 || a != 0 || b != 0) 3 (.ok (.fence c))
  | 1 => guard (d != 0 || c != 0) 3 (.ok (.linv a b))
  | 2 => guard (d != 0 || c != 0) 3 (.ok (.lwb a b))
  | _ => .error 2

/-- The S-E cell 0x27 (Tables 1-9 and 1-10). -/
def rawCell27 (d a b : BitVec 6) (sub : BitVec 3) (c : BitVec 5) : Except Nat Instr :=
  match sub.toNat with
  | 0 => guard (b != 0 || c != 0) 3 (.ok (.saper d a))
  | 1 => guard (b != 0 || c.extractLsb' 2 3 != 0) 3 (.ok (.pprobe d a (c.extractLsb' 0 2)))
  | 2 =>
    guard (d != 0 || c.extractLsb' 2 3 != 0) 3 <|
    match (c.extractLsb' 0 2).toNat with
    | 0 => .ok (.tlbiRange a b)
    | 1 => guard (a != 0 || b != 0) 3 (.ok .tlbiCtx)
    | 2 => guard (b != 0) 3 (.ok (.tlbiSset a))
    | _ => .error 4
  | _ => .error 2

/-- The S-E cell 0x28 (Tables 1-9 and 1-10). -/
def rawCell28 (d a b : BitVec 6) (sub : BitVec 3) (c : BitVec 5) : Except Nat Instr :=
  match sub.toNat with
  | 0 => guard (d != 0 || b != 0 || c != 0) 3 (.ok (.sfmt a))
  | 1 => guard (d != 0 || c != 0) 3 (.ok (.trialon a b))
  | 2 => guard (a != 0 || b != 0 || c != 0) 3 (.ok (.trialoff d))
  | 3 => guard (d != 0 || a != 0 || b != 0 || c.extractLsb' 3 2 != 0) 3 (.ok (.prog (c.extractLsb' 0 3)))
  | 4 => guard (d != 0 || a != 0 || b != 0) 3 (.ok (.bkpt c))
  | _ => .error 2

/-- The S-E cell 0x29 (Tables 1-9 and 1-10). -/
def rawCell29 (d a b : BitVec 6) (sub : BitVec 3) (c : BitVec 5) : Except Nat Instr :=
  match sub.toNat with
  | 0 => guard (d != 0 || b != 0) 3 (.ok (.trap a c))
  | 1 => guard (d != 0 || a != 0 || b != 0) 3 (guard (c.extractLsb' 1 4 != 0) 4 (.ok (if c.extractLsb' 0 1 = 0 then .rft else .rftSkip)))
  | 2 => guard (a != 0) 3 (.ok (.sysr d (b ++ c)))
  | 3 => guard (d != 0) 3 (.ok (.sysw a (b ++ c)))
  | 4 => guard (c.extractLsb' 1 4 != 0) 4 (.ok (if c.extractLsb' 0 1 = 0 then .preq d a b else .preqRst d a b))
  | 5 => guard (b != 0 || c != 0) 3 (.ok (.halt d a))
  | _ => .error 2

/-- The S-E cell 0x2A (Tables 1-9 and 1-10). -/
def rawCell2A (d a b : BitVec 6) (sub : BitVec 3) (c : BitVec 5) : Except Nat Instr :=
  match sub.toNat with
  | 0 => guard (d != 0 || a != 0 || b != 0 || c != 0) 3 (.ok .sexit)
  | 1 => guard (d != 0 || b != 0 || c != 0) 3 (.ok (.sret a))
  | 2 => guard (d != 0 || a != 0 || b != 0 || c != 0) 3 (.ok .lsync)
  | 3 => guard (d != 0 || b != 0 || c != 0) 3 (.ok (.spause a))
  | _ => .error 2

/-- The S-X cells (Tables 1-1, 1-2 and 1-9). -/
def rawSX (op : Nat) (d a b c : BitVec 6) (imm : W32) : Except Nat Instr :=
  match op with
  | 0x34 => .ok (.lissue d a b c imm)
  | 0x38 => guard (a != 0 || b != 0 || c != 0) 3 (.ok (.sli d imm))
  | 0x39 => guard (a != 0 || b != 0 || c != 0) 3 (.ok (.slih d imm))
  | 0x3A => .ok (.slea d a b c imm)
  | 0x3B => guard (imm != 0) 3 (.ok (.ssel d a b c))
  | 0x3C => guard (b != 0 || c != 0 || imm.extractLsb' 0 1 != 0) 3 (.ok (.sldX d a (sxMemOf imm)))
  | 0x3D => guard (b != 0 || c != 0 || imm.extractLsb' 0 1 != 0) 3 (.ok (.sstX d a (sxMemOf imm)))
  | 0x3E => guard (imm.extractLsb' 0 1 != 0) 3 (guard (c.extractLsb' 3 3 != 0) 4 (.ok (.satom d a b (c.extractLsb' 0 3) (sxMemOf imm))))
  | 0x3F => guard (imm.extractLsb' 0 1 != 0) 3 (.ok (.scas d a b c (sxMemOf imm)))
  | _ => .error 1

/-- A scalar word split into its instruction, before the checks on field values (Table 1-9). -/
def rawScalar (w imm : W32) : Except Nat Instr :=
  let op := w.extractLsb' 26 6
  let d := w.extractLsb' 20 6
  let a := w.extractLsb' 14 6
  let b := w.extractLsb' 8 6
  let sub := w.extractLsb' 3 5
  let f := w.extractLsb' 0 3
  let i := w.extractLsb' 1 13
  let off := w.extractLsb' 0 20
  let r0 := w.extractLsb' 0 1 != 0
  let cnt := w.extractLsb' 7 7 != 0
  let n := w.extractLsb' 1 6
  let sube := w.extractLsb' 5 3
  let ctl := w.extractLsb' 0 5
  match op.toNat with
  | 0x00 => rawCell00 d a b sub f
  | 0x01 => if sub.toNat > 5 then .error 2 else .ok (.scmp d a b sub f)
  | 0x02 => rawCell02 d a b sub f
  | 0x03 => if sub.toNat > 7 then .error 2 else .ok (.sfcmp d a b sub f)
  | 0x10 => guard r0 3 (.ok (.saddImm d a i))
  | 0x11 => guard r0 3 (.ok (.smulImm d a i))
  | 0x12 => guard r0 3 (.ok (.sandImm d a i))
  | 0x13 => guard r0 3 (.ok (.sorImm d a i))
  | 0x14 => guard r0 3 (.ok (.sxorImm d a i))
  | 0x15 => guard (r0 || cnt) 3 (.ok (.sshlImm d a n))
  | 0x16 => guard (r0 || cnt) 3 (.ok (.sshrImm d a n))
  | 0x17 => guard (r0 || cnt) 3 (.ok (.ssraImm d a n))
  | 0x18 => guard r0 3 (.ok (.sbfe d a (w.extractLsb' 7 7) n))
  | 0x19 => guard r0 3 (.ok (.sbfi d a (w.extractLsb' 7 7) n))
  | 0x1A => guard r0 3 (.ok (.sld d a i))
  | 0x1B => guard r0 3 (.ok (.sst d a i))
  | 0x20 => rawCell20 d a b sube ctl
  | 0x21 => rawCell21 d a b sube ctl
  | 0x22 => rawCell22 d a b sube ctl
  | 0x23 => rawCell23 d a b sube ctl
  | 0x24 => rawCell24 d a b sube ctl
  | 0x25 => rawCell25 d a b sube ctl
  | 0x26 => rawCell26 d a b sube ctl
  | 0x27 => rawCell27 d a b sube ctl
  | 0x28 => rawCell28 d a b sube ctl
  | 0x29 => rawCell29 d a b sube ctl
  | 0x2A => rawCell2A d a b sube ctl
  | 0x30 => .ok (.sbrZ d off)
  | 0x31 => .ok (.sbrNz d off)
  | 0x32 => guard (d != 0) 3 (.ok (.sjmp off))
  | 0x33 => .ok (.scall d off)
  | 0x35 => .ok .shint
  | o => if isSX w then guard (w.extractLsb' 0 2 != 0) 3 (rawSX o d a b (w.extractLsb' 2 6) imm) else .error 1

/-- The checks on field values after a word has been split (R33). -/
def checked (vregs : Nat) (r : Except Nat Instr) : Except Nat Instr :=
  match r with
  | .error e => .error e
  | .ok i =>
    match Encoding.fault vregs i with
    | some e => .error e
    | none => .ok i

/-- The scalar decoder: the word and, for form S-X, its IMM32. -/
def decodeScalar (w imm : W32) : Except Nat Instr := checked 256 (rawScalar w imm)

/-! ## Lane words -/

/-- The head of a lane word, bits 81:35 (Table 1-3). -/
def laneHeadOf (w : W96) : LaneHead :=
  { fmt := w.extractLsb' 78 4, mfmt := w.extractLsb' 74 4, prd := w.extractLsb' 70 4, pdst := w.extractLsb' 67 3,
    dst := w.extractLsb' 59 8, sa := w.extractLsb' 51 8, sb := w.extractLsb' 43 8, nega := w.extractLsb' 42 1,
    negb := w.extractLsb' 41 1, absa := w.extractLsb' 40 1, absb := w.extractLsb' 39 1, fea := w.extractLsb' 38 1,
    feb := w.extractLsb' 37 1, rua := w.extractLsb' 36 1, rub := w.extractLsb' 35 1 }
/-- A word of form L3 (Table 1-3). -/
def l3Of (w : W96) : L3 :=
  { toLaneHead := laneHeadOf w, sc := w.extractLsb' 27 8, negc := w.extractLsb' 26 1, absc := w.extractLsb' 25 1,
    fec := w.extractLsb' 24 1, ruc := w.extractLsb' 23 1, clp := w.extractLsb' 21 2, scl := w.extractLsb' 18 3,
    rm := w.extractLsb' 15 3, obs := w.extractLsb' 10 5, ord := w.extractLsb' 8 2, ch := w.extractLsb' 6 2,
    aux := w.extractLsb' 0 6 }
/-- A word of form LI (Table 1-3). -/
def liOf (w : W96) : LI := { toLaneHead := laneHeadOf w, imm := w.extractLsb' 3 32, rm := w.extractLsb' 0 3 }

/-- A word of cell 0x31 with no operand: PRD must be 0 (check 4), and every other field zero (check 3, Table 15-4). -/
def bareL3 (w : W96) (i : Instr) : Except Nat Instr :=
  guard (w.extractLsb' 0 70 != 0 || w.extractLsb' 74 8 != 0) 3 (guard (w.extractLsb' 70 4 != 0) 4 (.ok i))

/-- The head's 47 bits (Table 1-3). -/
def headBits (h : LaneHead) : BitVec 47 :=
  h.fmt ++ h.mfmt ++ h.prd ++ h.pdst ++ h.dst ++ h.sa ++ h.sb ++ h.nega ++ h.negb ++ h.absa ++ h.absb ++ h.fea ++ h.feb
    ++ h.rua ++ h.rub
/-- The L3 tail's 35 bits (Table 1-3). -/
def tailBits (w : L3) : BitVec 35 :=
  w.sc ++ w.negc ++ w.absc ++ w.fec ++ w.ruc ++ w.clp ++ w.scl ++ w.rm ++ w.obs ++ w.ord ++ w.ch ++ w.aux
/-- A lane word of form L3. -/
def wordL3 (op sub : Nat) (w : L3) : W96 :=
  BitVec.ofNat 7 op ++ BitVec.ofNat 7 sub ++ headBits w.toLaneHead ++ tailBits w
/-- A lane word of form LI. -/
def wordLI (op sub : Nat) (w : LI) : W96 :=
  BitVec.ofNat 7 op ++ BitVec.ofNat 7 sub ++ headBits w.toLaneHead ++ w.imm ++ w.rm

/-- The lane cell 0x00 (Table 1-11). -/
def rawLane00 (sub : Nat) (w : W96) : Except Nat Instr :=
  match sub with
  | 0 => .ok (.fadd (l3Of w))
  | 1 => .ok (.fmul (l3Of w))
  | 2 => .ok (.ffma (l3Of w))
  | 3 => .ok (.fmin (l3Of w))
  | 4 => .ok (.fmax (l3Of w))
  | 5 => .ok (.frnd (l3Of w))
  | 6 => .ok (.fcmp (l3Of w))
  | 7 => .ok (.fdivc (l3Of w))
  | _ => .error 2

/-- The lane cell 0x01 (Table 1-11). -/
def rawLane01 (sub : Nat) (w : W96) : Except Nat Instr :=
  match sub with
  | 0 => .ok (.frcp (l3Of w))
  | 1 => .ok (.frsq (l3Of w))
  | 2 => .ok (.fsqrt (l3Of w))
  | 3 => .ok (.fex2 (l3Of w))
  | 4 => .ok (.flg2 (l3Of w))
  | 5 => .ok (.fsin (l3Of w))
  | 6 => .ok (.fcos (l3Of w))
  | _ => .error 2

/-- The lane cell 0x02 (Table 1-11). -/
def rawLane02 (sub : Nat) (w : W96) : Except Nat Instr :=
  match sub with
  | 0 => .ok (.bfadd2 (l3Of w))
  | 1 => .ok (.bfmul2 (l3Of w))
  | 2 => .ok (.bffma2 (l3Of w))
  | 3 => .ok (.bfmin2 (l3Of w))
  | 4 => .ok (.bfmax2 (l3Of w))
  | _ => .error 2

/-- The lane cell 0x03 (Table 1-11). -/
def rawLane03 (sub : Nat) (w : W96) : Except Nat Instr :=
  match sub with
  | 0 => .ok (.dadd (l3Of w))
  | 1 => .ok (.dmul (l3Of w))
  | 2 => .ok (.dfma (l3Of w))
  | 3 => .ok (.dmin (l3Of w))
  | 4 => .ok (.dmax (l3Of w))
  | 5 => .ok (.dcmp (l3Of w))
  | _ => .error 2

/-- The lane cell 0x04 (Table 1-11). -/
def rawLane04 (sub : Nat) (w : W96) : Except Nat Instr :=
  match sub with
  | 0 => .ok (.drcp (l3Of w))
  | 1 => .ok (.drsq (l3Of w))
  | 2 => .ok (.dsqrt (l3Of w))
  | _ => .error 2

/-- The lane cell 0x05 (Table 1-11). -/
def rawLane05 (sub : Nat) (w : W96) : Except Nat Instr :=
  match sub with
  | 0 => .ok (.iadd (l3Of w))
  | 1 => .ok (.isub (l3Of w))
  | 2 => .ok (.imul (l3Of w))
  | 3 => .ok (.imulh (l3Of w))
  | 4 => .ok (.imad (l3Of w))
  | 5 => .ok (.imin (l3Of w))
  | 6 => .ok (.imax (l3Of w))
  | 7 => .ok (.iabs (l3Of w))
  | 8 => .ok (.ineg (l3Of w))
  | 9 => .ok (.iaddc (l3Of w))
  | 10 => .ok (.icmp (l3Of w))
  | _ => .error 2

/-- The lane cell 0x06 (Table 1-11). -/
def rawLane06 (sub : Nat) (w : W96) : Except Nat Instr :=
  match sub with
  | 0 => .ok (.land (l3Of w))
  | 1 => .ok (.lor (l3Of w))
  | 2 => .ok (.lxor (l3Of w))
  | 3 => .ok (.lnot (l3Of w))
  | 4 => .ok (.shl (l3Of w))
  | 5 => .ok (.shr (l3Of w))
  | 6 => .ok (.sra (l3Of w))
  | 7 => .ok (.bfe (l3Of w))
  | 8 => .ok (.bfi (l3Of w))
  | 9 => .ok (.popc (l3Of w))
  | 10 => .ok (.clz (l3Of w))
  | 11 => .ok (.brev (l3Of w))
  | _ => .error 2

/-- The lane cell 0x07 (Table 1-11). -/
def rawLane07 (sub : Nat) (w : W96) : Except Nat Instr :=
  match sub with
  | 0 => .ok (.cvt (l3Of w))
  | 1 => .ok (.mov (l3Of w))
  | 2 => .ok (.sel (l3Of w))
  | 3 => .ok (.plop (l3Of w))
  | 4 => .ok (.movW (l3Of w))
  | 5 => .ok (.laneid (l3Of w))
  | _ => .error 2

/-- The lane cell 0x08 (Table 1-11). -/
def rawLane08 (sub : Nat) (w : W96) : Except Nat Instr :=
  match sub with
  | 0 => .ok (.faddImm (liOf w))
  | 1 => .ok (.fmulImm (liOf w))
  | 2 => .ok (.ffmaImm (liOf w))
  | 3 => .ok (.fminImm (liOf w))
  | 4 => .ok (.fmaxImm (liOf w))
  | 6 => .ok (.fcmpImm (liOf w))
  | 7 => .ok (.fdivcImm (liOf w))
  | _ => .error 2

/-- The lane cell 0x0A (Table 1-11). -/
def rawLane0A (sub : Nat) (w : W96) : Except Nat Instr :=
  match sub with
  | 0 => .ok (.bfadd2Imm (liOf w))
  | 1 => .ok (.bfmul2Imm (liOf w))
  | 2 => .ok (.bffma2Imm (liOf w))
  | 3 => .ok (.bfmin2Imm (liOf w))
  | 4 => .ok (.bfmax2Imm (liOf w))
  | _ => .error 2

/-- The lane cell 0x0B (Table 1-11). -/
def rawLane0B (sub : Nat) (w : W96) : Except Nat Instr :=
  match sub with
  | 0 => .ok (.daddImm (liOf w))
  | 1 => .ok (.dmulImm (liOf w))
  | 2 => .ok (.dfmaImm (liOf w))
  | 3 => .ok (.dminImm (liOf w))
  | 4 => .ok (.dmaxImm (liOf w))
  | 5 => .ok (.dcmpImm (liOf w))
  | _ => .error 2

/-- The lane cell 0x0D (Table 1-11). -/
def rawLane0D (sub : Nat) (w : W96) : Except Nat Instr :=
  match sub with
  | 0 => .ok (.iaddImm (liOf w))
  | 1 => .ok (.isubImm (liOf w))
  | 2 => .ok (.imulImm (liOf w))
  | 3 => .ok (.imulhImm (liOf w))
  | 4 => .ok (.imadImm (liOf w))
  | 5 => .ok (.iminImm (liOf w))
  | 6 => .ok (.imaxImm (liOf w))
  | 9 => .ok (.iaddcImm (liOf w))
  | 10 => .ok (.icmpImm (liOf w))
  | _ => .error 2

/-- The lane cell 0x0E (Table 1-11). -/
def rawLane0E (sub : Nat) (w : W96) : Except Nat Instr :=
  match sub with
  | 0 => .ok (.landImm (liOf w))
  | 1 => .ok (.lorImm (liOf w))
  | 2 => .ok (.lxorImm (liOf w))
  | 4 => .ok (.shlImm (liOf w))
  | 5 => .ok (.shrImm (liOf w))
  | 6 => .ok (.sraImm (liOf w))
  | 7 => .ok (.bfeImm (liOf w))
  | 8 => .ok (.bfiImm (liOf w))
  | _ => .error 2

/-- The lane cell 0x0F (Table 1-11). -/
def rawLane0F (sub : Nat) (w : W96) : Except Nat Instr :=
  match sub with
  | 0 => .ok (.movi (liOf w))
  | _ => .error 2

/-- The lane cell 0x10 (Table 1-11). -/
def rawLane10 (sub : Nat) (w : W96) : Except Nat Instr :=
  match sub with
  | 0 => .ok (.shfl (l3Of w))
  | 1 => .ok (.vote (l3Of w))
  | 2 => .ok (.gred (l3Of w))
  | 3 => .ok (.gscan (l3Of w))
  | _ => .error 2

/-- The lane cell 0x18 (Table 1-11). -/
def rawLane18 (sub : Nat) (w : W96) : Except Nat Instr :=
  match sub with
  | 0 => .ok (.shflImm (liOf w))
  | _ => .error 2

/-- The lane cell 0x20 (Table 1-11). -/
def rawLane20 (sub : Nat) (w : W96) : Except Nat Instr :=
  match sub with
  | 0 => .ok (.ld (l3Of w))
  | 1 => .ok (.st (l3Of w))
  | 2 => .ok (.atom (l3Of w))
  | 3 => .ok (.cas (l3Of w))
  | 4 => .ok (.pref (l3Of w))
  | _ => .error 2

/-- The lane cell 0x21 (Table 1-11). -/
def rawLane21 (sub : Nat) (w : W96) : Except Nat Instr :=
  match sub with
  | 0 => .ok (.fez (l3Of w))
  | 1 => .ok (.feset (l3Of w))
  | 2 => .ok (.feq (l3Of w))
  | _ => .error 2

/-- The lane cell 0x22 (Table 1-11). -/
def rawLane22 (sub : Nat) (w : W96) : Except Nat Instr :=
  match sub with
  | 0 => .ok (.lcpy (l3Of w))
  | _ => .error 2

/-- The lane cell 0x23 (Table 1-11). -/
def rawLane23 (sub : Nat) (w : W96) : Except Nat Instr :=
  match sub with
  | 0 => .ok (.tdefv (l3Of w))
  | 1 => .ok (.trd (l3Of w))
  | _ => .error 2

/-- The lane cell 0x24 (Table 1-11). -/
def rawLane24 (sub : Nat) (w : W96) : Except Nat Instr :=
  match sub with
  | 0 => .ok (.pushm (l3Of w))
  | 1 => .ok (.popm (l3Of w))
  | 2 => .ok (.lfmt (l3Of w))
  | 3 => .ok (.rdspec (l3Of w))
  | _ => .error 2

/-- The lane cell 0x25 (Table 1-11). -/
def rawLane25 (sub : Nat) (w : W96) : Except Nat Instr :=
  match sub with
  | 0 => .ok (.enq (l3Of w))
  | 1 => .ok (.enqd (l3Of w))
  | _ => .error 2

/-- The lane cell 0x26 (Table 1-11). -/
def rawLane26 (sub : Nat) (w : W96) : Except Nat Instr :=
  match sub with
  | 0 => .ok (.laneFence (l3Of w))
  | _ => .error 2

/-- The lane cell 0x28 (Table 1-11). -/
def rawLane28 (sub : Nat) (w : W96) : Except Nat Instr :=
  match sub with
  | 0 => .ok (.ldImm (liOf w))
  | 1 => .ok (.stImm (liOf w))
  | 4 => .ok (.prefImm (liOf w))
  | _ => .error 2

/-- The lane cell 0x30 (Table 1-11). -/
def rawLane30 (sub : Nat) (w : W96) : Except Nat Instr :=
  match sub with
  | 0 => .ok (.bra (liOf w))
  | 1 => .ok (.lcall (liOf w))
  | _ => .error 2

/-- The lane cell 0x31 (Table 1-11). -/
def rawLane31 (sub : Nat) (w : W96) : Except Nat Instr :=
  match sub with
  | 0 => .ok (.lexit (l3Of w))
  | 1 => bareL3 w .lend
  | 2 => bareL3 w .wide
  | 3 => bareL3 w .endw
  | 4 => bareL3 w .lret
  | _ => .error 2

/-- The lane cell 0x32 (Table 1-11). -/
def rawLane32 (sub : Nat) (w : W96) : Except Nat Instr :=
  match sub with
  | 0 => .ok (.laneBkpt (l3Of w))
  | 1 => .ok (.laneProg (l3Of w))
  | _ => .error 2

/-- The lane cell 0x33 (Table 1-11). -/
def rawLane33 (sub : Nat) (w : W96) : Except Nat Instr :=
  match sub with
  | 0 => .ok (.laneTrap (l3Of w))
  | _ => .error 2

/-- A lane word split into its instruction, before the checks on field values (Table 1-11). -/
def rawLane (w : W96) : Except Nat Instr :=
  let sub := (w.extractLsb' 82 7).toNat
  match (w.extractLsb' 89 7).toNat with
  | 0x00 => rawLane00 sub w
  | 0x01 => rawLane01 sub w
  | 0x02 => rawLane02 sub w
  | 0x03 => rawLane03 sub w
  | 0x04 => rawLane04 sub w
  | 0x05 => rawLane05 sub w
  | 0x06 => rawLane06 sub w
  | 0x07 => rawLane07 sub w
  | 0x08 => rawLane08 sub w
  | 0x0A => rawLane0A sub w
  | 0x0B => rawLane0B sub w
  | 0x0D => rawLane0D sub w
  | 0x0E => rawLane0E sub w
  | 0x0F => rawLane0F sub w
  | 0x10 => rawLane10 sub w
  | 0x18 => rawLane18 sub w
  | 0x20 => rawLane20 sub w
  | 0x21 => rawLane21 sub w
  | 0x22 => rawLane22 sub w
  | 0x23 => rawLane23 sub w
  | 0x24 => rawLane24 sub w
  | 0x25 => rawLane25 sub w
  | 0x26 => rawLane26 sub w
  | 0x28 => rawLane28 sub w
  | 0x30 => rawLane30 sub w
  | 0x31 => rawLane31 sub w
  | 0x32 => rawLane32 sub w
  | 0x33 => rawLane33 sub w
  | 0x7E => .ok .hint
  | o => if 0x40 ≤ o ∧ o ≤ 0x5F then .error 5 else .error 1

/-- The lane decoder of a group with `vregs` lane registers (R33, R212). -/
def decodeLane (vregs : Nat) (w : W96) : Except Nat Instr := checked vregs (rawLane w)

/-! ## Matrix words -/

/-- A word of form M-A (Table 1-4). -/
def maOf (w : W64) : MA :=
  { sub := w.extractLsb' 54 4, acc := w.extractLsb' 48 6, sa := w.extractLsb' 46 2, sb := w.extractLsb' 44 2,
    af := w.extractLsb' 40 4, bf := w.extractLsb' 36 4, rm := w.extractLsb' 33 3, sat := w.extractLsb' 32 1,
    mrp := w.extractLsb' 30 2, mcp := w.extractLsb' 28 2, kc := w.extractLsb' 16 12, qk := w.extractLsb' 12 4,
    acb := w.extractLsb' 6 6, omi := w.extractLsb' 2 4 }
/-- The bits of a word of form M-A (Table 1-4). -/
def wordMA (op : BitVec 6) (w : MA) : W64 :=
  op ++ w.sub ++ w.acc ++ w.sa ++ w.sb ++ w.af ++ w.bf ++ w.rm ++ w.sat ++ w.mrp ++ w.mcp ++ w.kc ++ w.qk ++ w.acb
    ++ w.omi ++ 0#2
/-- A word of form M-P (Table 1-4). -/
def mpOf (w : W64) : MP :=
  { rc := w.extractLsb' 53 1, pi := w.extractLsb' 51 2, cnt := w.extractLsb' 44 7, first := w.extractLsb' 38 6,
    qs := w.extractLsb' 34 4, omi := w.extractLsb' 30 4 }
/-- The bits of a word of form M-P (Table 1-4). -/
def wordMP (op : BitVec 6) (sub : BitVec 4) (w : MP) : W64 :=
  op ++ sub ++ w.rc ++ w.pi ++ w.cnt ++ w.first ++ w.qs ++ w.omi ++ 0#30
/-- The bits of a word of form M-C (Table 1-4). -/
def wordMC (op : BitVec 6) (qd : BitVec 4) (imm : BitVec 48) : W64 := op ++ 0#4 ++ qd ++ 0#2 ++ imm

/-- A control word of the sequencer, form M-C (Tables 1-4 and 1-12). -/
def rawMC (op : Nat) (w : W64) : Except Nat Instr :=
  let q := w.extractLsb' 50 4
  guard (w.extractLsb' 54 4 != 0) 2 <|
  guard (w.extractLsb' 48 2 != 0) 3 <|
  match op with
  | 0x20 => guard (q != 0 || w.extractLsb' 4 44 != 0) 3 (.ok .mnba)
  | 0x21 => guard (q != 0 || w.extractLsb' 5 43 != 0) 3 (.ok .mnbw)
  | 0x22 => guard (q != 0 || w.extractLsb' 8 40 != 0) 3 (.ok .mwaits)
  | 0x23 => guard (w.extractLsb' 20 28 != 0) 3 (guard (w.extractLsb' 0 20 == 0) 4 (.ok .mloop))
  | 0x24 => guard (q != 0 || w.extractLsb' 0 48 != 0) 3 (.ok .mend)
  | 0x25 => guard (q != 0 || w.extractLsb' 20 28 != 0) 3 (.ok .mjmp)
  | 0x26 => guard (q != 0) 3 (.ok .msafe)
  | 0x27 => guard (q != 0 || w.extractLsb' 0 48 != 0) 3 (.ok .mexit)
  | _ => .error 1

/-- A matrix word split into its instruction, before the checks on field values (Table 1-12). -/
def rawMatrix (w : W64) : Except Nat Instr :=
  let sub := (w.extractLsb' 54 4).toNat
  let r0 := w.extractLsb' 0 2 != 0
  match (w.extractLsb' 58 6).toNat with
  | 0x00 => guard (sub != 0) 2 (guard r0 3 (.ok (.mma (maOf w))))
  | 0x01 => guard (sub != 0) 2 (guard r0 3 (.ok (.mmaq (maOf w))))
  | 0x02 => guard (1 < sub) 2 (guard r0 3 (.ok (.mzero (maOf w))))
  | 0x03 => guard (sub != 0) 2 (guard r0 3 (.ok (.mlda (maOf w))))
  | 0x04 => guard (sub != 0) 2 (guard r0 3 (.ok (.msta (maOf w))))
  | 0x05 => guard (sub != 0) 2 (guard r0 3 (.ok (.madda (maOf w))))
  | 0x10 => guard (1 < sub) 2 (guard (w.extractLsb' 0 30 != 0) 3
      (if sub = 0 then .ok (.mprdCnt (mpOf w)) else .ok (.mprdQ (mpOf w))))
  | 0x11 => guard (1 < sub) 2 (guard (w.extractLsb' 0 30 != 0) 3
      (if sub = 0 then .ok (.msclSet (mpOf w)) else .ok (.msclClr (mpOf w))))
  | 0x3F => .ok .mhint
  | o => if 0x20 ≤ o ∧ o ≤ 0x27 then rawMC o w else .error 1

/-- The matrix decoder (R32, R33). -/
def decodeMatrix (w : W64) : Except Nat Instr := checked 256 (rawMatrix w)

/-! ## The encoder -/

/-- The stream whose words encode an instruction; none for an event. -/
inductive WordKind where
  | scalar
  | scalarX
  | lane
  | matrix
  | event
  deriving DecidableEq, Repr

/-- A 64-bit word as 32-bit words, lowest address first (R15). -/
def split64 (w : W64) : List W32 := [w.extractLsb' 0 32, w.extractLsb' 32 32]
/-- A 96-bit word as 32-bit words, lowest address first (R15). -/
def split96 (w : W96) : List W32 := [w.extractLsb' 0 32, w.extractLsb' 32 32, w.extractLsb' 64 32]

/-- OP and SUB of a lane instruction (Table 1-11). -/
def laneCode : Instr → Nat × Nat
  | .fadd _ => (0x00, 0)
  | .fmul _ => (0x00, 1)
  | .ffma _ => (0x00, 2)
  | .fmin _ => (0x00, 3)
  | .fmax _ => (0x00, 4)
  | .frnd _ => (0x00, 5)
  | .fcmp _ => (0x00, 6)
  | .fdivc _ => (0x00, 7)
  | .frcp _ => (0x01, 0)
  | .frsq _ => (0x01, 1)
  | .fsqrt _ => (0x01, 2)
  | .fex2 _ => (0x01, 3)
  | .flg2 _ => (0x01, 4)
  | .fsin _ => (0x01, 5)
  | .fcos _ => (0x01, 6)
  | .bfadd2 _ => (0x02, 0)
  | .bfmul2 _ => (0x02, 1)
  | .bffma2 _ => (0x02, 2)
  | .bfmin2 _ => (0x02, 3)
  | .bfmax2 _ => (0x02, 4)
  | .dadd _ => (0x03, 0)
  | .dmul _ => (0x03, 1)
  | .dfma _ => (0x03, 2)
  | .dmin _ => (0x03, 3)
  | .dmax _ => (0x03, 4)
  | .dcmp _ => (0x03, 5)
  | .drcp _ => (0x04, 0)
  | .drsq _ => (0x04, 1)
  | .dsqrt _ => (0x04, 2)
  | .iadd _ => (0x05, 0)
  | .isub _ => (0x05, 1)
  | .imul _ => (0x05, 2)
  | .imulh _ => (0x05, 3)
  | .imad _ => (0x05, 4)
  | .imin _ => (0x05, 5)
  | .imax _ => (0x05, 6)
  | .iabs _ => (0x05, 7)
  | .ineg _ => (0x05, 8)
  | .iaddc _ => (0x05, 9)
  | .icmp _ => (0x05, 10)
  | .land _ => (0x06, 0)
  | .lor _ => (0x06, 1)
  | .lxor _ => (0x06, 2)
  | .lnot _ => (0x06, 3)
  | .shl _ => (0x06, 4)
  | .shr _ => (0x06, 5)
  | .sra _ => (0x06, 6)
  | .bfe _ => (0x06, 7)
  | .bfi _ => (0x06, 8)
  | .popc _ => (0x06, 9)
  | .clz _ => (0x06, 10)
  | .brev _ => (0x06, 11)
  | .cvt _ => (0x07, 0)
  | .mov _ => (0x07, 1)
  | .sel _ => (0x07, 2)
  | .plop _ => (0x07, 3)
  | .movW _ => (0x07, 4)
  | .laneid _ => (0x07, 5)
  | .faddImm _ => (0x08, 0)
  | .fmulImm _ => (0x08, 1)
  | .ffmaImm _ => (0x08, 2)
  | .fminImm _ => (0x08, 3)
  | .fmaxImm _ => (0x08, 4)
  | .fcmpImm _ => (0x08, 6)
  | .fdivcImm _ => (0x08, 7)
  | .bfadd2Imm _ => (0x0A, 0)
  | .bfmul2Imm _ => (0x0A, 1)
  | .bffma2Imm _ => (0x0A, 2)
  | .bfmin2Imm _ => (0x0A, 3)
  | .bfmax2Imm _ => (0x0A, 4)
  | .daddImm _ => (0x0B, 0)
  | .dmulImm _ => (0x0B, 1)
  | .dfmaImm _ => (0x0B, 2)
  | .dminImm _ => (0x0B, 3)
  | .dmaxImm _ => (0x0B, 4)
  | .dcmpImm _ => (0x0B, 5)
  | .iaddImm _ => (0x0D, 0)
  | .isubImm _ => (0x0D, 1)
  | .imulImm _ => (0x0D, 2)
  | .imulhImm _ => (0x0D, 3)
  | .imadImm _ => (0x0D, 4)
  | .iminImm _ => (0x0D, 5)
  | .imaxImm _ => (0x0D, 6)
  | .iaddcImm _ => (0x0D, 9)
  | .icmpImm _ => (0x0D, 10)
  | .landImm _ => (0x0E, 0)
  | .lorImm _ => (0x0E, 1)
  | .lxorImm _ => (0x0E, 2)
  | .shlImm _ => (0x0E, 4)
  | .shrImm _ => (0x0E, 5)
  | .sraImm _ => (0x0E, 6)
  | .bfeImm _ => (0x0E, 7)
  | .bfiImm _ => (0x0E, 8)
  | .movi _ => (0x0F, 0)
  | .shfl _ => (0x10, 0)
  | .vote _ => (0x10, 1)
  | .gred _ => (0x10, 2)
  | .gscan _ => (0x10, 3)
  | .shflImm _ => (0x18, 0)
  | .ld _ => (0x20, 0)
  | .st _ => (0x20, 1)
  | .atom _ => (0x20, 2)
  | .cas _ => (0x20, 3)
  | .pref _ => (0x20, 4)
  | .fez _ => (0x21, 0)
  | .feset _ => (0x21, 1)
  | .feq _ => (0x21, 2)
  | .lcpy _ => (0x22, 0)
  | .tdefv _ => (0x23, 0)
  | .trd _ => (0x23, 1)
  | .pushm _ => (0x24, 0)
  | .popm _ => (0x24, 1)
  | .lfmt _ => (0x24, 2)
  | .rdspec _ => (0x24, 3)
  | .enq _ => (0x25, 0)
  | .enqd _ => (0x25, 1)
  | .laneFence _ => (0x26, 0)
  | .ldImm _ => (0x28, 0)
  | .stImm _ => (0x28, 1)
  | .prefImm _ => (0x28, 4)
  | .bra _ => (0x30, 0)
  | .lcall _ => (0x30, 1)
  | .lexit _ => (0x31, 0)
  | .lend => (0x31, 1)
  | .wide => (0x31, 2)
  | .endw => (0x31, 3)
  | .lret => (0x31, 4)
  | .laneBkpt _ => (0x32, 0)
  | .laneProg _ => (0x32, 1)
  | .laneTrap _ => (0x33, 0)
  | _ => (0x7E, 0)

/-- The bits of a lane instruction (R20). -/
def encodeLane (i : Instr) : Option W96 :=
  match i with
  | .fadd w | .fmul w | .ffma w | .fmin w | .fmax w | .frnd w | .fcmp w | .fdivc w | .frcp w | .frsq w
  | .fsqrt w | .fex2 w | .flg2 w | .fsin w | .fcos w | .bfadd2 w | .bfmul2 w | .bffma2 w | .bfmin2 w
  | .bfmax2 w | .dadd w | .dmul w | .dfma w | .dmin w | .dmax w | .dcmp w | .drcp w | .drsq w | .dsqrt w
  | .iadd w | .isub w | .imul w | .imulh w | .imad w | .imin w | .imax w | .iabs w | .ineg w | .iaddc w
  | .icmp w | .land w | .lor w | .lxor w | .lnot w | .shl w | .shr w | .sra w | .bfe w | .bfi w | .popc w
  | .clz w | .brev w | .cvt w | .mov w | .sel w | .plop w | .movW w | .laneid w | .shfl w | .vote w | .gred w
  | .gscan w | .ld w | .st w | .atom w | .cas w | .pref w | .fez w | .feset w | .feq w | .lcpy w | .tdefv w
  | .trd w | .pushm w | .popm w | .lfmt w | .rdspec w | .enq w | .enqd w | .laneFence w | .lexit w
  | .laneBkpt w | .laneProg w | .laneTrap w => some (wordL3 (laneCode i).1 (laneCode i).2 w)
  | .faddImm w | .fmulImm w | .ffmaImm w | .fminImm w | .fmaxImm w | .fcmpImm w | .fdivcImm w | .bfadd2Imm w
  | .bfmul2Imm w | .bffma2Imm w | .bfmin2Imm w | .bfmax2Imm w | .daddImm w | .dmulImm w | .dfmaImm w
  | .dminImm w | .dmaxImm w | .dcmpImm w | .iaddImm w | .isubImm w | .imulImm w | .imulhImm w | .imadImm w
  | .iminImm w | .imaxImm w | .iaddcImm w | .icmpImm w | .landImm w | .lorImm w | .lxorImm w | .shlImm w
  | .shrImm w | .sraImm w | .bfeImm w | .bfiImm w | .movi w | .shflImm w | .ldImm w | .stImm w | .prefImm w
  | .bra w | .lcall w => some (wordLI (laneCode i).1 (laneCode i).2 w)
  | .lend | .wide | .endw | .lret => some (BitVec.ofNat 7 (laneCode i).1 ++ BitVec.ofNat 7 (laneCode i).2 ++ 0#82)
  | .hint => some (0x7E#7 ++ 0#89)
  | _ => none

/-- The bits of a matrix instruction (R23); a word of form M-C has QD 0 and the least IMM48 that decodes, since its
operands stand in the word register. -/
def encodeMatrix : Instr → Option W64
  | .mma w => some (wordMA 0x00 w)
  | .mmaq w => some (wordMA 0x01 w)
  | .mzero w => some (wordMA 0x02 w)
  | .mlda w => some (wordMA 0x03 w)
  | .msta w => some (wordMA 0x04 w)
  | .madda w => some (wordMA 0x05 w)
  | .mprdCnt w => some (wordMP 0x10 0 w)
  | .mprdQ w => some (wordMP 0x10 1 w)
  | .msclSet w => some (wordMP 0x11 0 w)
  | .msclClr w => some (wordMP 0x11 1 w)
  | .mnba => some (wordMC 0x20 0 0)
  | .mnbw => some (wordMC 0x21 0 0)
  | .mwaits => some (wordMC 0x22 0 0)
  | .mloop => some (wordMC 0x23 0 1)
  | .mend => some (wordMC 0x24 0 0)
  | .mjmp => some (wordMC 0x25 0 0)
  | .msafe => some (wordMC 0x26 0 0)
  | .mexit => some (wordMC 0x27 0 0)
  | .mhint => some (0x3F#6 ++ 0#58)
  | _ => none

/-- The first word and IMM32 of an instruction of form S-X (R18, R19). -/
def encodeSX : Instr → Option (W32 × W32)
  | .lissue d a b c t => some (wordSX 0x34 d a b c, t)
  | .sli d i => some (wordSX 0x38 d 0 0 0, i)
  | .slih d i => some (wordSX 0x39 d 0 0 0, i)
  | .slea d a b n i => some (wordSX 0x3A d a b n, i)
  | .ssel d a b c => some (wordSX 0x3B d a b c, 0)
  | .sldX d a x => some (wordSX 0x3C d a 0 0, wordSXMem x)
  | .sstX d a x => some (wordSX 0x3D d a 0 0, wordSXMem x)
  | .satom d a b op x => some (wordSX 0x3E d a b (0#3 ++ op), wordSXMem x)
  | .scas d a b c x => some (wordSX 0x3F d a b c, wordSXMem x)
  | _ => none

/-- The word of a 32-bit scalar instruction (R18). -/
def encodeScalar : Instr → Option W32
  | .sadd d a b f => some (wordSR 0x00 d a b 0 f)
  | .ssub d a b f => some (wordSR 0x00 d a b 1 f)
  | .smul d a b f => some (wordSR 0x00 d a b 2 f)
  | .smulh d a b f => some (wordSR 0x00 d a b 3 f)
  | .smin d a b f => some (wordSR 0x00 d a b 4 f)
  | .smax d a b f => some (wordSR 0x00 d a b 5 f)
  | .sabs d a f => some (wordSR 0x00 d a 0 6 f)
  | .sneg d a f => some (wordSR 0x00 d a 0 7 f)
  | .saddc d a b f => some (wordSR 0x00 d a b 8 f)
  | .sand d a b f => some (wordSR 0x00 d a b 9 f)
  | .sor d a b f => some (wordSR 0x00 d a b 10 f)
  | .sxor d a b f => some (wordSR 0x00 d a b 11 f)
  | .snot d a f => some (wordSR 0x00 d a 0 12 f)
  | .sshl d a b f => some (wordSR 0x00 d a b 13 f)
  | .sshr d a b f => some (wordSR 0x00 d a b 14 f)
  | .ssra d a b f => some (wordSR 0x00 d a b 15 f)
  | .spopc d a f => some (wordSR 0x00 d a 0 16 f)
  | .sclz d a f => some (wordSR 0x00 d a 0 17 f)
  | .sbrev d a f => some (wordSR 0x00 d a 0 18 f)
  | .smov d a f => some (wordSR 0x00 d a 0 19 f)
  | .scmp d a b c f => some (wordSR 0x01 d a b c f)
  | .sfadd d a b f => some (wordSR 0x02 d a b 0 f)
  | .sfmul d a b f => some (wordSR 0x02 d a b 1 f)
  | .sfmin d a b f => some (wordSR 0x02 d a b 2 f)
  | .sfmax d a b f => some (wordSR 0x02 d a b 3 f)
  | .scvt d a t f => some (wordSR 0x02 d a (0#3 ++ t) 4 f)
  | .sfcmp d a b c f => some (wordSR 0x03 d a b c f)
  | .saddImm d a i => some (wordSI 0x10 d a i)
  | .smulImm d a i => some (wordSI 0x11 d a i)
  | .sandImm d a i => some (wordSI 0x12 d a i)
  | .sorImm d a i => some (wordSI 0x13 d a i)
  | .sxorImm d a i => some (wordSI 0x14 d a i)
  | .sshlImm d a n => some (wordSI 0x15 d a (0#7 ++ n))
  | .sshrImm d a n => some (wordSI 0x16 d a (0#7 ++ n))
  | .ssraImm d a n => some (wordSI 0x17 d a (0#7 ++ n))
  | .sbfe d a l p => some (wordSI 0x18 d a (l ++ p))
  | .sbfi d a l p => some (wordSI 0x19 d a (l ++ p))
  | .sld d a i => some (wordSI 0x1A d a i)
  | .sst d a i => some (wordSI 0x1B d a i)
  | .cpy a b e m => some (wordSE 0x20 0 a b 0 (e ++ 0#2 ++ m))
  | .cpyg a b e x => some (wordSE 0x20 0 a b 1 (e ++ 0#3 ++ x))
  | .cseal d => some (wordSE 0x20 d 0 0 2 0)
  | .cwait a => some (wordSE 0x20 0 a 0 3 0)
  | .cpoll d a => some (wordSE 0x20 d a 0 4 0)
  | .omap a n => some (wordSE 0x20 0 a 0 5 (0#1 ++ n))
  | .ostat d n => some (wordSE 0x20 d 0 0 6 (0#2 ++ n))
  | .tdef a b => some (wordSE 0x21 0 a b 0 0)
  | .trds a b => some (wordSE 0x21 0 a b 1 0)
  | .tkill a => some (wordSE 0x21 0 a 0 2 0)
  | .tqry d a => some (wordSE 0x21 d a 0 3 0)
  | .snapdef a b => some (wordSE 0x22 0 a b 0 0)
  | .snap a => some (wordSE 0x22 0 a 0 1 0)
  | .sacc a => some (wordSE 0x22 0 a 0 2 0)
  | .srej a o => some (wordSE 0x22 0 a 0 3 o)
  | .sqry d a => some (wordSE 0x22 d a 0 4 0)
  | .ssweep a => some (wordSE 0x22 0 a 0 5 0)
  | .bar d s => some (wordSE 0x23 d 0 0 0 (0#2 ++ s))
  | .nbinit n a => some (wordSE 0x23 (0#2 ++ n) a 0 1 0)
  | .nbarr n => some (wordSE 0x23 (0#2 ++ n) 0 0 2 0)
  | .nbwait n a => some (wordSE 0x23 (0#2 ++ n) a 0 3 0)
  | .ctradd a b o => some (wordSE 0x24 0 a b 0 o)
  | .ctrwait a b o => some (wordSE 0x24 0 a b 1 o)
  | .ticket d a b => some (wordSE 0x24 d a b 2 0)
  | .diffmax d a b => some (wordSE 0x24 d a b 3 0)
  | .launch d a b => some (wordSE 0x24 d a b 4 0)
  | .launchDirect d a b => some (wordSE 0x24 d a b 4 1)
  | .rmput a b e => some (wordSE 0x25 0 a b 0 (e ++ 0#4))
  | .rmget a b e => some (wordSE 0x25 0 a b 1 (e ++ 0#4))
  | .rmatom d a b w op => some (wordSE 0x25 d a b 2 (0#1 ++ w ++ op))
  | .rmatomCas d a b w => some (wordSE 0x25 d a b 2 (1#1 ++ w ++ 0#3))
  | .rmflush a => some (wordSE 0x25 0 a 0 3 0)
  | .keyset d a b r => some (wordSE 0x25 d a b 4 (0#2 ++ r))
  | .keyrev a => some (wordSE 0x25 0 a 0 5 0)
  | .flushp a => some (wordSE 0x25 0 a 0 6 0)
  | .fence o => some (wordSE 0x26 0 0 0 0 o)
  | .linv a b => some (wordSE 0x26 0 a b 1 0)
  | .lwb a b => some (wordSE 0x26 0 a b 2 0)
  | .saper d a => some (wordSE 0x27 d a 0 0 0)
  | .pprobe d a n => some (wordSE 0x27 d a 0 1 (0#3 ++ n))
  | .tlbiRange a b => some (wordSE 0x27 0 a b 2 0)
  | .tlbiCtx => some (wordSE 0x27 0 0 0 2 1)
  | .tlbiSset a => some (wordSE 0x27 0 a 0 2 2)
  | .sfmt a => some (wordSE 0x28 0 a 0 0 0)
  | .trialon a b => some (wordSE 0x28 0 a b 1 0)
  | .trialoff d => some (wordSE 0x28 d 0 0 2 0)
  | .prog n => some (wordSE 0x28 0 0 0 3 (0#2 ++ n))
  | .bkpt c => some (wordSE 0x28 0 0 0 4 c)
  | .trap a c => some (wordSE 0x29 0 a 0 0 c)
  | .rft => some (wordSE 0x29 0 0 0 1 0)
  | .rftSkip => some (wordSE 0x29 0 0 0 1 1)
  | .sysr d n => some (wordSE 0x29 d 0 (n.extractLsb' 5 6) 2 (n.extractLsb' 0 5))
  | .sysw a n => some (wordSE 0x29 0 a (n.extractLsb' 5 6) 3 (n.extractLsb' 0 5))
  | .preq d a b => some (wordSE 0x29 d a b 4 0)
  | .preqRst d a b => some (wordSE 0x29 d a b 4 1)
  | .halt d a => some (wordSE 0x29 d a 0 5 0)
  | .sexit => some (wordSE 0x2A 0 0 0 0 0)
  | .sret a => some (wordSE 0x2A 0 a 0 1 0)
  | .lsync => some (wordSE 0x2A 0 0 0 2 0)
  | .spause a => some (wordSE 0x2A 0 a 0 3 0)
  | .sbrZ a o => some (wordSB 0x30 a o)
  | .sbrNz a o => some (wordSB 0x31 a o)
  | .sjmp o => some (wordSB 0x32 0 o)
  | .scall a o => some (wordSB 0x33 a o)
  | .shint => some (0x35#6 ++ 0#26)
  | _ => none

/-- The 32-bit words of an instruction, lowest address first; none for an event, which has no encoding. -/
def encode (i : Instr) : Option (List W32) :=
  match encodeScalar i, encodeSX i, encodeLane i, encodeMatrix i with
  | some w, _, _, _ => some [w]
  | _, some (w, x), _, _ => some [w, x]
  | _, _, some w, _ => some (split96 w)
  | _, _, _, some w => some (split64 w)
  | none, none, none, none => none

/-- The stream that fetches an instruction's words. -/
def wordKind (i : Instr) : WordKind :=
  match encodeScalar i, encodeSX i, encodeLane i, encodeMatrix i with
  | some _, _, _, _ => .scalar
  | _, some _, _, _ => .scalarX
  | _, _, some _, _ => .lane
  | _, _, _, some _ => .matrix
  | none, none, none, none => .event

/-- The instruction read from a word of the opcode table's numbering: up to 32 bits and 33 to 63 bits a scalar word
with the higher bits zero, 64 bits a matrix word, 96 bits a lane word. -/
def decodeTableWord (nbits w : Nat) : Option Instr :=
  let r :=
    if nbits = 96 then decodeLane 256 (BitVec.ofNat 96 w)
    else if nbits = 64 then decodeMatrix (BitVec.ofNat 64 w)
    else decodeScalar (BitVec.ofNat 32 w) (BitVec.ofNat 32 (w >>> 32))
  match r with
  | .ok i => some i
  | .error _ => none

end Sys2Proof
end

