-- ==== Sys2Proof/Machine/Fetch.lean ====
section
/-! DEFINITION. Fetching the word of a stream (R15 to R17, R33, R83, R85): where its bytes live, the wait for bytes of a peer, and
the decoder of each stream. -/

namespace Sys2Proof.Machine
open Bits

/-! ## Code bytes -/

/-- The stream that fetches: its party, its name, and the marks of its remote reads. -/
structure Fetcher where
  c : Nat
  sl : Nat
  mark : Nat
  p : Party
  strm : StreamId
  /-- The lanes that a fault of the fetch leaves unfinished (R87). -/
  mask : W32 := 0
  deriving DecidableEq, Repr, Inhabited
/-- The fetch as an issuer of remote reads, which are told from those of accesses by the mark. -/
def Fetcher.issuer (f : Fetcher) : Issuer := { c := f.c, sl := f.sl, k := f.mark, scalar := false, pc := 0, p := f.p }
/-- A code byte, as its home holds it, or from the answer for its peer line. -/
def codeByte (s : State) (i : Issuer) (parts : List (Acc × List Hop)) (h : Hop) : Byte :=
  match h.spot with
  | .line pa => Memory.get s.mem pa
  | _ => recordByte s i parts h
/-- n bytes of code from an address (R83, R85), under the check of their memory (R111). Code lies in the global window. -/
def fetchCode (f : Fetcher) (va n : Nat) (s : State) : Rec :=
  let i := f.issuer
  match f.p.outside 0b100000 va n with
  | some a => .stop (.trap s (apertureTrap a))
  | none =>
    match route s f.p .exec va n with
    | .error (x, a) => let t := offer s f.strm .exec x a f.mask; .stop (.park t.2 8 (.fault t.1))
    | .ok hops =>
      let s := keepLeaves s f.p hops
      let parts := peerParts hops
      let asked := parts.foldl (stepLane (askLane i true none)) { s }
      let s := asked.s
      let used (r : Request) : Bool := parts.any (fun p => (strongOf s i p.1).any (fun y => y.id == r.id))
      let held := hops.findSome? (fun h => match h.spot with
        | .line pa => homeWaits i.me s pa false
        | _ => none)
      match asked.wait, strongFails s i (parts.map (·.1)), held with
      | some w, _, _ => .stop (.park s w.1 w.2)
      | none, (_, q) :: _, _ => .stop (.trap { s with requests := s.requests.filter (fun r => !used r) } q.fail)
      | none, [], some k => .stop (.park s 11 (.region k))
      | none, [], none =>
        let t := { s with requests := s.requests.filter (fun r => !used r) }
        match readErr s hops with
        | some bad => .stop (.trap t bad)
        | none => .ok (countErrs t (unitsRead hops)) (hops.map (codeByte s i parts))

/-! ## The word of each stream -/

/-- A fetched and decoded word: with its bits, the word's length in bytes, and the instruction or the subcode of its first failed
check (R33). -/
inductive Got where
  | word (s : State) (bits : W96) (len : Nat) (i : Except Nat Instr)
  | stop (r : Res)
  deriving Inhabited
/-- The fetcher of a scalar stream. -/
def scalarFetcher (s : State) (c sl : Nat) (g : Group) : Fetcher :=
  { c, sl, mark := if g.trapMode then 40 else 32, p := partyOf s c sl g, strm := .scalar c sl }
/-- The word at a scalar PC (R15, R16): 32 bits, or 64 for form S-X. -/
def fetchScalar (f : Fetcher) (pc : W64) (s : State) : Got :=
  if pc.toNat % 4 ≠ 0 then .stop (.trap s { cause := 5, addr := pc })
  else match fetchCode f pc.toNat 4 s with
  | .stop r => .stop r
  | .ok s bs =>
    let w : W32 := pack 32 bs
    if isSX w then
      match fetchCode f (pc.toNat + 4) 4 s with
      | .stop r => .stop r
      | .ok s bs2 => .word s (pack 96 (bs ++ bs2)) 8 (decodeScalar w (pack 32 bs2))
    else .word s (w.setWidth 96) 4 (decodeScalar w 0)
/-- The fetcher of a split. -/
def laneFetcher (s : State) (c sl k : Nat) (g : Group) : Fetcher :=
  let sp := ((g.lanes.map (fun b => b.at k))).getD {}
  { c, sl, mark := (if g.trapMode then 56 else 48) + k, p := partyOf s c sl g, strm := .split c sl (k + (if g.trapMode then 8 else 0))
    mask := sp.unfinished.getD sp.mask }
/-- The word at a lane PC, counted in lane words from LBASE (R16). -/
def fetchLane (f : Fetcher) (vregs : Nat) (pc : W32) (s : State) : Got :=
  match fetchCode f ((f.p.nb.stage.lbase.toNat + 12 * pc.toNat) % 2 ^ 64) 12 s with
  | .stop r => .stop r
  | .ok s bs => .word s (pack 96 bs) 12 (decodeLane vregs (pack 96 bs))
/-- The word at a matrix PC, counted in matrix words from MBASE (R16). -/
def fetchMatrix (bkey pc : Nat) (s : State) : Got :=
  let f : Fetcher := { c := bkey / 8, sl := 52 + bkey % 8, mark := 0, p := partyOfBlock s bkey, strm := .seq (bkey / 8) (bkey % 8) }
  match fetchCode f ((f.p.nb.stage.mbase.toNat + 8 * pc) % 2 ^ 64) 8 s with
  | .stop r => .stop r
  | .ok s bs => .word s ((pack 64 bs).setWidth 96) 8 (decodeMatrix (pack 64 bs))
/-- The length of the scalar word at an address (R371): open where the word cannot be read at once. -/
def scalarLength (s : State) (c sl : Nat) (g : Group) (pc : W64) : Nat :=
  match fetchScalar (scalarFetcher s c sl g) pc s with
  | .word _ _ len _ => len
  | .stop _ => if Config.choice (s.tick * 8 + 1) then 8 else 4
/-- The scalar instruction that a group stands at. -/
def standing (s : State) (c sl : Nat) : Option Instr :=
  (s.group? c sl).bind (fun g => match fetchScalar (scalarFetcher s c sl g) g.spc s with
    | .word _ _ _ (.ok i) => some i
    | _ => none)

end Sys2Proof.Machine
end

