-- ==== Sys2Proof/Machine/Save.lean ====
section
/-! DEFINITION. The context save area as bytes (R374, Tables 17-4 to 17-6), and the save and restore of a neighbourhood (R203, R372,
R373). -/

namespace Sys2Proof.Machine
open Bits

/-! ## The bytes of a save area -/

/-- Bytes followed by zeros up to a length. -/
def padTo (n : Nat) (l : List Byte) : List Byte := l ++ List.replicate (n - l.length) 0
def zeros (n : Nat) : List Byte := List.replicate n 0
def word4 (x : W32) : List Byte := bytesOf 4 x.toNat
/-- A split entry (Table 17-6). -/
def splitBytes (x : Split) : List Byte :=
  word4 x.pc ++ word4 x.mask ++ word4 x.fmtr ++ word4 (x.unfinished.getD 0) ++ bytesOf 2 x.ssp ++ bytesOf 1 (x.jid.getD 255) ++ bytesOf 1 x.stack.length ++
  bytesOf 1 ((if x.valid then 1 else 0) + (if x.own then 2 else 0) + (if x.park.isSome then 4 else 0)) ++ bytesOf 1 ((x.park.map (·.reason)).getD 0) ++ zeros 10
/-- A stack entry, and the sixteen entries of a split, the bottom first. -/
def entryBytes (x : StackEntry) : List Byte :=
  bytesOf 1 (if x.call then 1 else 0) ++ bytesOf 1 (x.jid.getD 255) ++ bytesOf 2 x.ssp ++ word4 x.pc ++ word4 x.mask ++ word4 x.fmtr ++ word4 x.rpc ++ zeros 4
def stackBytes (x : Split) : List Byte := padTo 384 (x.stack.reverse.flatMap entryBytes)
def fourSplits (l : List Split) : List Byte := (List.range 4).flatMap (fun k => splitBytes (l.getD k {})) ++ (List.range 4).flatMap (fun k => stackBytes (l.getD k {}))
def joinBytes (b : LaneBlock) (j : Nat) : List Byte :=
  match b.joins.get? j with
  | none => zeros 32
  | some r => bytesOf 1 1 ++ bytesOf 1 (r.parent.getD 255) ++ bytesOf 1 r.owner ++ zeros 1 ++ word4 r.rpc ++ word4 r.mask ++ word4 r.arr ++ word4 r.fmtr ++ bytesOf 2 r.ssp ++ zeros 10
def wideBytes (b : LaneBlock) : List Byte :=
  match b.wide with
  | none => zeros (16 + 128 + 1536)
  | some w => bytesOf 4 1 ++ bytesOf 4 (maskOf w.openJoins) ++ zeros 8 ++ fourSplits w.saved
def laneBytes (b : LaneBlock) : List Byte := fourSplits b.splits ++ (List.range 16).flatMap (joinBytes b) ++ wideBytes b
/-- A decision-queue entry. -/
def queueBytes (x : QueueEntry) : List Byte := word4 x.target ++ word4 x.fmtr ++ (List.range 4).flatMap (fun k => bytesOf 8 (x.ws.getD k 0).toNat) ++ zeros 8
/-- The batches of a group. -/
def batchBytes (g : Group) : List Byte :=
  let oldest := (g.batches.head?.map (·.num)).getD g.bn
  let failed := g.batches.filter (fun b => b.fail.isSome)
  let first := (failed.head?.bind (·.fail)).getD ⟨0, 0, 0, 0⟩
  bytesOf 4 g.bn ++ bytesOf 4 oldest ++ bytesOf 8 (maskOf (failed.map (fun b => b.num - oldest))) ++ bytesOf 8 first.addr.toNat ++ bytesOf 4 first.cause ++ zeros 4
/-- GSTAT. -/
def gstat (s : State) (key : Nat) (g : Group) : Nat :=
  (if g.trapMode then 1 else 0) + (if g.park.isSome then 2 else 0) + (if g.lb.isSome then 4 else 0) + 8 * g.dq.length +
  (if s.regions.any (fun r => (r.2.issuer.map (·.1)) == some key) then 256 else 0) + (if g.tlb.isSome then 512 else 0)
/-- The size of a group record. -/
def groupSize (vregs : Nat) : Nat := roundUp (0x1600 + 132 * vregs) 256
/-- A group record (Table 17-6). -/
def groupBytes (s : State) (key vregs : Nat) (g : Group) : List Byte :=
  padTo (groupSize vregs) (
    bytesOf 8 g.spc.toNat ++ bytesOf 8 (gstat s key g) ++ (List.range 64).flatMap (fun r => bytesOf 8 (g.sregs.getD r 0).toNat) ++
    (List.range 8).flatMap (fun r => bytesOf 8 (g.ts.getD r 0).toNat) ++
    [g.tpc, g.tcause, g.tinfo, g.taddr, g.tmask].flatMap (fun x => bytesOf 8 x.toNat) ++ bytesOf 8 (g.tstat.toNat % 65536 + 65536 * g.tssp) ++ batchBytes g ++
    word4 g.sfmt ++ word4 g.live ++ (List.range 7).flatMap (fun p => word4 (g.preds.getD (p + 1) 0)) ++ zeros 60 ++
    padTo 768 (g.dq.flatMap queueBytes) ++ padTo 3856 ((g.lb.map laneBytes).getD []) ++ (List.range 32).flatMap (fun i => word4 (g.rng.getD i 1)) ++ zeros 112 ++
    (List.range vregs).flatMap (fun r => (List.range 32).flatMap (fun i => word4 (g.v r i))) ++ (List.range vregs).flatMap (fun r => word4 (~~~(g.emptyMask r))))
/-- An in-flight record (Table 17-5). -/
def flightBytes (x : Flight) : List Byte :=
  bytesOf 4 x.pc ++ bytesOf 4 x.k ++ bytesOf 8 (((encodeMatrix (if x.quant then .mmaq x.word else .mma x.word)).map BitVec.toNat).getD 0) ++
  bytesOf 4 (x.apos + x.done * x.k) ++ bytesOf 4 x.bpos ++ bytesOf 8 x.rows.toNat ++ bytesOf 8 x.cols.toNat ++ zeros 8
/-- Whether a word that is dispatched and parked stands at a sequencer's PC (R258, R372). -/
def Seq.parkedWord (q : Seq) : Bool := q.park.isSome && q.disp.isSome
/-- The in-flight record of such a word: it reads no stream, and PROG counts what it has done (DESIGN CHOICE, log 54). -/
def parkedBytes (q : Seq) : List Byte :=
  bytesOf 4 q.pc ++ zeros 4 ++ bytesOf 8 (q.disp.getD 0) ++ bytesOf 4 q.prog ++ zeros 28
/-- Saved accumulators: all of a full save, else those of the safe point, a pair where either bit is set (R282). -/
def liveAcs (q : Seq) (full : Bool) : List Nat :=
  if q.exited then []
  else if full then List.range 48
  else match q.safe with
    | none => List.range 48
    | some m => (List.range 48).filter (fun i => m.getLsbD (i / 2 * 2) || m.getLsbD (i / 2 * 2 + 1))
/-- A sequencer record (Table 17-5). -/
def seqBytes (q : Seq) (full : Bool) : List Byte :=
  let vec (m : NMap W32) : List Byte := (List.range 64).flatMap (fun i => word4 (m.getD i 0))
  let recs := q.flights.map flightBytes ++ (if q.parkedWord then [parkedBytes q] else [])
  bytesOf 4 (if q.parkedWord then q.pc + 1 else q.pc) ++ word4 q.rng ++ (List.range 16).flatMap (fun i => word4 (q.qs.getD i 0)) ++
  (List.range 4).flatMap (fun i => bytesOf 8 (q.mrp.getD i 0).toNat) ++ (List.range 4).flatMap (fun i => bytesOf 8 (q.mcp.getD i 0).toNat) ++
  vec q.rscale ++ vec q.cscale ++ bytesOf 4 ((if q.rscaleOn then 1 else 0) + (if q.cscaleOn then 2 else 0)) ++ bytesOf 4 q.loops.length ++
  padTo 32 (q.loops.flatMap (fun l => bytesOf 1 l.1 ++ zeros 3 ++ bytesOf 4 l.2)) ++ padTo 192 recs.flatten ++
  bytesOf 1 recs.length ++ zeros 3 ++ bytesOf 4 ((q.pend.map (fun t => t.cause + 256)).getD 0) ++ bytesOf 8 ((q.pend.map (fun t => t.info.toNat)).getD 0) ++
  (liveAcs q full).flatMap (fun i => (List.range 4096).flatMap (fun k => word4 (q.acs.getD (4096 * i + k) 0)))
/-- The positions that the words in flight read a stream from: A streams 0 to 3, B streams 4 to 7. -/
def flightPos (q : Seq) (k : Nat) : List Nat :=
  q.flights.flatMap (fun x => (if x.word.sa.toNat = k then [x.apos + x.done * x.k] else []) ++ (if x.word.sb.toNat + 4 = k then [x.bpos] else []))
/-- The first position of a stream to be fetched again. -/
def resumeAt (b : Block) (k : Nat) : Nat := ((b.seq.map (fun q => flightPos q k)).getD []).foldl min (b.streams.getD k {}).pos
/-- A stream of a block header (Table 17-4). -/
def streamBytes (b : Block) (k : Nat) : List Byte :=
  let x := b.streams.getD k {}
  let maps := x.past ++ x.feed
  bytesOf 4 x.pos ++ bytesOf 4 (resumeAt b k) ++ bytesOf 4 x.start ++ bytesOf 1 maps.length ++ zeros 3 ++ padTo 16 (maps.flatMap (fun f => bytesOf 1 f.1))
def nbBytes (x : Barrier) : List Byte :=
  bytesOf 2 x.expect ++ bytesOf 2 x.count ++ bytesOf 1 x.phase ++ bytesOf 1 ((if x.sqa then 1 else 0) + (if x.sql then 2 else 0)) ++ zeros 2
/-- ARGS of a copy record: its descriptor, or tile word, pitch and address; of a gather, the address of its index after the descriptor. -/
def copyArgs (x : Copy) : List Byte :=
  padTo 48 (match x.kind with
    | 2 => bytesOf 8 x.src.toNat ++ bytesOf 8 x.dst.toNat ++ bytesOf 4 x.rowb ++ bytesOf 4 x.n1 ++ bytesOf 4 x.iscale ++ zeros 4 ++ bytesOf 8 x.index.toNat
    | 3 => bytesOf 4 x.tile ++ bytesOf 4 x.sst1.toNat ++ bytesOf 8 x.src.toNat
    | 4 => bytesOf 4 x.tile ++ bytesOf 4 x.dst1.toNat ++ bytesOf 8 x.dst.toNat
    | 6 => bytesOf 8 x.src.toNat ++ bytesOf 8 x.dst.toNat ++ bytesOf 4 x.key ++ bytesOf 2 x.dev
    | 7 => bytesOf 8 x.dst.toNat ++ bytesOf 8 x.src.toNat ++ bytesOf 4 x.key ++ bytesOf 2 x.dev
    | _ => [x.src, x.dst, x.sst1, x.dst1, x.sst2, x.dst2].flatMap (fun w => bytesOf 8 w.toNat))
/-- A copy record; REASON 0 tile, 1 pool, 2 fault. -/
def copyBytes (gidx : Nat) (x : Copy) : List Byte :=
  bytesOf 1 x.kind ++ bytesOf 1 x.eng ++ bytesOf 1 (if x.held.isSome then 2 else if x.kind = 4 then 0 else 1) ++ bytesOf 1 gidx ++ bytesOf 4 x.batch ++
  bytesOf 8 (x.row * x.rowb + x.off) ++ copyArgs x
/-- The parts of a block area: SEQOFF, GRPOFF, SPOFF, FEOFF and the end. -/
def blockParts (t : Stage) (q : Option Seq) (full : Bool) : Nat × Nat × Nat × Nat × Nat :=
  let grp := match q with
    | none => 0x1400
    | some q => roundUp (0x1400 + 0x380 + 16384 * (liveAcs q full).length) 256
  let sp := grp + t.groups * groupSize t.vregs
  let fe := roundUp (sp + t.scratch) 256
  (if q.isSome then 0x1400 else 0, grp, sp, fe, roundUp (fe + (t.scratch + 127) / 128) 256)
/-- A block area. -/
def blockBytes (s : State) (t : Stage) (full : Bool) (bkey : Nat) (b : Block) (sig : BitVec 512) (copies : List (Nat × Copy)) : List Byte :=
  let (sq, gr, sp, fe, last) := blockParts t b.seq full
  let c := bkey / 8
  let live := match b.seq with
    | none => 0
    | some q => if full && !q.exited then 2 ^ 48 - 1 else maskOf (liveAcs q full)
  let flags := (if b.seq.isSome then 1 else 0) + (if full then 2 else 0) + (if ((b.seq.map (·.exited)).getD false) then 4 else 0)
  let head := bytesOf 8 b.ticket.toNat ++ bytesOf 1 b.k ++ bytesOf 1 t.groups ++ bytesOf 1 flags ++ bytesOf 1 copies.length ++
    bytesOf 2 t.vregs ++ bytesOf 2 t.lslice ++ bytesOf 4 t.scratch ++ bytesOf 4 (groupSize t.vregs) ++ bytesOf 8 live ++
    bytesOf 4 sq ++ bytesOf 4 gr ++ bytesOf 4 sp ++ bytesOf 4 fe ++ zeros 16 ++ unpack sig ++
    (List.range 16).flatMap (fun n => nbBytes (b.nbs.getD n {})) ++ (List.range 16).flatMap (fun k => unpack (b.omaps.getD k 0)) ++
    (List.range 8).flatMap (streamBytes b) ++ padTo 4096 (copies.flatMap (fun x => copyBytes x.1 x.2))
  let group (i : Nat) : List Byte := match s.groups.find? (fun g => g.2.block == bkey && g.2.gidx == i) with
    | some (k, g) => groupBytes s k t.vregs g
    | none => zeros (groupSize t.vregs)
  let o := c * Config.spadBytes + b.base
  let bitsAt (j : Nat) : Byte := BitVec.ofNat 8 (maskOf ((List.range 8).filter (fun i => isFull s (o / 16 + 8 * j + i))))
  padTo last (padTo fe (padTo sp (padTo gr (padTo 0x1400 head ++ ((b.seq.map (fun q => seqBytes q full)).getD [])) ++
    (List.range t.groups).flatMap group) ++ Memory.read s.spad o t.scratch) ++ (List.range ((t.scratch + 127) / 128)).map bitsAt)
/-- Where the DEFINED values lie in the backing area: one after the other by name, each from a multiple of 256 bytes (DESIGN CHOICE, log
54). -/
def valueOffs (n : Nbhd) : NMap Nat :=
  ((n.tiles.filter (fun t => t.2.st == 2)).foldl (fun (r : Nat × NMap Nat) t => (r.1 + roundUp (tileSize t.2.word) 256, r.2.set t.1 r.1)) (0, [])).2
/-- The DEFINED values as a save writes them to the backing area (R203). -/
def valueCells (n : Nbhd) : List (Nat × Byte) := (valueOffs n).flatMap (fun x => cellsAt (n.backBase + x.2) (n.tiles.getD x.1 {}).value)
/-- A directory entry (Table 17-4); a name whose definition is saved as a copy record is EMPTY in it. -/
def tileBytes (n : Nbhd) (offs : NMap Nat) (name : Nat) : List Byte :=
  let t := n.tiles.getD name {}
  bytesOf 1 ((if t.st = 1 then 0 else t.st) + (if t.kill then 4 else 0)) ++ bytesOf 1 t.gen ++ bytesOf 2 (outstanding n name) ++ bytesOf 4 t.word ++
  bytesOf 4 (offs.getD name 0) ++ zeros 4
/-- The neighbourhood header, with the offsets of the areas of its blocks by cluster index, and the tile directory. -/
def nbhdBytes (n : Nbhd) (offsets : NMap Nat) : List Byte :=
  padTo 0x100 (bytesOf 4 0x4B484331 ++ bytesOf 2 1 ++ bytesOf 2 n.count ++ bytesOf 2 n.stage.sid ++ bytesOf 2 n.handle ++ bytesOf 1 n.stage.rows ++
    bytesOf 1 n.stage.cols ++ zeros 2 ++ bytesOf 8 n.backBase ++ bytesOf 8 (charged n) ++ zeros 32 ++
    (List.range 24).flatMap (fun k => bytesOf 8 (offsets.getD k 0))) ++ (List.range 4096).flatMap (tileBytes n (valueOffs n))

/-! ## Names of the streams of a saved neighbourhood -/

/-- A renaming of group keys (core × 48 + slot) and block keys (core × 8 + block slot). -/
structure Renaming where
  groups : List (Nat × Nat)
  blocks : List (Nat × Nat)
  deriving DecidableEq, Repr, Inhabited
def Renaming.g (r : Renaming) (k : Nat) : Nat := ((r.groups.find? (fun x => x.1 == k)).map (·.2)).getD k
def Renaming.b (r : Renaming) (k : Nat) : Nat := ((r.blocks.find? (fun x => x.1 == k)).map (·.2)).getD k
def Renaming.strm (r : Renaming) : StreamId → StreamId
  | .scalar c sl => let k := r.g (c * 48 + sl); .scalar (k / 48) (k % 48)
  | .split c sl i => let k := r.g (c * 48 + sl); .split (k / 48) (k % 48) i
  | .seq c b => let k := r.b (c * 8 + b); .seq (k / 8) (k % 8)
def Renaming.waiter (r : Renaming) : SliceParty → SliceParty
  | .stream st trap => .stream (r.strm st) trap
  | w => w
/-- A request renamed: one of a group, or of a copy engine (slot 49) of a core whose only saved block is renamed. -/
def Renaming.req (r : Renaming) (copies : List Nat) (q : Request) : Request :=
  let k := r.g (q.core * 48 + q.slot)
  let moved := if q.slot < 48 then { q with core := k / 48, slot := k % 48 } else q
  let moved := if copies.contains q.copy then { moved with core := ((r.blocks.find? (fun x => x.1 / 8 == q.core)).map (fun x => x.2 / 8)).getD q.core } else moved
  { moved with writers := q.writers.map r.g }
/-- Everything that names the streams of a neighbourhood outside its own records, renamed. -/
def rename (s : State) (r : Renaming) (copies : List Nat) : State :=
  let op (o : TileOp) : TileOp := { o with strm := r.strm o.strm }
  let run (x : Run) : Run := { x with strm := x.strm.map r.strm }
  let rg (x : Region) : Region := { x with issuer := x.issuer.map (fun i => (r.g i.1, i.2)), waiting := x.waiting.map (fun w => { w with who := r.waiter w.who }) }
  { s with
    requests := s.requests.map (r.req copies)
    runs := s.runs.map run
    nbhds := s.nbhds.mapV (fun _ n => { n with ops := n.ops.map op })
    regions := s.regions.mapV (fun _ x => rg x)
    chans := s.chans.mapV (fun _ x => { x with holders := x.holders.map r.g })
    hostWrites := s.hostWrites.map (fun h => (h.1, r.g h.2.1, h.2.2)) }

/-! ## Saving -/

/-- The blocks of a neighbourhood by cluster index, with their keys. -/
def nbList (s : State) (nb : Nat) : List (Nat × Block) := (s.blocks.filter (fun b => b.2.nb == nb)).mergeSort (fun x y => decide (x.2.k ≤ y.2.k))
/-- The copies of a block's groups, with the group indexes. -/
def blockCopies (s : State) (bkey : Nat) : List (Nat × Copy) :=
  (s.core (bkey / 8)).copies.filterMap (fun x => match s.group? (bkey / 8) x.slot with
    | some g => if g.block = bkey then some (g.gidx, x) else none
    | none => none)
/-- Whether the next byte of a copy goes to a line whose capture finds the pool of its region full (R306). -/
def poolFull (s : State) (c : Nat) (x : Copy) : Bool :=
  x.started && x.writes && !x.moved && (match route s (copyParty s c x) .write ((x.to + x.off) % 2 ^ 64) 1 with
    | .ok (⟨_, .line pa, _⟩ :: _) => (match regionAt s pa with
      | some (_, false, r) => needsCapture s r pa && r.n == r.pent
      | _ => false)
    | _ => false)
/-- A copy that cannot finish: held at a fault, parked on a tile, or waiting for pool room (R178, R372). -/
def stuckCopy (s : State) (nb c : Nat) (x : Copy) : Bool :=
  x.held.isSome || x.kind == 4 && (((s.nbhd? nb).map (fun n => n.ops.any (fun o => o.copy == some x.id && o.st == 1))).getD false) || poolFull s c x
/-- Whether a sequencer has stopped for a save: at a safe point, after MEXIT, or past its time with no word running that is not parked. -/
def seqSaved (q : Seq) (full : Bool) : Bool :=
  q.exited || (q.safe.isSome && q.flights.isEmpty) || (full && !((q.flights.head?.map Flight.complete).getD false))
/-- Whether an operation of a tile file holds up a save: one that its stream has still to take up. One that is parked or refused is kept, and
so are an operand stream's read, which is presented again, and a peer's (R203). -/
def TileOp.holdsSave (o : TileOp) : Bool := !(o.st == 1 || o.st == 3 || decide (8 ≤ o.tag) || o.peer.isSome)
/-- Whether an accepted operation belongs to a context that a handler has interrupted: its word goes on after RFT, so it is kept as it
stands. -/
def TileOp.interrupted (s : State) (o : TileOp) : Bool :=
  let tm (c sl : Nat) : Bool := ((s.group? c sl).map (·.trapMode)).getD false
  o.st == 2 && o.tag % 2 == 0 && (match o.strm with
    | .scalar c sl => tm c sl
    | .split c sl _ => tm c sl
    | .seq _ _ => false)
/-- Whether a name is DEFINING by a TDEF of an interrupted context, whose transfer begins only after RFT. -/
def interruptedDef (s : State) (n : Nbhd) (name : Nat) : Bool :=
  n.ops.any (fun o => o.interrupted s && o.kind == 1 && o.value.isEmpty && o.word % 4096 == name)
/-- A tile file as it is saved: such a definition is presented again after the restore. -/
def unaccepted (s : State) (n : Nbhd) : Nbhd :=
  { n with
    tiles := n.tiles.mapV (fun name t => if interruptedDef s n name then { t with st := 0, word := 0 } else t)
    ops := n.ops.filter (fun o => !(o.interrupted s && o.kind == 1 && o.value.isEmpty)) }
/-- Whether a name is DEFINING by a TDEF whose copy is held at the fault service: it is saved with its copy (R372). -/
def heldDef (s : State) (nb name : Nat) : Bool :=
  (nbList s nb).any (fun b => (blockCopies s b.1).any (fun x => x.2.kind == 3 && x.2.held.isSome && x.2.tile % 4096 == name))
/-- Whether every step of R372 before the writing of the area is done, where the sequencers of some blocks are past their time. -/
def saveReady (s : State) (nb : Nat) (late : List Nat) : Bool :=
  let gs := nbGroups s nb
  let held := gs.all (fun k => match s.groups.get? k with
    | none => true
    | some g => g.prod.isEmpty && !s.requests.any (fun r => r.st == 0 && (r.kind == 1 || r.kind == 5) && r.core * 48 + r.slot == k) && !((s.core (k / 48)).loads.any (fun l => l.slot == k % 48)) && !postedPending s (k / 48) (k % 48) none)
  held && (nbList s nb).all (fun b => (flushL1 (b.1 / 8) s).1 && ((b.2.seq.map (fun q => seqSaved q (late.contains b.1))).getD true) &&
    (blockCopies s b.1).all (fun x => stuckCopy s nb (b.1 / 8) x.2 && (x.2.waiting == 0 || x.2.kind == 3))) &&
  (((s.nbhd? nb).map (fun n => n.tiles.all (fun t => t.2.st != 1 || interruptedDef s n t.1 || heldDef s nb t.1) && !n.ops.any (fun o => o.holdsSave && !o.interrupted s))).getD false)
/-- The group as it is kept: its place in a full/empty wait list and its waits are taken up again after the restore. -/
def keptSplit (x : Split) : Split := match x.park with
  | some ⟨_, .splits _⟩ => x
  | _ => { x with park := none }
def keptLanes (b : LaneBlock) : LaneBlock := { b with splits := b.splits.map keptSplit }
def keptGroup (g : Group) : Group := { g with park := none, ipark := none, lb := g.lb.map keptLanes, tlb := g.tlb.map keptLanes, latchA := none, latchB := none, latchC := none }
/-- A sequencer as it is kept: accumulators outside the safe point hold zero (R282). -/
def keptSeq (full : Bool) (q : Seq) : Seq :=
  let live := liveAcs q full
  let anew (x : Flight) : Flight := { x with bs := [], row := [] }
  { q with acs := q.acs.keep (fun k _ => live.contains (k / 4096)), safe := none, park := none, disp := if q.parkedWord then q.disp else none, flights := q.flights.map anew }
/-- A block as it is kept: its streams are discarded, to be fetched again (R184, R373). -/
def keptBlock (full : Bool) (b : Block) : Block :=
  { b with seq := b.seq.map (keptSeq full), streams := b.streams.mapV (fun k x => x.refetch (resumeAt b k)) }
/-- The names of a saved neighbourhood's streams. -/
def savedNames (s : State) (nb num : Nat) : Renaming :=
  let bs := nbList s nb
  { groups := (nbGroups s nb).map (fun k => match s.groups.get? k with
      | some g => (k, (1000 + 24 * num + (s.blockOf g).k) * 48 + g.gidx)
      | none => (k, k))
    blocks := bs.map (fun b => (b.1, (1000 + 24 * num + b.2.k) * 8)) }
/-- What is kept of one block. -/
def savedSpad (s : State) (b : Nat × Block) : Nat × List Byte × List Nat :=
  let o := b.1 / 8 * Config.spadBytes + b.2.base
  let n := (blockStage s b.2).scratch
  (b.2.k, Memory.read s.spad o n, (List.range ((n + 15) / 16)).filter (fun j => isFull s (o / 16 + j)))
/-- The neighbourhood leaves its cores: the tile values and the area are written, where memory backs them, and its slots and scratchpad are
freed (R203, R372, steps 5 to 7). -/
def saveNow (s : State) (o : SaveOp) (n : Nbhd) : State :=
  let n := unaccepted s n
  let s := s.updNbhd o.nb (fun _ => n)
  let bs := nbList s o.nb
  let gs := nbGroups s o.nb
  let late (b : Nat × Block) : Bool := o.late.contains b.1
  let s := (bs.foldl (fun s b => (flushL1 (b.1 / 8) s).2) s)
  let s := gs.foldl (fun s k => releaseBit s (k / 48) (k % 48)) s
  let s := bs.foldl (fun s b => if b.2.seq.isSome then releaseBit s (b.1 / 8) (48 + b.1 % 8) else s) s
  let sizes := bs.map (fun b => (blockParts n.stage b.2.seq (late b)).2.2.2.2)
  let offsets := (List.range bs.length).map (fun i => ((bs.map (·.2.k)).getD i 0, 0x10100 + ((sizes.take i).foldl (· + ·) 0)))
  let bytes := nbhdBytes n offsets ++ bs.flatMap (fun b => blockBytes s n.stage (late b) b.1 b.2 (s.core (b.1 / 8)).sig (blockCopies s b.1))
  let (num, s) := s.newId
  let names := savedNames s o.nb num
  let mine := ofNb gs (bs.map (·.1))
  let faults := s.faults.filter (fun f => f.2.kind == 9 || !mine f.2.stream)
  let copies := bs.flatMap (fun b => (blockCopies s b.1).map (fun x => (b.2.k, { x.2 with slot := x.1, held := none })))
  let requests := s.requests.filter (fun r => !waitedBy gs (bs.map (·.1)) r || r.kind == 1 || r.kind == 5)
  let s := rename { s with faults, requests } names (copies.map (fun x => x.2.id + 1))
  let placed (t : TileName) : TileName := if t.st = 2 then { t with place := 3 } else t
  let kept : Nbhd := { (s.nbhd? o.nb).getD n with saving := false, tiles := n.tiles.mapV (fun _ t => placed t) }
  let v : Saved := {
    num, nb := kept, key := o.nb, bytes, copies
    blocks := bs.map (fun b => (b.2.k, keptBlock (late b) b.2))
    groups := gs.filterMap (fun k => (s.groups.get? k).map (fun g => (16 * (s.blockOf g).k + g.gidx, keptGroup g)))
    sigs := bs.map (fun b => (b.2.k, (s.core (b.1 / 8)).sig))
    spads := bs.map (savedSpad s) }
  let strip (c : Nat) (k : Core) : Core := { k with
    waits := k.waits.filter (fun w => !gs.contains (w.core * 48 + w.slot)), copies := k.copies.filter (fun x => !gs.contains (c * 48 + x.slot)) }
  let full := bs.any (fun b => late b && ((b.2.seq.map (fun q => !q.exited)).getD false))
  let done (x : SaveOp) : SaveOp := if x.id = o.id then { x with done := true, bytes := bytes.length, full } else x
  let s := s.putOwn ((valueCells n ++ cellsAt o.area bytes).filter (fun x => backed s x.1 1))
  { s with
    saves := s.saves.set num v
    groups := s.groups.keep (fun k _ => !gs.contains k), blocks := s.blocks.keep (fun k _ => !(bs.map (·.1)).contains k)
    nbhds := s.nbhds.erase o.nb, cores := s.cores.mapV strip, saveOps := s.saveOps.map done }

/-! ## Reading a save area

What the layout of Tables 17-4 to 17-6 holds is read from the bytes of the area; what it has no place for (the uniforms of a running lane
block, the scalar PC under a trap of another source, the extent of a copy) comes from the save that the area's handle and stage name, while
the module holds one, and is a free value otherwise (DESIGN CHOICE, log 54). -/

/-- A free value for a part of an area. -/
def openWord (a k : Nat) : W64 := Config.freeWord (2 ^ 160 + 2 ^ 12 * a + 4 * k + 3)
/-- A table of the non-zero values among n. -/
def readTable {w : Nat} (n : Nat) (f : Nat → BitVec w) : NMap (BitVec w) := ((List.range n).filter (fun k => f k != 0)).map (fun k => (k, f k))
/-- A 32-bit word of memory. -/
def mem4 (m : List Host.Cell) (a : Nat) : W32 := BitVec.ofNat 32 (Memory.le m a 4)
def mem8 (m : List Host.Cell) (a : Nat) : W64 := BitVec.ofNat 64 (Memory.le m a 8)
/-- A join id, or none. -/
def jidOf (n : Nat) : Option Nat := if n = 255 then none else some n
/-- A stack entry, and a split entry with its stack (Table 17-6). -/
def readEntry (m : List Host.Cell) (a : Nat) : StackEntry :=
  { call := Memory.le m a 1 != 0, jid := jidOf (Memory.le m (a + 1) 1), ssp := Memory.le m (a + 2) 2, pc := mem4 m (a + 4), mask := mem4 m (a + 8)
    fmtr := mem4 m (a + 12), rpc := mem4 m (a + 16) }
def readSplit (m : List Host.Cell) (a st : Nat) (old : Split) : Split :=
  let flags := Memory.le m (a + 20) 1
  let pm := mem4 m (a + 12)
  { old with
    valid := bit flags 0, own := bit flags 1, pc := mem4 m a, mask := mem4 m (a + 4), fmtr := mem4 m (a + 8), ssp := Memory.le m (a + 16) 2
    jid := jidOf (Memory.le m (a + 18) 1)
    stack := ((List.range (min 16 (Memory.le m (a + 19) 1))).map (fun i => readEntry m (st + 24 * i))).reverse
    park := if bit flags 2 then old.park else none, unfinished := if pm = old.unfinished.getD 0 then old.unfinished else some pm }
def readSplits (m : List Host.Cell) (a : Nat) (old : List Split) : List Split :=
  (List.range 4).map (fun k => readSplit m (a + 32 * k) (a + 128 + 384 * k) (old.getD k {}))
def readJoin (m : List Host.Cell) (a : Nat) : Join :=
  { parent := jidOf (Memory.le m (a + 1) 1), owner := Memory.le m (a + 2) 1, rpc := mem4 m (a + 4), mask := mem4 m (a + 8), arr := mem4 m (a + 12)
    fmtr := mem4 m (a + 16), ssp := Memory.le m (a + 20) 2 }
/-- The lane block of a group record at an address. -/
def readLanes (m : List Host.Cell) (a : Nat) (t : Stage) (old : Option LaneBlock) : LaneBlock :=
  { splits := readSplits m (a + 0x600) ((old.map (·.splits)).getD [])
    joins := ((List.range 16).filter (fun j => bit (Memory.le m (a + 0xC80 + 32 * j) 1) 0)).map (fun j => (j, readJoin m (a + 0xC80 + 32 * j)))
    wide := if Memory.le m (a + 0xE80) 4 = 0 then none else some
      { saved := readSplits m (a + 0xE90) (((old.bind (·.wide)).map (·.saved)).getD []), openJoins := bitsOf 16 (Memory.le m (a + 0xE84) 4) }
    ws := (old.map (·.ws)).getD ((List.range 4).map (openWord a)), startSsp := (old.map (·.startSsp)).getD t.lslice }
def readQueueEntry (m : List Host.Cell) (a : Nat) : QueueEntry :=
  { target := mem4 m a, fmtr := mem4 m (a + 4), ws := (List.range 4).map (fun k => mem8 m (a + 8 + 8 * k)) }
/-- The batches of a group record; `copies` counts the copy records of a batch. -/
def readBatches (m : List Host.Cell) (a : Nat) (copies : Nat → Nat) : List Batch :=
  let oldest := Memory.le m (a + 4) 4
  let fails := Memory.le m (a + 8) 8
  let t : TrapInfo := { cause := Memory.le m (a + 24) 4, addr := mem8 m (a + 16) }
  ((List.range 65).map (fun i => ({ num := (oldest + i) % 2 ^ 32, left := copies (oldest + i), sealed := atOrBefore (oldest + i) (Memory.le m a 4), fail := if bit fails i then some t else none } : Batch))).filter
    (fun b => b.left != 0 || b.fail.isSome)
/-- A group record (Table 17-6). -/
def readGroup (m : List Host.Cell) (a gidx : Nat) (t : Stage) (copies : Nat → Nat) (old : Option Group) : Group :=
  let stat := Memory.le m (a + 8) 8
  let base : Group := old.getD { block := 0, gidx, spc := 0, ispc := openWord a 4, ssp := t.lslice, live := 0 }
  let bits (k : Nat) : W32 := ~~~(mem4 m (a + 0x1600 + 128 * t.vregs + 4 * k))
  let same := batchBytes base == Memory.read m (a + 0x280) 32
  { base with
    spc := mem8 m a, trapMode := bit stat 0, sregs := readTable 64 (fun r => mem8 m (a + 0x10 + 8 * r)), ts := readTable 8 (fun r => mem8 m (a + 0x210 + 8 * r))
    tpc := mem8 m (a + 0x250), tcause := mem8 m (a + 0x258), tinfo := mem8 m (a + 0x260), taddr := mem8 m (a + 0x268), tmask := mem8 m (a + 0x270)
    tstat := BitVec.ofNat 64 (Memory.le m (a + 0x278) 2), tssp := Memory.le m (a + 0x27A) 2
    bn := Memory.le m (a + 0x280) 4, batches := if same then base.batches else readBatches m (a + 0x280) copies
    sfmt := mem4 m (a + 0x2A0), live := mem4 m (a + 0x2A4), preds := (readTable 7 (fun p => mem4 m (a + 0x2A8 + 4 * p))).map (fun x => (x.1 + 1, x.2))
    dq := (List.range (min 16 (stat / 8 % 32))).map (fun k => readQueueEntry m (a + 0x300 + 48 * k))
    lb := if bit stat 2 then some (readLanes m a t base.lb) else none
    arrived := if bit stat 8 then some 2 else if base.arrived = some 2 then none else base.arrived
    rng := (List.range 32).map (fun i => (i, mem4 m (a + 0x1510 + 4 * i)))
    vregs := readTable (32 * t.vregs) (fun k => mem4 m (a + 0x1600 + 4 * k)), empty := readTable t.vregs bits }
/-- An in-flight record (Table 17-5): of one that no kept word matches, MRP names the rows that are left. -/
def readFlight (m : List Host.Cell) (a unit : Nat) (old : Option Flight) : Option Flight :=
  match old.filter (fun f => flightBytes f == Memory.read m a 48), decodeMatrix (mem8 m (a + 8)) with
  | some f, _ => some f
  | none, .ok (.mma w) => some { unit, pc := Memory.le m a 4, word := w, quant := false, k := Memory.le m (a + 4) 4, rows := mem8 m (a + 24),
                                 cols := mem8 m (a + 32), apos := Memory.le m (a + 16) 4, bpos := Memory.le m (a + 20) 4 }
  | none, .ok (.mmaq w) => some { unit, pc := Memory.le m a 4, word := w, quant := true, k := Memory.le m (a + 4) 4, rows := mem8 m (a + 24),
                                  cols := mem8 m (a + 32), apos := Memory.le m (a + 16) 4, bpos := Memory.le m (a + 20) 4 }
  | none, _ => none
/-- The record of a word that is no MMA, if a sequencer record has one: its PC, its bits and its progress. Of one that is not the kept word
itself, an MSTA keeps the progress, and any other begins anew. -/
def readParked (m : List Host.Cell) (a : Nat) (base : Seq) : Option (Nat × Seq) :=
  ((List.range (min 4 (Memory.le m (a + 0x370) 1))).map (fun i => a + 0x2B0 + 48 * i)).findSome? (fun r =>
    let kept := base.disp.isSome && parkedBytes base == Memory.read m r 48
    match decodeMatrix (mem8 m (r + 8)) with
    | .ok (.mma _) | .ok (.mmaq _) | .error _ => none
    | .ok i =>
      let prog := match i with
        | .msta _ => Memory.le m (r + 16) 4
        | _ => 0
      some (Memory.le m r 4, if kept then { base with disp := none } else { base with prog, buf := [], omap := none, disp := none }))
/-- A sequencer record (Table 17-5), whose saved accumulators the block header's LIVE names. -/
def readSeq (m : List Host.Cell) (a live : Nat) (exited : Bool) (old : Option Seq) : Seq :=
  let parked := readParked m a (old.getD {})
  let base : Seq := (parked.map (·.2)).getD { old.getD {} with prog := 0, buf := [], omap := none, disp := none }
  let cause := Memory.le m (a + 0x374) 4
  { base with
    pc := (parked.map (·.1)).getD (Memory.le m a 4), rng := mem4 m (a + 4), qs := readTable 16 (fun i => mem4 m (a + 8 + 4 * i)), exited
    mrp := (List.range 4).map (fun i => (i, mem8 m (a + 0x48 + 8 * i))), mcp := (List.range 4).map (fun i => (i, mem8 m (a + 0x68 + 8 * i)))
    rscale := readTable 64 (fun i => mem4 m (a + 0x88 + 4 * i)), cscale := readTable 64 (fun i => mem4 m (a + 0x188 + 4 * i))
    rscaleOn := bit (Memory.le m (a + 0x288) 4) 0, cscaleOn := bit (Memory.le m (a + 0x288) 4) 1
    loops := (List.range (min 4 (Memory.le m (a + 0x28C) 4))).map (fun i => (Memory.le m (a + 0x290 + 8 * i) 1, Memory.le m (a + 0x294 + 8 * i) 4))
    flights := (List.range (min 4 (Memory.le m (a + 0x370) 1))).filterMap (fun i => readFlight m (a + 0x2B0 + 48 * i) i base.flights[i]?)
    pend := if bit cause 8 then (if base.pend.map (fun t => t.cause) = some (cause % 256) ∧ base.pend.map (fun t => t.info) = some (mem8 m (a + 0x378)) then base.pend
      else some { cause := cause % 256, info := mem8 m (a + 0x378) }) else none
    acs := ((bitsOf 48 live).zip (List.range 48)).flatMap (fun x => (readTable 4096 (fun k => mem4 m (a + 0x380 + 16384 * x.2 + 4 * k))).map (fun y => (4096 * x.1 + y.1, y.2))) }
/-- A numbered barrier, and a stream, which is fetched from RESUME on (Table 17-4). -/
def readNb (m : List Host.Cell) (a : Nat) (old : Barrier) : Barrier :=
  let sq := Memory.le m (a + 5) 1
  { old with expect := Memory.le m a 2, count := Memory.le m (a + 2) 2, phase := Memory.le m (a + 4) 1, sqa := bit sq 0, sql := bit sq 1 }
def readStream (m : List Host.Cell) (a : Nat) (maps : Nat → BitVec 256) : OStream :=
  let p := Memory.le m (a + 4) 4
  { pos := p, next := p - Memory.le m (a + 8) 4, feed := (List.range (min 16 (Memory.le m (a + 12) 1))).map (fun i => let k := Memory.le m (a + 16 + i) 1; (k, maps k)) }
/-- A copy record that no kept copy matches. -/
def readCopy (m : List Host.Cell) (a id : Nat) : Nat × Copy :=
  let kind := Memory.le m a 1
  let g := a + 16
  let n := if kind = 2 then Memory.le m (g + 16) 4 else (openWord a 5).toNat % 2 ^ 32
  let off := Memory.le m (a + 8) 8
  let x : Copy := { id, eng := Memory.le m (a + 1) 1, slot := Memory.le m (a + 3) 1, batch := Memory.le m (a + 4) 4, kind, src := mem8 m g,
                    dst := mem8 m (g + 8), rowb := n, row := if n = 0 then 0 else off / n, off := if n = 0 then 0 else off % n }
  (Memory.le m (a + 3) 1, match kind with
    | 2 => { x with dst1 := BitVec.ofNat 64 n, n1 := Memory.le m (g + 20) 4, iscale := Memory.le m (g + 24) 4, index := mem8 m (g + 32) }
    | 3 =>
      let w := Memory.le m g 4
      let n := rowBytes w
      { x with tile := w, sst1 := BitVec.ofNat 64 (Memory.le m (g + 4) 4), src := mem8 m (g + 8), dst := 0, rowb := n, n1 := tileRows w, row := off / n, off := off % n, waiting := 1
               data := (List.range off).map (fun o => Config.freeByte (2 ^ 70 * a + o)) }
    | 4 => { x with tile := Memory.le m g 4, dst1 := BitVec.ofNat 64 (Memory.le m (g + 4) 4), rowb := 1, row := 0, off := 0 }
    | 6 => { x with key := Memory.le m (g + 16) 4, dev := Memory.le m (g + 20) 2 }
    | 7 => { x with dst := mem8 m g, src := mem8 m (g + 8), key := Memory.le m (g + 16) 4, dev := Memory.le m (g + 20) 2 }
    | _ => { x with sst1 := mem8 m (g + 16), dst1 := mem8 m (g + 24), sst2 := mem8 m (g + 32), dst2 := mem8 m (g + 40) })
/-- A block header (Table 17-4), with the streams that the save kept where the area's bytes of them are those it wrote. -/
def readBlock (m : List Host.Cell) (a : Nat) (t : Stage) (same : Nat → Nat → Bool) (old : Option Block) : Block :=
  let base : Block := old.getD { nb := 0, k := 0, ticket := 0, groups := [], base := 0 }
  let map (k : Nat) : BitVec 256 := pack 256 (Memory.read m (a + 0x100 + 32 * k) 32)
  let flags := Memory.le m (a + 10) 1
  let sq := Memory.le m (a + 0x20) 4
  { base with
    ticket := mem8 m a, k := Memory.le m (a + 8) 1
    nbs := (List.range 16).map (fun n => (n, readNb m (a + 0x80 + 8 * n) (base.nbs.getD n {}))), omaps := readTable 16 map
    streams := (List.range 8).map (fun k => (k, if same (0x300 + 32 * k) 32 then base.streams.getD k {} else readStream m (a + 0x300 + 32 * k) map))
    seq := if bit flags 0 && t.seq then some (readSeq m (a + sq) (Memory.le m (a + 0x18) 8) (bit flags 2) base.seq) else none }
/-- A name of the tile directory, with its value from the backing area (R203). -/
def readName (s : State) (area base name : Nat) (old : TileName) : TileName :=
  let a := area + 0x100 + 16 * name
  let st := Memory.le s.mem a 1
  let word := Memory.le s.mem (a + 4) 4
  let at' := base + Memory.le s.mem (a + 8) 4
  let value := if st % 4 ≠ 2 then [] else if backed s at' (tileSize word) then Memory.read s.mem at' (tileSize word) else old.value
  { old with st := st % 4, gen := Memory.le s.mem (a + 1) 1 % 16, word, kill := bit st 2, value, place := if st % 4 = 2 then 3 else 0 }
/-- The save of a stage that an area's HANDLE names, where the module holds it. -/
def savedAt (s : State) (part area : Nat) : Option (Nat × Saved) :=
  s.saves.findV (fun _ v => v.nb.part == part && v.nb.handle == Memory.le s.mem (area + 10) 2 && v.nb.stage.sid == Memory.le s.mem (area + 8) 2)
/-- The blocks of an area with the addresses where they begin; one that had ended has offset 0. -/
def areaBlocks (m : List Host.Cell) (area : Nat) (t : Stage) : List (Nat × Nat) :=
  ((List.range (t.rows * t.cols)).map (fun k => (k, Memory.le m (area + 0x40 + 8 * k) 8))).filterMap (fun b => if b.2 = 0 then none else some (b.1, area + b.2))
/-- The end of an area: of its last block's full/empty bits. -/
def areaEnd (m : List Host.Cell) (area : Nat) (t : Stage) : Nat :=
  (areaBlocks m area t).foldl (fun n b => max n (b.2 + Memory.le m (b.2 + 0x2C) 4 + (t.scratch + 127) / 128)) (area + 0x10100)
/-- The names that an area lists, or that the save listed. -/
def areaNames (m : List Host.Cell) (area : Nat) (n : Nbhd) : List Nat :=
  (List.range 4096).filter (fun i => (n.tiles.get? i).isSome || Memory.le m (area + 0x100 + 16 * i) 2 != 0)
/-- What an area holds, over the save `v` that its handle names, or over an empty one. -/
def readArea (s : State) (area : Nat) (t : Stage) (v : Saved) : Saved :=
  let m := s.mem
  let bs := areaBlocks m area t
  let old (k : Nat) : Option Block := (v.blocks.find? (fun b => b.1 == k)).map (·.2)
  let same (a o n : Nat) : Bool := ((v.bytes.drop (a - area + o)).take n) == Memory.read m (a + o) n
  let ncopy (a : Nat) : Nat := min 64 (Memory.le m (a + 11) 1)
  let recs (k a : Nat) : List (Nat × Copy) :=
    if !v.bytes.isEmpty && same a 11 1 && same a 0x400 (64 * ncopy a) then v.copies.filter (fun x => x.1 == k)
    else (List.range (ncopy a)).map (fun i => (k, (readCopy m (a + 0x400 + 64 * i) (s.nextId + 2 + 64 * k + i)).2))
  let group (k a i : Nat) : Option (Nat × Group) :=
    let g := a + Memory.le m (a + 0x24) 4 + groupSize t.vregs * i
    let kept := (v.groups.find? (fun x => x.1 == 16 * k + i)).map (·.2)
    if (if v.bytes.isEmpty then Memory.le m g 8 == 0 else kept.isNone) then none
    else some (16 * k + i, readGroup m g i t (fun n => ((recs k a).filter (fun x => x.2.slot == i && x.2.batch == n)).length) kept)
  let spad (a : Nat) : List Byte × List Nat :=
    (Memory.read m (a + Memory.le m (a + 0x28) 4) t.scratch,
     (List.range ((t.scratch + 15) / 16)).filter (fun j => bit (Memory.le m (a + Memory.le m (a + 0x2C) 4 + j / 8) 1) (j % 8)))
  let base := Memory.le m (area + 0x10) 8
  let n : Nbhd := { v.nb with backBase := base, tiles := (areaNames m area v.nb).map (fun i => (i, readName s area base i (v.nb.tiles.getD i {}))) }
  let copies := bs.flatMap (fun b => recs b.1 b.2)
  let defs := copies.filterMap (fun x => if x.2.kind = 3 ∧ x.2.waiting ≠ 0 then some x.2.tile else none)
  let n := { n with tiles := defs.foldl (fun l w => l.set (w % 4096) { l.getD (w % 4096) {} with st := 1, word := w }) n.tiles }
  let names := (n.ops.map (fun o => o.word % 4096)).dedup
  { v with
    nb := names.foldl (fun n i => rejudge s i n) n
    blocks := bs.map (fun b => (b.1, readBlock m b.2 t (same b.2) (old b.1)))
    groups := bs.flatMap (fun b => (List.range t.groups).filterMap (group b.1 b.2))
    sigs := bs.map (fun b => (b.1, pack 512 (Memory.read m (b.2 + 0x40) 64)))
    spads := bs.map (fun b => (b.1, spad b.2))
    copies }
/-- What an area holds that no save of the module stands behind: its neighbourhood takes the handle of the area where no other holds it. -/
def bareSave (s : State) (part area : Nat) (t : Stage) : Saved :=
  let h := Memory.le s.mem (area + 10) 2
  let taken := s.nbhds.any (fun n => n.2.handle == h) || s.saves.any (fun v => v.2.nb.handle == h)
  { num := s.nextId, key := s.nextId + 1, blocks := [], groups := [], sigs := [], spads := [], copies := [], bytes := []
    nb := { die := 0, row := 0, col := 0, stage := t, part, ctx := t.ctx, left := (areaBlocks s.mem area t).length, handle := if taken then freeHandle s else h } }

/-! ## Restoring -/

/-- One block restored on its core (R373): its allocation, its block slot, its groups, SIG and writer bits. Splits that no longer park may
merge (R328). -/
def restoreBlock (v : Saved) (s : State) (x : (Nat × Block) × Nat × List Nat) : State :=
  let c := x.2.1
  let t := v.nb.stage
  let r := takeBase s c t.alloc
  let s := clearAlloc r.2 c r.1 t.alloc t.ctx
  let o := c * Config.spadBytes + r.1
  let bkey := freeBlock s c
  let sp := ((v.spads.find? (fun y => y.1 == x.1.1)).map (·.2)).getD ([], [])
  let s := { s with
    spad := Memory.write s.spad (cellsAt o sp.1), spadCtx := (List.range sp.1.length).foldl (fun m i => m.set (o + i) t.ctx) s.spadCtx
    full := sp.2.foldl (fun m j => m.set (o / 16 + j) 1) s.full }
  let mine := v.groups.filter (fun g => g.1 / 16 == x.1.1)
  let s := s.setBlock bkey { x.1.2 with nb := v.key, base := r.1, groups := x.2.2, ended := t.groups - mine.length, stopped := false }
  let slotOf (g : Group) : Nat := x.2.2.getD g.gidx 0
  let s := mine.foldl (fun s g => s.setGroup c (slotOf g.2) ({ g.2 with block := bkey } : Group).settled) s
  let sig := ((v.sigs.find? (fun y => y.1 == x.1.1)).map (·.2)).getD 0
  let s := mine.foldl (fun s g => joinSig s c (slotOf g.2) sig) s
  let s := if x.1.2.seq.isSome then joinSig s c (48 + bkey % 8) sig else s
  let back (y : Nat × Copy) : Option Copy := if y.1 = x.1.1 then some { y.2 with slot := x.2.2.getD y.2.slot 0 } else none
  let s := s.updCore c (fun k => { k with copies := k.copies ++ v.copies.filterMap back })
  rename s { groups := mine.map (fun g => ((1000 + 24 * v.num + x.1.1) * 48 + g.2.gidx, c * 48 + slotOf g.2)), blocks := [((1000 + 24 * v.num + x.1.1) * 8, bkey)] }
    ((v.copies.filter (fun y => y.1 == x.1.1)).map (fun y => y.2.id + 1))
/-- A neighbourhood restored onto the cores of a rectangle; it issues again once every core's invalidation is complete (R373). -/
def restoreNow (s : State) (v : Saved) (anchor : Nat) (cores : List (Nat × List Nat)) : State :=
  let nb := { v.nb with die := anchor / 48, row := anchor % 48 / 8, col := anchor % 8, saving := true }
  let s := { s with nbhds := s.nbhds.set v.key nb, saves := s.saves.erase v.num }
  let s := v.blocks.foldl (fun s b => match cores[b.1]? with
    | some y => restoreBlock v s (b, y)
    | none => s) s
  cores.foldl (fun s y => purgePartition (dieOf y.1) (purgeL1 y.1 s)) s
/-- The area at an address restored (R373): over the save that its handle names, or, where there is none, from its bytes alone. -/
def restoreArea (s : State) (part area : Nat) (t : Stage) (anchor : Nat) (cores : List (Nat × List Nat)) : Nat × State :=
  match savedAt s part area with
  | some (_, v) => (v.key, restoreNow s (readArea s area v.nb.stage v) anchor cores)
  | none =>
    let v := readArea s area t (bareSave s part area t)
    (v.key, restoreNow (countRunning { s with nextId := s.nextId + 2 + 64 * cores.length } part t.sid (· + v.blocks.length)) v anchor cores)

end Sys2Proof.Machine
end

