-- ==== Sys2Proof/Machine/System.lean ====
section
/-! DEFINITION. TRAP, RFT, the system registers, PREQ and HALT (R69, R125, R371, R375 to R379). -/

namespace Sys2Proof.Machine
open Bits

/-! ## Traps -/

/-- R376: SOFTWARE with the code in TINFO and S[a] in TADDR. -/
def execTrap (a : BitVec 6) (k : BitVec 5) (s : State) : Out :=
  scalarRun false 0 4 [a.toNat] (fun _ _ g => .trap s { cause := 0x7F, info := k.setWidth 64, addr := BitVec.ofNat 64 (g.field a) }) s
/-- R371, R377: outside trap mode ILLEGAL_ENCODING; it waits for the trap lane block. A split that resumes at its join arrives, and splits that
meet merge (R327, R328). -/
def rftRun (skip : Bool) (s : State) : Out :=
  scalarRun false 0 4 [] (fun c sl g =>
    if !g.trapMode then .trap s (illegal 4)
    else if g.tlb.isSome then .park s 11 .drained
    else .stay (settleLanes (returnTrap s c sl skip (scalarLength s c sl g g.tpc)) c sl)) s
/-- R371. -/
def execRft (s : State) : Out := rftRun false s
/-- R371. -/
def execRftSkip (s : State) : Out := rftRun true s

/-! ## System registers -/

/-- A write of SRSEED seeds every lane of the group and the block's sequencer (R69). -/
def seedWrite (s : State) (c sl : Nat) (v : Nat) : State :=
  match s.group? c sl with
  | none => s
  | some g => updSeq (s.setGroup c sl { g with rng := seedLanes (v % 2 ^ 32) }) g.block (fun q => { q with rng := seedAt (v % 2 ^ 32) 32 })
/-- The number of ways that a write of RLWAYS leaves: open for a value above 4 (R125). -/
def waysOf (s : State) (v : Nat) : Nat := if v ≤ 4 then v else (Config.freeWord (s.tick * 8 + 2)).toNat % 5
/-- Whether a line of a remote-line partition lies in a way that is removed; which way holds it is not defined. -/
def inRemoved (s : State) (die new key : Nat) : Bool := new == 0 || decide (new < (s.die die).rlways) && Config.choice ((s.tick * 2 ^ 60 + key) * 8 + 4)
/-- A write of RLWAYS: lines of the ways removed are written back and invalidated (R125). -/
def rlwaysWrite (s : State) (die v : Nat) : State :=
  let n := waysOf s v
  let gone := (s.die die).rlines.keys.filter (inRemoved s die n)
  let s := gone.foldl (fun s k => dropRemote s die k) s
  s.updDie die (fun d => { d with rlways := n })
/-- What Table 17-8 says of a register: trap mode only, privileged for reading, privileged for writing, read-only. -/
structure SysKind where
  trapOnly : Bool := false
  privR : Bool := false
  privW : Bool := false
  ro : Bool := false
  deriving DecidableEq, Repr, Inhabited
def sysKind (n : Nat) : Option SysKind :=
  match n with
  | 0x000 | 0x005 => some { trapOnly := true, ro := true }
  | 0x001 | 0x002 | 0x003 | 0x004 => some { trapOnly := true }
  | 0x008 | 0x009 | 0x00A | 0x00B | 0x00C | 0x00D | 0x00E | 0x00F => some { trapOnly := true }
  | 0x010 | 0x030 | 0x044 | 0x045 => some { privW := true }
  | 0x020 => some {}
  | 0x021 => some { ro := true }
  | 0x040 | 0x041 | 0x042 | 0x043 => some { privR := true, privW := true }
  | _ => none
/-- The value of a system register (Tables 17-1 and 17-8). -/
def sysValue (s : State) (c : Nat) (g : Group) (n : Nat) : Nat :=
  let nb := s.nbhdOf g
  let x := s.ctx nb.ctx
  let part (f : Part → W64) : Nat := ((s.part? nb.part).map (fun p => (f p).toNat)).getD 0
  match n with
  | 0x000 => g.tcause.toNat
  | 0x001 => g.tpc.toNat
  | 0x002 => g.tinfo.toNat
  | 0x003 => g.taddr.toNat
  | 0x004 => g.tmask.toNat
  | 0x005 => g.tstat.toNat % 65536 + 65536 * g.tssp
  | 0x010 => x.tvec.toNat
  | 0x021 => s.devnum.toNat
  | 0x030 => part (·.tiledisc)
  | 0x040 => x.ptroot.toNat
  | 0x041 => x.trdbase.toNat
  | 0x042 => x.sstbase.toNat
  | 0x043 => (s.die (dieOf c)).rlways
  | 0x044 => part (·.ctrbase)
  | 0x045 => part (·.ctrcount)
  | _ => if 8 ≤ n ∧ n < 16 then (g.sregs.getD (n + 48) 0).toNat else 0
/-- A change of a group, of its context or of its partition. -/
def updCtx (s : State) (i : Nat) (f : Ctx → Ctx) : State := { s with ctxs := s.ctxs.set i (f (s.ctx i)) }
def sysWrite (s : State) (c sl : Nat) (g : Group) (n : Nat) (v : W64) : State :=
  let nb := s.nbhdOf g
  let onGroup (f : Group → Group) : State := s.updGroup c sl f
  match n with
  | 0x001 => onGroup (fun g => { g with tpc := v })
  | 0x002 => onGroup (fun g => { g with tinfo := v })
  | 0x003 => onGroup (fun g => { g with taddr := v })
  | 0x004 => onGroup (fun g => { g with tmask := v &&& 0xFFFFFFFF })
  | 0x010 => updCtx s nb.ctx (fun x => { x with tvec := v &&& ~~~3 })
  | 0x020 => seedWrite s c sl v.toNat
  | 0x030 => s.updPart nb.part (fun p => { p with tiledisc := v })
  | 0x040 => updCtx s nb.ctx (fun x => { x with ptroot := v })
  | 0x041 => updCtx s nb.ctx (fun x => { x with trdbase := v })
  | 0x042 => updCtx s nb.ctx (fun x => { x with sstbase := v })
  | 0x043 => rlwaysWrite s (dieOf c) v.toNat
  | 0x044 => s.updPart nb.part (fun p => { p with ctrbase := v })
  | 0x045 => s.updPart nb.part (fun p => { p with ctrcount := v })
  | _ => if 8 ≤ n ∧ n < 16 then onGroup (fun g => { g with sregs := g.sregs.set (n + 48) v }) else s
/-- The trap of an access to a system register (R375). -/
def sysTrap (n sl : Nat) (tm write : Bool) : Option TrapInfo :=
  match sysKind n with
  | none => some (illegal 4)
  | some k =>
    if (k.trapOnly && !tm) || (k.ro && write) then some (illegal 4)
    else if (if write then k.privW else k.privR) && sl != Config.agentSlot then some { cause := 3 } else none
/-- R375. -/
def execSysr (d : BitVec 6) (n : BitVec 11) (s : State) : Out :=
  scalarRun false 0 4 [d.toNat] (fun c sl g =>
    match sysTrap n.toNat sl g.trapMode false with
    | some t => .trap s t
    | none => .next (putS s c sl d (sysValue s c g n.toNat))) s
/-- R375; a write of RLWAYS completes when the lines it removes are placed (R125). -/
def execSysw (a : BitVec 6) (n : BitVec 11) (s : State) : Out :=
  scalarRun false 0 4 [a.toNat] (fun c sl g =>
    match sysTrap n.toNat sl g.trapMode true with
    | some t => .trap s t
    | none =>
      if g.arrived = some 1 then .next s
      else
        let s := sysWrite s c sl g n.toNat (BitVec.ofNat 64 (g.field a))
        if n = 0x043 ∧ s.requests.any (fun r => r.kind == 2 && r.st == 0 && r.slot == 48 && dieOf r.core == dieOf c) then
          .park (s.updGroup c sl (fun g => { g with arrived := some 1 })) 11 (.invalidation c true)
        else .next s) s

/-! ## Pre-emption and HALT -/

/-- The neighbourhood that an anchor word names, or the status that refuses it (R378): 1 no block in the slot, 2 not the anchor,
3 ending or being saved. -/
def anchorNb (s : State) (w : Nat) : Except Nat Nat :=
  match s.block? (w % 512 * 8 + w / 65536 % 8) with
  | none => .error 1
  | some b =>
    if b.k ≠ 0 then .error 2
    else
      let n := (s.nbhd? b.nb).getD default
      if n.saving then .error 3 else .ok b.nb
/-- Bits of an anchor word that must be zero. -/
def anchorBad (w : Nat) : Bool := w / 512 % 128 != 0 || w / 2 ^ 19 != 0
/-- The request of an agent that is under way. -/
def ownSave (s : State) (c sl : Nat) : Option SaveOp := s.saveOps.find? (fun o => o.core == c && o.slot == sl)
def dropSave (s : State) (id : Nat) : State := { s with saveOps := s.saveOps.filter (fun o => o.id != id) }
/-- Whether a block of a neighbourhood is stopped by a debugger. -/
def nbStopped (s : State) (nb : Nat) : Bool := s.blocks.any (fun b => b.2.nb == nb && b.2.stopped)
/-- R372, R378: the scalar stream parks until the neighbourhood is saved. -/
def execPreq (d a b : BitVec 6) (s : State) : Out :=
  scalarRun true 0 4 [d.toNat, a.toNat, b.toNat] (fun c sl g =>
    match ownSave s c sl with
    | some o =>
      if o.done then .next (putS (dropSave s o.id) c sl d (2 ^ 32 * o.bytes + (if o.full then 256 else 0))) else .park s 11 (.save o.id)
    | none =>
      if anchorBad (g.field a) then .trap s (illegal 4)
      else if g.field b % 256 ≠ 0 then .trap s { cause := 5, addr := BitVec.ofNat 64 (g.field b) }
      else match anchorNb s (g.field a) with
        | .error st => .next (putS s c sl d st)
        | .ok nb =>
          if nbStopped s nb then .park s 11 (.resumed nb)
          else
            let (id, s) := s.newId
            let o : SaveOp := { id, core := c, slot := sl, nb, anchor := g.field a, area := g.field b, since := s.clock }
            .park { s.updNbhd nb (fun n => { n with saving := true }) with saveOps := s.saveOps ++ [o] } 11 (.save id)) s
/-- The loaded stage that MAGIC, VERSION and SID of an area match (R378, status 4); none of an area that memory does not back to its end
(log 54). -/
def areaStage (s : State) (part area : Nat) : Option Stage :=
  if Memory.le s.mem area 4 = 0x4B484331 ∧ Memory.le s.mem (area + 4) 2 = 1 then
    ((s.part? part).bind (fun p => p.stages.get? (Memory.le s.mem (area + 8) 2))).filter (fun t => backed s area (areaEnd s.mem area t - area))
  else none
/-- Whether the cores of a restored neighbourhood have ended their invalidation. -/
def restoring (s : State) (nb : Nat) : Bool := (nbList s nb).any (fun b => invalidating s (b.1 / 8) true)
/-- R373, R378: the area is restored onto the rectangle anchored at a core. -/
def execPreqRst (d a b : BitVec 6) (s : State) : Out :=
  scalarRun true 0 4 [d.toNat, a.toNat, b.toNat] (fun c sl g =>
    match ownSave s c sl with
    | some o =>
      if restoring s o.nb then .park s 11 (.save o.id)
      else .next (putS ((dropSave s o.id).updNbhd o.nb (fun n => { n with saving := false })) c sl d 0)
    | none =>
      let part := (s.nbhdOf g).part
      let anchor := g.field a % 512
      let area := g.field b
      if area % 256 ≠ 0 then .trap s { cause := 5, addr := BitVec.ofNat 64 area }
      else match areaStage s part area with
        | none => .next (putS s c sl d 4)
        | some t => match rectRoom s part c anchor t with
          | none => .next (putS s c sl d 1)
          | some cores =>
            let r := restoreArea s part area t anchor cores
            let (id, s) := r.2.newId
            .park { s with saveOps := s.saveOps ++ [{ id, core := c, slot := sl, nb := r.1, anchor := g.field a, area, since := s.clock, restore := true }] } 11 (.save id)) s
/-- R379: the neighbourhood ends without being saved. -/
def execHalt (d a : BitVec 6) (s : State) : Out :=
  scalarRun true 0 4 [d.toNat, a.toNat] (fun c sl g =>
    if anchorBad (g.field a) then .trap s (illegal 4)
    else match anchorNb s (g.field a) with
      | .error st => .next (putS s c sl d st)
      | .ok nb => .next (putS (removeNb s nb) c sl d 0)) s

end Sys2Proof.Machine
end

