-- ==== Sys2Proof/Machine/Waiting.lean ====
section
/-! DEFINITION. Events of streams that wait and of the caches: the end of a park, producers, lane blocks, the fault service, write-backs
and fills (R14, R69, R87, R123, R125, R126, R137, R160, R215, R320, R405). -/

namespace Sys2Proof.Machine
open Bits

/-! ## Parked streams -/

/-- A change of one split of a group. -/
def updFor (s : State) (c sl k : Nat) (f : Split → Split) : State :=
  let on (b : LaneBlock) : LaneBlock := b.set (k % 8) (f (b.at (k % 8)))
  s.updGroup c sl (fun g => if trapBlock k then { g with tlb := g.tlb.map on } else { g with lb := g.lb.map on })
/-- The park of a stream ends; a split may then have arrived, or merge with another (R327, R328). -/
def unpark (s : State) : StreamId → State
  | .scalar c sl => s.updGroup c sl (fun g => { g with park := none })
  | .split c sl k => settleLanes (updFor s c sl k (fun x => { x with park := none })) c sl
  | .seq c b => updSeq s (c * 8 + b) (fun q => { q with park := none })
/-- The group and the block key of a stream. -/
def groupOf (s : State) : StreamId → Group
  | .scalar c sl => (s.group? c sl).getD default
  | .split c sl _ => (s.group? c sl).getD default
  | .seq _ _ => default
def slotOf : StreamId → Nat
  | .scalar _ sl => sl
  | .split _ sl _ => sl
  | .seq _ b => 64 + b
/-- The mark of a stream on what it has in flight: as `Issuer.tag` has it. -/
def markOf : StreamId → Nat
  | .scalar _ _ => 4
  | .split _ _ k => k
  | .seq _ _ => 0
def blockKeyOf (s : State) : StreamId → Nat
  | .seq c b => c * 8 + b
  | x => (groupOf s x).block
/-- Whether a tile operation of a stream has been judged: a TRDS goes on while parked (R192). -/
def tileMet (s : State) (st : StreamId) (nb nm : Nat) : Bool :=
  let st := match st with
    | .split c sl k => .split c sl (k % 8)
    | x => x
  (((s.nbhd? nb).getD default).ops.filter (fun o => o.strm == st && o.copy.isNone && o.st != 4 && decide (o.tag < 8) && o.word % 4096 == nm)).all
    (fun o => decide (2 ≤ o.st) || (o.tag / 2 == 1 && o.st == 1))
/-- Whether the dequeue of an agent's waiting launch can be done (R350, R352). -/
def queueMet (s : State) (p q c : Nat) : Bool :=
  let held : NMap Nat := ((s.part? p).map (fun x => x.reserved)).getD []
  match queueOf s p q, (s.part? p).bind (fun y => y.stages.get? (held.getD c 0)) with
  | some x, some t => dequeueReady s x c t
  | _, _ => true
/-- Whether a stream that waits for a region at a place may go on: the region is IDLE and none that came before it at that place waits
(R308, R312); its own operation has ended (R313). -/
def regionMet (s : State) (st : StreamId) (place : Nat) (r : Region) : Bool :=
  let tm := match st with
    | .scalar c sl => inTrap s c sl
    | .split _ _ k => trapBlock k
    | .seq _ _ => false
  if place = ownPlace then (match st with
    | .scalar c sl => r.issuer != some (c * 48 + sl, if tm then 1 else 0)
    | _ => true)
  else r.st == 0 && !r.before s (· == .stream st tm) place
/-- Whether a party still has its place: a stream, while it waits there or has yet to issue its word again; any other, while there is what it
waits with. An interrupted stream keeps its place. -/
def placeKept (s : State) (slot : Nat) (w : SlicePlace) : Bool :=
  match w.who with
  | .stream st trap =>
    let tm := match st with
      | .scalar c sl | .split c sl _ => inTrap s c sl
      | .seq _ _ => false
    if tm != trap then tm
    else pcOf s st == some w.pc && (match parkOf s st with
      | some ⟨_, .region k⟩ => k == slot + 256 * w.place
      | some _ => false
      | none => true)
  | .writeBack c line => (((s.core c).l1.get? line).map (fun l => l.dirty != 0)).getD false
  | .fill c line => s.fills.any (fun f => f.core == c && f.line == line)
  | .copy c id => (s.core c).copies.any (fun x => x.id == id && x.fail.isNone)
  | .operand b k => (s.block? b).any (fun x => !(x.streams.getD k {}).feed.isEmpty)
  | .host port => (s.hostHeld.get? port).isSome
  | .peer _ _ => true
/-- Places at the regions that none keeps any more are given up. -/
def settlePlaces (s : State) : State :=
  if s.regions.any (fun r => r.2.waiting.any (fun w => !placeKept s r.1 w)) then
    { s with regions := s.regions.mapV (fun i r => { r with waiting := r.waiting.filter (placeKept s i) }) }
  else s
/-- Whether the condition of a wait is met (R14). -/
def condMet (s : State) (st : StreamId) : WaitCond → Bool
  | .fault id => s.faults.all (fun f => f.1 != id)
  | .regs rs m => rs.all (fun r => (groupOf s st).emptyMask r &&& m == 0)
  | .sregs rs => rs.all (fun r => !(groupOf s st).pendS.contains r)
  | .queueRoom => decide ((groupOf s st).dq.length < 16)
  | .drained => (groupOf s st).drained
  | .ended => (groupOf s st).drained && (groupOf s st).copied && returned s (coreOf st) (slotOf st) (groupOf s st)
  | .seqExit => !seqRuns ((s.block? (blockKeyOf s st)).getD default)
  | .batch n => batchesDone (groupOf s st) n
  | .clock t => decide (t ≤ s.clock)
  | .bar p k ph => (barEntry s p k).phase != ph
  | .nb n ph => (((s.block? (blockKeyOf s st)).getD default).nbs.getD n {}).phase != ph
  | .granule _ g due => (isFull s g && decide (due ≤ s.clock)) || (match st with
    | .split _ _ k => ((groupOf s st).splitFor k).unfinished == some 0
    | _ => false)
  | .tile nb nm => tileMet s st nb nm
  | .streams m => streamsEmpty ((s.block? (blockKeyOf s st)).getD default) m
  | .elements _ _ => true
  | .units => decide (((((s.block? (blockKeyOf s st)).bind (·.seq)).map (·.flights)).getD []).length < 3)
  | .region k => ((s.regions.get? (k % 256)).map (regionMet s st (k / 256))).getD true
  | .counter p i t => ((counterAt s p i).map (fun a => decide (t ≤ tableWord s a))).getD true
  | .remote id => s.requests.all (fun r => r.id != id || r.st != 0)
  | .posted dev => match st with
    | .seq c b => storesLeft s (c * 8 + b) != some (.posted none)
    | _ => !postedPending s (coreOf st) (slotOf st) dev
  | .rma dev => !rmaPending s (coreOf st) (slotOf st) (dev.getD 0)
  | .requests n => match st with
    | .seq c b => tableRoom s c fetcherTable (8 * 128 + (64 + b)) n
    | _ => tableRoom s (coreOf st) (slotOf st) (markOf st) n
  | .stale c n => !s.fills.any (fun f => f.core == c && f.stale && f.line / 4 == n / 4) &&
      !s.requests.any (fun r => r.core == c && r.stale && r.st == 0 && r.kind == 0 && peerKey r.dev r.addr / 4 == n / 4)
  | .queue p q => match st with
    | .split c sl k => s.runs.all (fun x => x.strm != some (.split c sl k) || x.done)
    | _ => queueMet s p q (coreOf st)
  | .save id => s.saveOps.all (fun o => o.id != id || (if o.restore then !restoring s o.nb else o.done))
  | .splits _ => false
  | .engineRoom e => if e < 2 then decide (engineUsed s (coreOf st) e < 32) else decide ((s.core (coreOf st)).copies.length + (e - 2) ≤ 64)
  | .mapSlot k => !feeding ((s.block? (blockKeyOf s st)).getD default) k
  | .loads => (s.core (coreOf st)).loads.all (fun l => l.slot != slotOf st)
  | .farLoads => !farLoads s (coreOf st) (slotOf st)
  | .resumed nb => !nbStopped s nb
  | .writeBacks c => (flushL1 c s).1
  | .l1Room c => decide ((s.core c).l1.length < l1Lines) || (s.core c).l1.keys.any (fun n => (invalidateLine c n s).1)
  | .hostWrites => match st with
    | .seq c b => storesLeft s (c * 8 + b) != some .hostWrites
    | _ => !s.hostWrites.any (fun h => h.2.1 == coreOf st * 48 + slotOf st || h.2.1 == coreOf st * 48 + 48 * 384)
  | .accesses x => !accessing s x
  | .invalidation c p => !invalidating s c p
/-- Whether a stream of a stopped block stays parked as it is (R392): but for that of a group which a debugger lets issue. -/
def frozen (s : State) (st : StreamId) : Bool :=
  let held (c sl : Nat) : Bool := ((s.group? c sl).map (fun g => (s.blockOf g).stopped && !g.stepOne)).getD false
  match st with
  | .scalar c sl => held c sl
  | .split c sl _ => held c sl
  | .seq c b => ((s.block? (c * 8 + b)).map (·.stopped)).getD false
/-- A park that ends where its condition meets a test; the lane block then settles. -/
def resumeIf (f : WaitCond → Bool) (s : State) : Option State :=
  match parkOf s s.input.stream with
  | some p => if !frozen s s.input.stream && f p.cond && condMet s s.input.stream p.cond then some (unpark s s.input.stream) else none
  | none => none
/-- R14. -/
def execParkResume (s : State) : Out := event (resumeIf (fun _ => true)) s
/-- R137: an instruction that waits for entries of the request table receives them. -/
def execRequestTableGrant (s : State) : Out := event (resumeIf (fun c => match c with
  | .requests _ => true
  | _ => false)) s
/-- R160: the core of a split whose request found the wait list full sends it again after 64 clocks; one that has lost its entry sends it at
once. -/
def execWaitlistResend (s : State) : Out :=
  event (fun s => match s.input.stream, parkOf s s.input.stream with
    | .split _ _ _, some ⟨_, .granule _ _ due⟩ => if due ≤ s.clock ∧ !frozen s s.input.stream then some (unpark s s.input.stream) else none
    | _, _ => none) s

/-! ## The lane stream -/

/-- R215: the value of a long-latency producer arrives, and its registers become FULL. -/
def execProducerWrite (s : State) : Out :=
  event (fun s => (s.group? s.input.core s.input.slot).bind (fun g => (g.prod[s.input.idx]?).map (fun x =>
    s.setGroup s.input.core s.input.slot (({ g with prod := dropAt g.prod s.input.idx } : Group).produce x)))) s
/-- R320: the oldest entry of the decision queue starts; with no live lane it is consumed. -/
def execLaneBlockStart (s : State) : Out :=
  event (fun s => (s.group? s.input.core s.input.slot).bind (fun g => match g.trapMode, g.lb, g.dq with
    | false, none, e :: es =>
      some (s.setGroup s.input.core s.input.slot { g with
        dq := es, lb := if g.live = 0 then none else some (freshBlock e.target g.live e.fmtr g.ssp e.ws) })
    | _, _, _ => none)) s

/-! ## The fault service -/

def dropFault (s : State) (id : Nat) : State := { s with faults := s.faults.filter (fun f => f.1 != id) }
/-- A stream that waits on a held fault no longer does; an interrupted scalar stream as well. -/
def unheldAt (s : State) (id : Nat) (st : StreamId) : State :=
  let on (p : Option Park) : Option Park := match p with
    | some ⟨_, .fault k⟩ => if k = id then none else p
    | _ => p
  match st with
  | .scalar c sl => s.updGroup c sl (fun g => { g with park := on g.park, ipark := on g.ipark })
  | .split c sl k => updFor s c sl k (fun x => { x with park := on x.park })
  | .seq c b => updSeq s (c * 8 + b) (fun q => { q with park := on q.park })
/-- A stream that waits on a held fault goes on, but for one of a stopped block, which goes on later; the lane block then settles (R328). -/
def unheld (s : State) (id : Nat) (st : StreamId) : State :=
  if frozen s st then s
  else match st with
    | .split c sl _ => settleLanes (unheldAt s id st) c sl
    | _ => unheldAt s id st
/-- A change of one copy of a core. -/
def updCopy (s : State) (c id : Nat) (f : Copy → Copy) : State :=
  let one (x : Copy) : Copy := if x.id = id then f x else x
  s.updCore c (fun k => { k with copies := k.copies.map one })
/-- The partition that a held fault belongs to; that of an exhausted pool is its region's (R306). -/
def partOfFault (s : State) (f : Nat × FaultRec) : Nat :=
  if f.2.kind = 9 then (s.ctx f.2.info.addr.toNat).part
  else match f.2.stream with
  | .seq c b => (((s.block? (c * 8 + b)).bind (fun x => s.nbhd? x.nb)).getD default).part
  | st => (s.nbhdOf (groupOf s st)).part
/-- R87, R167, R184: the service resolves a fault; what waited on it walks the tables again. Operation 1: it passes the fault to the
driver, which raises vector 1 (Table 18-3), and holds it still. -/
def execFaultResolved (s : State) : Out :=
  event (fun s => (s.faults.find? (fun f => f.1 == s.input.x)).map (fun f =>
    if s.input.op = 1 then raiseVector s (partOfFault s f) 1
    else
      let s := dropFault s f.1
      match f.2.kind with
      | 4 => updCopy s (coreOf f.2.stream) f.2.ref (fun x => { x with held := none })
      | 5 => match f.2.stream with
        | .seq c b => updStream s (c * 8 + b) f.2.ref (fun x => { x with stop := none })
        | _ => s
      | 9 => s
      | _ => unheld s f.1 f.2.stream)) s
/-- The word at a sequencer's PC lets go what it had started, so that it begins anew where it is issued again; one in flight keeps its
progress (R259, R263). -/
def dropWord (s : State) (b : Nat) : State :=
  updSeq s b (fun q => if q.flights.isEmpty then { q with prog := 0, buf := [], omap := none, disp := none } else q)
/-- The trap of a fatal fault at its stream (R87, R184), taken before its split could merge with another (R328); a sequencer's access traps OPERAND_FAULT at its position. -/
def fatalTrap (s : State) (f : Nat × FaultRec) : State :=
  let t := f.2.info
  match f.2.stream with
  | .scalar c sl =>
    let g := (s.group? c sl).getD default
    let here := match g.park with
      | some ⟨_, .fault k⟩ => k == f.1
      | _ => false
    raise (unheldAt s f.1 f.2.stream) c sl 0 0 (g.trapMode && here) t
  | .split c sl k => raise (unheldAt s f.1 f.2.stream) c sl 1 (k % 8) (trapBlock k) t
  | .seq c b => stopSeq (dropWord (unheldAt s f.1 f.2.stream) (c * 8 + b)) (c * 8 + b) (if f.2.kind = 3 then t else operandFault t.cause f.2.ref)
/-- R87, R167, R184: the service declares a fault fatal, and logs it where the input asks (Table 18-4, kind 6). -/
def execFaultFatal (s : State) : Out :=
  event (fun s => (s.faults.find? (fun f => f.1 == s.input.x)).bind (fun f =>
    let s := dropFault s f.1
    let part := partOfFault s f
    let s := if s.input.ok then logError s part 6 f.2.info.cause (f.2.info.info.toNat % 256) none (dieOf (coreOf f.2.stream)) f.2.info.addr.toNat f.2.info.info.toNat else s
    match f.2.kind with
    | 4 => some (updCopy s (coreOf f.2.stream) f.2.ref (fun x => { x with held := none, fail := some f.2.info }))
    | 5 => match f.2.stream with
      | .seq c b => some (drainNow (updStream s (c * 8 + b) f.2.ref (fun x => { x with stop := some (.fatal f.2.info.cause) })) (c * 8 + b))
      | _ => some s
    | 9 => none
    | _ => some (fatalTrap s f))) s

/-! ## Caches -/

/-- R123: a write-back of an L1 sector reaches its home; where the input says so, the line leaves the L1. -/
def execMaskedWriteback (s : State) : Out :=
  event (fun s =>
    let c := s.input.core
    (((s.core c).l1.get? s.input.addr)).map (fun _ =>
      let r := if s.input.ok then invalidateLine c s.input.addr s else writeBack c s.input.addr s
      r.2)) s
/-- What a load traps with where some of its bytes do not come: at the first of them (R88, R111). -/
def Load.without (t : TrapInfo) (p : LoadByte → Bool) (l : Load) : Option TrapInfo :=
  (l.bytes.findIdx? p).map (fun j => { t with addr := l.addr + BitVec.ofNat 64 j })
/-- What a load whose bytes are all there traps with where the check of one failed. -/
def Load.failed (l : Load) : Option TrapInfo :=
  if l.bytes.all (·.got.isSome) then
    (l.bytes.findIdx? (·.bad.isSome)).map (fun j => integrity (((l.bytes[j]?).bind (·.bad)).getD 0) (l.addr + BitVec.ofNat 64 j).toNat)
  else none
/-- The traps of loads that end without data, one for each instruction: their registers are FULL and unchanged (R111). Of a group the scalar
stream's comes first, then the lowest split's (R367); each names the PC of its load (R366), and the first failing address of its lanes. -/
def failLoads (s : State) (c : Nat) (bad : Load → Option TrapInfo) : State :=
  let l := (s.core c).loads.filterMap (fun x => (bad x).map (fun t => (x, t)))
  let s := s.updCore c (fun k => { k with loads := k.loads.filter (fun x => (bad x).isNone) })
  let free (s : State) (x : Load) : State := s.updGroup c x.slot (fun g => match x.conv with
    | .scalar d _ _ => { g with pendS := g.pendS.filter (· != d) }
    | .lane _ _ _ _ => (convRegs x.conv).foldl (fun g r => g.markFull r (1 <<< x.lane)) g)
  let s := (l.map (·.1)).foldl free s
  let rank (x : Nat × Nat × W64) : Nat := x.1 * 16 + (if x.2.1 % 8 = 4 then 0 else 1 + x.2.1 % 8)
  let streams := ((l.map (fun x => (x.1.slot, x.1.split, x.1.pc))).dedup).mergeSort (fun x y => decide (rank x ≤ rank y))
  streams.foldl (fun s k =>
    let mine := l.filter (fun x => x.1.slot == k.1 && x.1.split == k.2.1 && x.1.pc == k.2.2)
    let mask : W32 := if k.2.1 % 8 = 4 then 0 else BitVec.ofNat 32 (maskOf (mine.map (·.1.lane)))
    let scalar := k.2.1 % 8 == 4
    raise s c k.1 (if scalar then 0 else 1) (k.2.1 % 4) (decide (8 ≤ k.2.1)) { (mine.head?.map (·.2)).getD default with mask } (some k.2.2)) s
/-- Loads of which a byte failed its check trap (R111). -/
def settleBad (s : State) : State :=
  s.cores.foldl (fun s k => if k.2.loads.any (fun l => l.failed.isSome) then failLoads s k.1 Load.failed else s) s
/-- Qualified loads, atomics and RMATOMs that a handler interrupted, once all that a stream sent has been answered: a failure's trap waits for
RFT (R367). The streams are named by their marks. -/
def pendFailed (c sl : Nat) (s : State) (tag : Nat) : State :=
  let mine (r : Request) : Bool := r.core == c && r.slot == sl && r.split == tag && (r.kind == 5 || (r.strong && (r.kind == 0 || r.kind == 1)))
  let l := s.requests.filter mine
  let bad := (l.filter (fun r => r.st == 2)).mergeSort (fun x y => decide (x.lane ≤ y.lane))
  match bad with
  | [] => s
  | q :: _ =>
    if l.any (fun r => r.st == 0) then s
    else
      let t : TrapInfo := { q.fail with mask := if tag = 4 then 0 else BitVec.ofNat 32 (maskOf (bad.map (·.lane))) }
      { s with requests := s.requests.filter (fun r => !mine r) }.updGroup c sl (fun g => { g with pendTrap := g.pendTrap ++ [({ src := if tag = 4 then 0 else 1, k := tag % 4, t, pc := none } : Pended)] })
def settleFailed (s : State) : State :=
  s.groups.foldl (fun s x => if x.2.trapMode then [0, 1, 2, 3, 4].foldl (pendFailed (x.1 / 48) (x.1 % 48)) s else s) s
/-- A line arrives at an L1: the bytes that the core itself has dirtied stay. Where no line can make room, it is not allocated (DESIGN CHOICE,
log 61). -/
def fillLine (s : State) (c line : Nat) (byte : Nat → Byte) : State :=
  let r := roomL1 c [line] 1 s
  if !r.1 then s
  else r.2.updCore c (fun k =>
    let old := (k.l1.get? line).getD { data := 0, whole := false, dirty := 0 }
    let data := (List.range 64).foldl (fun (v : BitVec 512) i => if old.dirty.getLsbD i || old.whole then v else putByte v i (byte i)) old.data
    { k with l1 := k.l1.set line { old with data, whole := true } })
/-- The bytes of a fill: those of the home, or of the answer from a peer. -/
def fillBytes (s : State) (f : Fill) : Option (Nat → Byte) :=
  if f.line < 2 ^ 58 then some (fun i => Memory.get s.mem (f.line * 64 + i))
  else f.data.map (fun d => fun i => byteAt d (f.line % 2 ^ 58 * 64 % 256 + i))
/-- Whether the home slice holds a fill (R104, R308), and whether it has taken its place there. -/
def fillHeld (s : State) (f : Fill) : Option Nat :=
  if f.line < 2 ^ 58 then homeWaits (· == .fill f.core f.line) s (f.line * 64) false else none
def fillPlaced (s : State) (f : Fill) : Bool := s.regions.any (fun r => r.2.waiting.any (fun x => x.who == .fill f.core f.line))
/-- R137, R140, R405: a fill returns: the loads that wait take their bytes, and the line is allocated unless an invalidation
forbids it. A unit of this module's memory whose check fails is bad in the loads that take it, and its line is not allocated; one that is
corrected is counted (R110, R111). The answer of a peer whose check fails is lost with the subcode that the input brings. -/
def execFillReturn (s : State) : Out :=
  event (fun s =>
    let c := s.input.core
    (s.fills.find? (fun f => f.core == c && f.line == s.input.addr)).bind (fun f => match fillHeld s f with
    | some k => if fillPlaced s f then none else some (joinPlace k (.fill c f.line) 0 s)
    | none => (fillBytes s f).map (fun byte =>
      let s := leavePlaces { s with fills := s.fills.erase f } (.fill c f.line)
      if f.line < 2 ^ 58 then
        let us := lineUnits s c f.line
        let bad := lineBad s c f.line
        let s := countErrs s us
        let s := if f.noAlloc || (errIn s us).isSome then s else fillLine s c f.line byte
        feedLoads s c f.line (lineByte s c f.line) bad
      else if s.input.ok then feedLoads (if f.noAlloc then s else fillLine s c f.line byte) c f.line byte
      else failLoads s c (Load.without (integrity s.input.op 0) (fun b => b.line == f.line && b.got.isNone))))) s
/-- R126: a remote line dirty for 16,384 clocks, or one that the partition evicts, is sent as a posted store. -/
def execRemoteLineAgeExpiry (s : State) : Out :=
  event (fun s => ((s.die s.input.die).rlines.get? s.input.x).bind (fun l =>
    if s.input.ok then some (dropRemote s s.input.die s.input.x)
    else if l.dirty ≠ 0 ∧ l.since + 16384 ≤ s.clock then some (sendLine s s.input.die s.input.x) else none)) s

/-! ## The room of the caches -/

/-- The slice of a die at which a remote line is indexed (R125). -/
def remoteSlice (key : Nat) : Nat := homeSlice ((key / 2 ^ 44 * 2 ^ 40) ^^^ (key % 2 ^ 44 * 256))
/-- Lines of one way of a slice: 2 MiB in 16 ways of 256 bytes (R121). -/
def wayLines : Nat := 512
/-- The remote lines of a die's slice leave, freely chosen, until the ways that RLWAYS gives hold the others (R125, R126). -/
def trimSlice (die : Nat) (s : State) (slice : Nat) : State :=
  let keys := (s.die die).rlines.keys.filter (fun k => remoteSlice k == slice)
  ((turned (s.tick * 2 ^ 60 + 2 ^ 58 + die * 64 + slice) keys).take (keys.length - (s.die die).rlways * wayLines)).foldl (fun s k => dropRemote s die k) s
def trimPartition (die : Nat) (s : State) : State :=
  if (s.die die).rlines.length ≤ (s.die die).rlways * wayLines then s else (List.range 32).foldl (trimSlice die) s
/-- The lines of a die's L2 slices leave, freely chosen, until the ways that the remote-line partition leaves hold the others; what is dirty
of them is written back, which `mem` holds already (R121, R125, log 5). -/
def trimL2 (die : Nat) (s : State) : State :=
  let room := (16 - (s.die die).rlways) * wayLines
  if (s.die die).l2.length ≤ room then s
  else (List.range 32).foldl (fun s slice =>
    let keys := (s.die die).l2.keys.filter (fun n => homeSlice (n * 256) == slice)
    ((turned (s.tick * 2 ^ 60 + 2 ^ 59 + die * 64 + slice) keys).take (keys.length - room)).foldl (fun s n => s.updDie die (fun d => { d with l2 := d.l2.erase n })) s) s
/-- What a step allocated beyond the room of a slice or of a remote-line partition displaces lines, dirty ones after their write-back
(R1, R121, R125, R126). -/
def trimCaches (s : State) : State :=
  s.dies.foldl (fun s d => trimL2 d.1 (trimPartition d.1 s)) s

/-! ## System registers at their instruction -/

/-- A scalar stream of the input that stands, not parked and with its operand there, at a SYSW of a register it may write. -/
def atSysw (n : Nat) (s : State) : Option (Nat × Nat × Group × BitVec 6) :=
  let c := s.input.core
  let sl := s.input.slot
  (s.group? c sl).bind (fun g => match standing s c sl with
    | some (.sysw a k) => if k.toNat = n ∧ (sysTrap n sl g.trapMode true).isNone ∧ g.park.isNone ∧ g.arrived.isNone ∧ (g.trapMode ∨ g.pendTrap.isEmpty) ∧ !(s.blockOf g).stopped ∧ !g.pendS.contains (g.sname a.toNat) then some (c, sl, g, a) else none
    | _ => none)
/-- R69: the seeds of a SYSW of SRSEED take effect, once: the word then completes without them. -/
def execSrseedWrite (s : State) : Out :=
  event (fun s => (atSysw 0x020 s).map (fun x =>
    (seedWrite s x.1 x.2.1 (x.2.2.1.field x.2.2.2)).updGroup x.1 x.2.1 (fun g => { g with arrived := some 1 }))) s
/-- R125: the resizing of a SYSW of RLWAYS takes effect. -/
def execRlwaysWrite (s : State) : Out := event (fun s => (atSysw 0x043 s).map (fun x => rlwaysWrite s (dieOf x.1) (x.2.2.1.field x.2.2.2))) s

end Sys2Proof.Machine
end

