-- ==== Sys2Proof/Machine/Engines.lean ====
section
/-! DEFINITION. The steps of the copy engines: COPY_START, COPY_UNIT_WRITE and COPY_COMPLETE (R107, R114, R164 to R168, R171 to R175,
R204, R205). -/

namespace Sys2Proof.Machine
open Bits

/-! ## Rows and units -/

/-- Where a key's range begins within 256 bytes (R105, R107): of a key of this module, its VBASE; of a peer's key, which the module has no
table for, a free multiple of 64 (log 51). -/
def keyPhase (s : State) (dev key : Nat) : Nat :=
  if dev = s.devnum.toNat then (((s.part? (key / 4096 % 16)).bind (fun p => p.keys.get? (key % 4096))).map (·.vbase)).getD 0 % 256
  else 64 * ((Config.freeWord ((dev * 2 ^ 32 + key) * 4 + 3)).toNat % 4)
/-- The bytes of the next unit (R166), or of the next segment of an RMPUT, which crosses no 256-byte boundary of the target address (R107,
R114). -/
def Copy.unit (x : Copy) (s : State) : Nat :=
  let left := x.rowb - x.off
  match x.kind with
  | 3 => min left 64
  | 6 => min left (256 - (keyPhase s x.dev x.key + x.dst.toNat + x.off) % 256)
  | _ => min left (64 - (x.to + x.off) % 64)
/-- The copy after a unit of n bytes. -/
def Copy.advance (x : Copy) (n : Nat) : Copy := if x.rowb ≤ x.off + n then { x with row := x.row + 1, off := 0 } else { x with off := x.off + n }
def copyOf (s : State) (c id : Nat) : Option Copy := (s.core c).copies.find? (fun x => x.id == id)
/-- The engine of a copy as an issuer of reads. -/
def copyIssuer (s : State) (c : Nat) (x : Copy) : Issuer := { c, sl := 49, k := x.id, scalar := false, pc := x.pc, p := copyParty s c x }

/-! ## Starting -/

/-- Whether an engine can take entries of the request table for a copy, and its place among those that wait for them (R137). -/
def roomFor (s : State) (c : Nat) (x : Copy) (n : Nat) : Bool := tableRoom s c (ceTable x.eng) (copyIssuer s c x).engMark n
def joinEngine (s : State) (c : Nat) (x : Copy) : State := joinQueue s c (ceTable x.eng) (copyIssuer s c x).engMark
def leaveEngine (s : State) (c : Nat) (x : Copy) : State := leaveQueue s c (ceTable x.eng) (copyIssuer s c x).engMark
/-- The sectors of a segment of n bytes at an offset within a key's range. -/
def sectorsOf (o n : Nat) : Nat := (o % 64 + n + 63) / 64
/-- The tile operation of a TRDS whose copy this is. -/
def tileOpOf (s : State) (c : Nat) (x : Copy) : Option TileOp :=
  ((s.nbhdOf ((s.group? c x.slot).getD default)).ops.find? (fun o => o.copy == some x.id))
/-- A TRDS once its read is served: its rows and bytes; or why it fails (R205). -/
def startTile (p : Party) (x : Copy) (o : TileOp) : Copy :=
  let pitch := if x.dst1 = 0 then rowBytes o.shape else x.dst1.toNat
  let x := { x with started := true, rowb := rowBytes o.shape, n1 := tileRows o.shape, dst1 := BitVec.ofNat 64 pitch, data := o.value }
  match rowsOutside p apGranule o.shape x.dst.toNat pitch with
  | some v => { x with fail := some (apertureTrap v) }
  | none => x
/-- Whether a copy that has not started holds up the ones behind it in its engine's queue; a parked read does not (R196). -/
def holdsUp (s : State) (c : Nat) (x : Copy) : Bool :=
  !x.started && (x.kind != 4 || ((tileOpOf s c x).map (fun o => decide (2 ≤ o.st))).getD true)
/-- R164: an engine begins the next copy of its queue. -/
def execCopyStart (s : State) : Out :=
  event (fun s =>
    let c := s.input.core
    (copyOf s c s.input.x).bind (fun x =>
      let before := ((s.core c).copies.takeWhile (fun y => y.id != x.id)).filter (fun y => y.eng == x.eng && holdsUp s c y)
      if x.started || !before.isEmpty then none
      else if x.kind = 4 then
        match tileOpOf s c x with
        | some o =>
          if o.st = 2 then some (updCopy s c x.id (fun y => startTile (copyParty s c x) y o))
          else if o.st = 3 then some (updCopy s c x.id (fun y => { y with started := true, fail := some o.trap }))
          else none
        | none => none
      else some (updCopy s c x.id (fun y => { y with started := true })))) s

/-! ## Units -/

/-- A fault of a copy offered to the fault service; the copy is held (R167). -/
def copyFault (s : State) (c : Nat) (x : Copy) (k : Access) (f : XFault) (va : Nat) : State :=
  let t := offer s (.scalar c x.slot) k f va 0
  let mark (r : Nat × FaultRec) : Nat × FaultRec := if r.1 = t.1 then (r.1, { r.2 with kind := 4, ref := x.id }) else r
  updCopy { t.2 with faults := t.2.faults.map mark } c x.id (fun y => { y with held := some t.1 })
/-- A copy that ends failed. -/
def copyFails (s : State) (c : Nat) (x : Copy) (t : TrapInfo) : State := updCopy s c x.id (fun y => { y with fail := some t })
/-- The places of n bytes of one side, checked with the 31 bytes that follow in the row (R88, R166). -/
def sidePlaces (s : State) (p : Party) (k : Access) (va n ahead : Nat) : Except (XFault × Nat) (List Hop) :=
  match route s p k va (n + ahead) with
  | .error e => .error e
  | .ok l => .ok (l.take n)
/-- An engine write (R124, R129, R157): the state, or the wait, or the failure of the copy. -/
inductive Wrote where
  | ok (s : State)
  | wait (s : State)
  | fail (s : State) (t : TrapInfo)
  deriving Repr, Inhabited
/-- A posted store of an engine to a peer, which names the address of its first byte. -/
def postCopy (c : Nat) (x : Copy) (hops : List Hop) (s : State) (y : Nat × List (Nat × Byte)) : State :=
  match y.2 with
  | [] => s
  | (a, _) :: _ =>
    let (id, s) := s.newId
    let va := ((hops.find? (fun h => h.spot == .peer y.1 a)).map (·.va)).getD 0
    let s := updCopy s c x.id (fun z => { z with waiting := z.waiting + 1 })
    { s with requests := s.requests ++ [{ id, kind := 2, dev := y.1, core := c, slot := 49, addr := a, bytes := y.2, since := s.clock, copy := x.id + 1,
                                          lane := x.eng, fail := { cause := 0, addr := BitVec.ofNat 64 va } }] }
def engineWrite (s : State) (c : Nat) (x : Copy) (hops : List Hop) (bs : List Byte) : Wrote :=
  let p := copyParty s c x
  match snapFault s p.nb.ctx hops with
  | some sub => .fail s { cause := 0x3B, info := BitVec.ofNat 64 sub, addr := BitVec.ofNat 64 (snapAt s p.nb.ctx hops) }
  | none =>
    let l := hops.zip bs
    let mine := lineCells l
    let far := byPeer (peerCells l)
    let s := far.foldl (fun s y => dropPeerLine s c y.1 (farAddr y)) s
    if (far.findSome? (fun y => remoteBlock s c 49 y.1 (farAddr y))).isSome then .wait s
    else if !roomFor s c x far.length then .wait (joinEngine s c x)
    else
      let r := dropLines c (lines64 mine) (leaveEngine s c x)
      if !r.1 then .wait r.2
      else match homeAll (· == .copy c x.id) { agent := 3, core := c, slot := x.slot, pc := x.pc.toNat, block := some p.bkey } (byLine mine) r.2 with
        | .noRoom k s => .wait (exhaust s k)
        | .waits k s => .wait (joinPlace k (.copy c x.id) 0 s)
        | .poolPage s => .fail s { cause := 0x3B, info := 8, addr := BitVec.ofNat 64 (snapAt s p.nb.ctx hops) }
        | .done s =>
          let s := leavePlaces s (.copy c x.id)
          let s := toHost (addLines s c x.slot (lines64 mine)) (c * 48 + x.slot) mine
          let s := writeSpad s p.nb.ctx true (spadCells l)
          let s := { s with chip := Memory.write s.chip (chipCells l) }
          .ok (far.foldl (postCopy c x hops) s)
/-- The bytes of a unit's source, or why they are not there. -/
inductive UnitGot where
  | bytes (s : State) (bs : List Byte)
  | wait (s : State)
  | fault (s : State)
  | fail (s : State) (t : TrapInfo)
  deriving Repr, Inhabited
/-- Bytes of memory as an engine reads them at their homes (R165). -/
def engineRead (s : State) (c : Nat) (x : Copy) (va n ahead : Nat) : UnitGot :=
  let i := copyIssuer s c x
  match sidePlaces s i.p .read va n ahead with
  | .error (f, a) => .fault (copyFault s c x .read f a)
  | .ok hops =>
    match readyAll i { owner := ceTable x.eng, me := .copy c x.id } hops (keepLeaves s i.p hops) with
    | .wait s _ w => .wait (waitAt (.copy c x.id) w s)
    | .fail s t => .fail s { t with addr := if t.addr = 0 then BitVec.ofNat 64 va else t.addr }
    | .ok s => .bytes (leavePlaces (dropHeld s i hops) (.copy c x.id)) (hops.map (homeByte s i))
/-- The look-ahead of a unit of n bytes (R166). -/
def Copy.ahead (x : Copy) (n : Nat) : Nat := min 31 (x.rowb - x.off - n)
/-- The length of the next segment of an RMGET: it begins behind the bytes that have come, and crosses no 256-byte boundary of the target
address (R107, R114). -/
def Copy.segLen (x : Copy) (s : State) : Nat :=
  let o := x.off + x.data.length
  min (x.rowb - o) (256 - (keyPhase s x.dev x.key + x.src.toNat + o) % 256)
/-- The bytes of a unit of an RMGET: those of the segments that have come and are not yet written, or the request for the next segment
(R114). -/
def getSegment (s : State) (c : Nat) (x : Copy) (n : Nat) : UnitGot :=
  if n ≤ x.data.length then .bytes s (x.data.take n)
  else match s.requests.find? (fun r => r.kind == 4 && r.core == c && r.slot == 49 && r.split == x.id) with
  | none =>
    let at' := x.src.toNat + x.off + x.data.length
    if !roomFor s c x (sectorsOf at' (x.segLen s)) then .wait (joinEngine s c x)
    else
    let (id, s) := (leaveEngine s c x).newId
    .wait { s with requests := s.requests ++ [{ id, kind := 4, dev := x.dev, core := c, slot := 49, addr := at', key := x.key, since := s.clock, split := x.id,
                                                op := x.segLen s, lane := x.eng, fail := { cause := 0, addr := x.dst } }] }
  | some r =>
    let t := { s with requests := s.requests.filter (fun q => q.id != r.id) }
    if r.st = 0 then .wait s else if r.st = 2 then .fail t r.fail
    else .wait (updCopy t c x.id (fun y => { y with data := y.data ++ r.data.take r.op }))
/-- The source bytes of a unit. -/
def unitBytes (s : State) (c : Nat) (x : Copy) (n : Nat) : UnitGot :=
  match x.kind with
  | 4 => .bytes s ((x.data.drop (x.row * x.rowb + x.off)).take n)
  | 7 => getSegment s c x n
  | _ => engineRead s c x ((x.from' + x.off) % 2 ^ 64) n (x.ahead n)
/-- A segment of an RMPUT leaves the device, numbered in its channel (R107, R114). -/
def putSegment (s : State) (c : Nat) (x : Copy) (bs : List Byte) : State :=
  let k := chanKey x.dev x.key
  let ch := s.chans.getD k {}
  let ch := if ch.openNow then ch else { ch with openNow := true, inc := (ch.inc + 1) % 256, seqNo := 0 }
  let (id, s) := s.newId
  let r : Request := { id, kind := 3, dev := x.dev, core := c, slot := x.slot, addr := x.dst.toNat + x.off, key := x.key, seqNo := ch.seqNo, inc := ch.inc,
                       bytes := cellsAt 0 bs, since := s.clock, writers := [c * 48 + x.slot], copy := x.id + 1, lane := x.eng,
                       fail := { cause := 0, addr := x.src } }
  { s with chans := s.chans.set k { ch with seqNo := (ch.seqNo + 1) % 2 ^ 32 }, requests := s.requests ++ [r] }
/-- The source row of a gather, read from its index (R171); the row is checked when it is reached. -/
def gatherRow (s : State) (c : Nat) (x : Copy) : UnitGot :=
  engineRead s c x ((x.index.toNat + x.iwid * x.row) % 2 ^ 64) x.iwid 0
/-- One unit moved. -/
def moveUnit (s : State) (c : Nat) (x : Copy) : State :=
  let n := x.unit s
  let p := copyParty s c x
  let places : Except (XFault × Nat) (List Hop) := if x.writes then sidePlaces s p .write ((x.to + x.off) % 2 ^ 64) n (x.ahead n) else .ok []
  match unitBytes s c x n with
  | .wait s => s
  | .fault s => s
  | .fail s t => copyFails s c x t
  | .bytes s' bs =>
    match places with
    | .error (f, a) => copyFault s c x .write f a
    | .ok hops =>
      match x.kind with
      | 3 => updCopy s' c x.id (fun y => { y.advance n with data := y.data ++ bs })
      | 6 => if !roomFor s' c x (sectorsOf (x.dst.toNat + x.off) n) then joinEngine s' c x
        else updCopy (putSegment (leaveEngine s' c x) c x bs) c x.id (fun y => y.advance n)
      | _ => match engineWrite (keepLeaves s' p hops) c x hops bs with
        | .ok s => updCopy s c x.id (fun y => if x.kind = 7 then { y.advance n with data := y.data.drop n } else y.advance n)
        | .wait s => s
        | .fail s t => copyFails s c x t
/-- R166: an engine moves one checked unit; of a gather it first reads the row's index. -/
def execCopyUnitWrite (s : State) : Out :=
  event (fun s =>
    let c := s.input.core
    (copyOf s c s.input.x).bind (fun x =>
      if !x.started || x.held.isSome || x.fail.isSome || x.moved then none
      else if x.kind = 2 ∧ x.off = 0 then
        match gatherRow s c x with
        | .wait s | .fault s => some s
        | .fail s t => some (copyFails s c x t)
        | .bytes s bs =>
          let row := ofInt 64 ((x.src.toNat : Int) + toInt (8 * x.iwid) (ofBytes bs) * x.iscale)
          match (copyParty s c x).outside apScalar row x.rowb with
          | some _ => some (copyFails s c x (apertureTrap row))
          | none =>
            let y := { x with sst1 := BitVec.ofNat 64 row }
            some (moveUnit (updCopy s c x.id (fun z => { z with sst1 := y.sst1 })) c y)
      else some (moveUnit s c x))) s

/-! ## The end of a copy -/

/-- Whether segments of an RMPUT have not left the device (R114). -/
def unsent (s : State) (x : Copy) : Bool := s.requests.any (fun r => r.kind == 3 && r.copy == x.id + 1 && !r.left)
/-- R174, R175: a copy whose rows are moved and whose peer stores are placed, or one that has failed, leaves its engine. -/
def execCopyComplete (s : State) : Out :=
  event (fun s =>
    let c := s.input.core
    (copyOf s c s.input.x).bind (fun x =>
      if !x.started || x.waiting != 0 || unsent s x || !(x.moved || x.fail.isSome) then none
      else
        let nb := (s.blockOf ((s.group? c x.slot).getD default)).nb
        let s := match (if x.kind = 4 then tileOpOf s c x else none) with
          | some o => dropTileOp s nb o.id
          | none => s
        let s := { s with requests := s.requests.filter (fun r => !(r.core == c && r.slot == 49 && r.split == x.id && (r.strong || r.kind == 4))) }
        let s := s.updCore c (fun k => { k with copies := k.copies.filter (fun y => y.id != x.id) })
        some (s.updGroup c x.slot (fun g => g.copyEnds x.batch x.fail)))) s

end Sys2Proof.Machine
end

