-- ==== Sys2Proof/Machine/TileHome.lean ====
section
/-! DEFINITION. The events of a tile file: acceptance at a home, definitions placed or failed, reads complete, kills, moves and the
deadlock trap (R190 to R202). -/

namespace Sys2Proof.Machine
open Bits

/-! ## Acceptance -/

/-- The neighbourhood and the operation that an event names. -/
def opOf (s : State) (nb id : Nat) : Option (Nbhd × TileOp) :=
  (s.nbhd? nb).bind (fun n => (n.ops.find? (fun o => o.id == id)).map (fun o => (n, o)))
/-- R190, R191: an operation reaches its home and is judged; those of one party on one name arrive in program order. What the home has taken
stands behind what is under way, in the order of its arrival: the home order. -/
def execTileOpAccept (s : State) : Out :=
  event (fun s => (opOf s s.input.idx s.input.x).bind (fun x =>
    let earlier (o : TileOp) : Bool := o.strm == x.2.strm && o.word % 4096 == x.2.word % 4096 && o.st == 0
    if x.2.st ≠ 0 ∨ (x.1.ops.takeWhile (fun o => o.id != x.2.id)).any earlier then none
    else
      let r := judge s x.1 x.2
      some (judged (s.updNbhd s.input.idx (fun n => { r.1 with ops := n.ops.filter (fun o => o.id != x.2.id) ++ [r.2] })) s.input.idx))) s

/-! ## Definitions -/

/-- The copy of a TDEF that moves a name's bytes, with its core. -/
def defCopy (s : State) (nb name : Nat) : Option (Nat × Copy) :=
  s.cores.findSome? (fun c => (c.2.copies.find? (fun x => x.kind == 3 && x.tile % 4096 == name && x.waiting != 0 && (s.blockOf ((s.group? c.1 x.slot).getD default)).nb == nb)).map (fun x => (c.1, x)))
/-- The bytes of the tiles in the tile buffer of a core, and in the reserve of a core of a neighbourhood. -/
def buffered (s : State) (core : Nat) : Nat :=
  s.nbhds.foldl (fun k n => n.2.tiles.foldl (fun k t => if t.2.st = 2 ∧ t.2.place = 1 ∧ t.2.core = core then k + tileSize t.2.word else k) k) 0
def reserved (n : Nbhd) (core : Nat) : Nat :=
  n.tiles.foldl (fun k t => if t.2.st = 2 ∧ t.2.place = 2 ∧ t.2.core = core then k + tileSize t.2.word else k) 0
/-- The place of an accepted definition (R200). -/
def placeFor (s : State) (n : Nbhd) (t : TileName) : Nat :=
  if buffered s t.core + tileSize t.word ≤ 65536 then 1
  else if reserved n t.core + tileSize t.word ≤ n.stage.reserve then 2 else 3
/-- R194: every byte of a definition is placed; the name is DEFINED and its parked reads are served. -/
def execTileDefined (s : State) : Out :=
  event (fun s =>
    let nb := s.input.idx
    let name := s.input.x % 4096
    (s.nbhd? nb).bind (fun n =>
      let t := n.tiles.getD name {}
      let place := placeFor s n t
      if t.st ≠ 1 then none
      else if !t.value.isEmpty then some (changeName s nb name (fun t => { t with st := 2, place }))
      else (defCopy s nb name).bind (fun x =>
        if x.2.moved && x.2.fail.isNone then
          some (updCopy (changeName s nb name (fun t => { t with st := 2, value := x.2.data, place })) x.1 x.2.id (fun y => { y with waiting := 0 }))
        else none))) s
/-- R195: the transfer of a definition has failed; the name is EMPTY again. -/
def execTileDefineFail (s : State) : Out :=
  event (fun s =>
    let nb := s.input.idx
    let name := s.input.x % 4096
    (s.nbhd? nb).bind (fun n =>
      if (n.tiles.getD name {}).st ≠ 1 then none
      else (defCopy s nb name).bind (fun x =>
        if x.2.fail.isSome then some (updCopy (changeName s nb name (fun t => { t with st := 0, word := 0 })) x.1 x.2.id (fun y => { y with waiting := 0 })) else none))) s

/-! ## Reads, kills and moves -/

/-- R197, R209: the data of a lane read reaches its registers. -/
def execTileReadComplete (s : State) : Out :=
  event (fun s => (opOf s s.input.idx s.input.x).bind (fun x => match x.2.st, x.2.strm with
    | 4, .split c sl _ => some ((dropTileOp s s.input.idx x.2.id).updGroup c sl (fun g => x.2.data.foldl Group.produce g))
    | _, _ => none)) s
/-- R198: a queued kill takes effect. -/
def execTileKillEffect (s : State) : Out :=
  event (fun s =>
    let name := s.input.x % 4096
    (s.nbhd? s.input.idx).bind (fun n => if killDue n name (n.tiles.getD name {}) then some (killName s s.input.idx name) else none)) s
/-- R200: a DEFINED value moves; its value does not change. -/
def execTilePlacementMove (s : State) : Out :=
  event (fun s =>
    let name := s.input.x % 4096
    (s.nbhd? s.input.idx).bind (fun n =>
      let t := n.tiles.getD name {}
      let t' := { t with place := s.input.op, core := s.input.core }
      let others := { n with tiles := n.tiles.set name { t with place := 0 } }
      let room : Bool := match s.input.op with
        | 1 => decide (buffered { s with nbhds := s.nbhds.set s.input.idx others } s.input.core + tileSize t.word ≤ 65536)
        | 2 => decide (reserved others s.input.core + tileSize t.word ≤ n.stage.reserve) && (nbBlocks s s.input.idx).any (fun b => b / 8 == s.input.core)
        | 3 | 4 => true
        | _ => false
      if t.st = 2 ∧ room then some (s.updNbhd s.input.idx (fun n => { n with tiles := n.tiles.set name t' })) else none)) s

/-! ## Deadlock -/

/-- An operation that is parked at its home and holds its issuer: an accepted TRDS lets its stream go on (R196, R205). -/
def TileOp.holds (o : TileOp) : Bool := o.st == 1 && o.copy.isNone && !(o.kind == 0 && o.tag / 2 == 1)
/-- Whether a stream is parked on an operation of its own tile file that is parked at its home (R201); `tm` tells a handler's streams from
those that it interrupted. -/
def onTile (n : Nbhd) (nb : Nat) (tm : Bool) (st : StreamId) : Option Park → Bool
  | some ⟨_, .tile k nm⟩ => k == nb && n.ops.any (fun o => o.strm == st && o.holds && (o.tag % 2 == 1) == tm && o.word % 4096 == nm)
  | _ => false
/-- Whether an operation of a sequencer is the one that it waits for: a direct map's, or that of the stream whose elements its oldest word
in flight lacks. -/
def seqAwaits (q : Seq) (o : TileOp) : Bool :=
  if o.tag < 8 then (match q.park with
    | some ⟨_, .tile _ nm⟩ => o.word % 4096 == nm
    | _ => false)
  else (q.flights.head?.map (fun f => o.tag == 8 + (if f.bs.length < f.k * f.colList.length then f.word.sb.toNat + 4 else f.word.sa.toNat))).getD false
/-- Whether a sequencer waits for an operation that is parked on a tile of its own file. -/
def seqOnTile (n : Nbhd) (b : Nat) (q : Seq) : Bool := n.ops.any (fun o => o.strm == .seq (b / 8) (b % 8) && o.holds && seqAwaits q o)
/-- Whether every party of a neighbourhood is parked on its tile file, with no definition and no kill under way (R201). -/
def tileStuck (s : State) (nb : Nat) (n : Nbhd) : Bool :=
  (nbGroups s nb).all (fun k => match s.groups.get? k with
    | none => true
    | some g =>
      let splits (tm : Bool) (b : Option LaneBlock) : Bool := ((b.map LaneBlock.valids).getD []).all (fun x => onTile n nb tm (.split (k / 48) (k % 48) x.1) x.2.park)
      onTile n nb g.trapMode (.scalar (k / 48) (k % 48)) g.park && splits false g.lb && splits true g.tlb) &&
  (nbBlocks s nb).all (fun b => match (s.block? b).bind (·.seq) with
    | none => true
    | some q => q.exited || (!q.stopped && seqOnTile n b q)) &&
  n.tiles.all (fun t => t.2.st != 1 && !(t.2.st == 2 && t.2.kill))
/-- The interval of TILE_DEADLOCK after some clocks; it does not run while a block is stopped (R392). -/
def countStuck (d : Nat) (s : State) (x : Nat × Nbhd) : State :=
  if nbStopped s x.1 then s
  else
  let k := if tileStuck s x.1 x.2 then min (x.2.stuckFor + d) 16384 else 0
  if k = x.2.stuckFor then s else s.updNbhd x.1 (fun n => { n with stuckFor := k })
def stuckClocks (s : State) (d : Nat) : State := s.nbhds.foldl (countStuck d) s
/-- TILE_DEADLOCK with the tile word awaited. -/
def deadlockTrap (w : Nat) : TrapInfo := { cause := 0x32, info := BitVec.ofNat 64 (w % 65536) }
/-- Whether a party of the neighbourhood is parked on an operation: a sequencer is on the one that it waits for. -/
def partyAwaits (s : State) (nb : Nat) (o : TileOp) : Bool :=
  o.holds && o.peer.isNone && ofNb (nbGroups s nb) (nbBlocks s nb) o.strm && (match o.strm with
    | .seq c b => (((s.block? (c * 8 + b)).bind (·.seq)).map (fun q => seqAwaits q o)).getD false
    | _ => true)
/-- R201: every parked party of the neighbourhood takes the trap at its instruction, one that a handler interrupted after RFT (R367); reads
of others stay parked. -/
def execTileDeadlock (s : State) : Out :=
  event (fun s => (s.nbhd? s.input.idx).bind (fun n =>
    let f (o : TileOp) : TileOp := if partyAwaits s s.input.idx o then { o with st := 3, counted := false, trap := deadlockTrap o.word } else o
    if 16384 ≤ n.stuckFor ∧ tileStuck s s.input.idx n ∧ !nbStopped s s.input.idx then
      some (judged (s.updNbhd s.input.idx (fun n => { n with ops := n.ops.map f, stuckFor := 0 })) s.input.idx) else none)) s

end Sys2Proof.Machine
end

