-- ==== Sys2Proof/Machine/Links.lean ====
section
/-! DEFINITION. Ports and links: minimal routes, the choice of a route at the source, virtual channels, and the packets that stand at
an egress port or in an input buffer (R93 to R98, R100, R101). LLk is port k, GPk port 32 + k. -/

namespace Sys2Proof.Machine
open Bits

/-! ## Ports -/

def gpPort (s : State) (pod : Nat) : Nat := 32 + ((pod + 257 - s.devnum.toNat / 32) % 257 - 1)
/-- The first hops of the minimal routes to a device (R93): the global port first. -/
def minimalPorts (s : State) (dev : Nat) : List Nat :=
  let slot := s.devnum.toNat % 32
  let ll := if dev % 32 = slot then [] else [(dev % 32 + 32 - slot) % 32 - 1]
  if dev / 32 = s.devnum.toNat / 32 then ll else gpPort s (dev / 32) :: ll
/-- The port of the link that joins this module to a device (Table 5-1). -/
def hopPort (s : State) (dev : Nat) : Option Nat :=
  let slot := s.devnum.toNat % 32
  if dev / 32 = s.devnum.toNat / 32 then (if dev % 32 = slot then none else some ((dev % 32 + 32 - slot) % 32 - 1))
  else if dev % 32 = slot then some (gpPort s (dev / 32)) else none
/-- The next hop of a packet that passes through: GP to the destination's pod, and in that pod LL to its slot (R98). -/
def transitPort (s : State) (dev : Nat) : Nat :=
  if dev / 32 = s.devnum.toNat / 32 then (dev % 32 + 32 - s.devnum.toNat % 32) % 32 - 1 else gpPort s (dev / 32)
def linkUp (s : State) (port : Nat) : Bool := ((s.links.get? port).map (·.up)).getD false
/-- The flits that wait at a port on a virtual channel. -/
def occupancy (s : State) (port vc : Nat) : Nat :=
  match s.links.get? port with
  | none => 0
  | some l => (l.queue.filter (fun p => p.vc == vc)).foldl (fun n p => n + p.flits) 0
/-- The port of least occupancy, the first among equals. -/
def leastPort (s : State) (vc : Nat) (l : List Nat) : Option Nat :=
  l.foldl (fun r p => match r with
    | none => some p
    | some q => if occupancy s p vc < occupancy s q vc then some p else r) none
/-- First hops of detours, by intermediate pod (R98). -/
def detourPorts (s : State) (dev vc : Nat) : List Nat :=
  let p := s.devnum.toNat / 32
  if p = dev / 32 ∨ 9 ≤ vc then []
  else (((List.range 257).filter (fun r => r != p && r != dev / 32)).map (gpPort s)).filter (linkUp s)
/-- The port that the source chooses for a packet (R98). -/
def choosePort (s : State) (dev vc : Nat) : Option Nat :=
  match leastPort s vc ((minimalPorts s dev).filter (linkUp s)) with
  | none => none
  | some m =>
    match leastPort s vc (detourPorts s dev vc) with
    | none => some m
    | some d => if occupancy s d vc * 3 < occupancy s m vc ∧ 256 ≤ occupancy s m vc then some d else some m

/-- The device below another in the escape tree on the way to a device, where that device is below it (R100). -/
def childToward (tree : NMap Nat) (top : Nat) : Nat → Nat → Option Nat
  | 0, _ => none
  | n + 1, d => match tree.get? d with
    | none => none
    | some p => if p = top then some d else childToward tree top n p
/-- The next hop on ESC: down the tree where the destination is below this module, else up (R100). -/
def escapePort (s : State) (dev : Nat) : Option Nat :=
  let own := s.devnum.toNat
  (((childToward s.mgmt.tree own s.mgmt.tree.length dev).or (s.mgmt.tree.get? own)).bind (hopPort s)).filter (linkUp s)

/-- The escape tree as the firmware gives it: each device but the root with its parent, as child × 2^14 + parent (R100). -/
def treeOf (l : List Nat) : NMap Nat := l.foldl (fun m x => m.set (x / 16384 % 16384) (x % 16384)) []

/-! ## Packets -/

/-- A packet joins a port; a channel that was empty starts its timer (R101). -/
def pushPacket (s : State) (port : Nat) (p : Packet) : State :=
  let l := s.links.getD port {}
  { s with links := s.links.set port { l with
    queue := l.queue ++ [p], since := if l.queue.any (fun q => q.vc == p.vc) then l.since else l.since.set p.vc s.clock } }
/-- The virtual channel of a request (R95, Table 5-2): three channels a class, REQ first. The lines that an operand fetcher reads are bulk.
DESIGN CHOICE: the close of a key's channel goes with the key operations, on TC2 (log 39). -/
def channelOf (r : Request) : Nat :=
  match r.kind with
  | 3 | 4 | 8 => 0
  | 7 => 6
  | 0 => if 64 ≤ r.slot ∧ r.slot < 72 then 0 else 3
  | _ => 3
/-- The channel of the response to a request that came on a channel, and of what a home sends onward for it (R95). A request that came on
ESC is answered on TC1. -/
def rspOf (vc : Nat) : Nat := if vc < 12 then vc / 3 * 3 + 2 else 5
def fwdOf (vc : Nat) : Nat := if vc < 12 then vc / 3 * 3 + 1 else 4
/-- A header flit, and the payload flits of 64 bytes of some bytes (R94). -/
def flitsOf (n : Nat) : Nat := 1 + (n + 63) / 64
def packetOf (r : Request) : Packet := { vc := channelOf r, flits := flitsOf r.bytes.length, dev := r.dev, ref := r.id, kind := r.kind }
/-- The packets of an answer: one, or one for each 256 bytes of a tile (R94). -/
def answerPackets (a : Answer) : List Packet :=
  (List.range (max 1 ((a.data.length + 255) / 256))).map (fun j =>
    { vc := a.vc, flits := flitsOf (min 256 (a.data.length - 256 * j)), dev := a.dev, ref := a.tag, kind := 10 })
/-- Where a packet goes next, with its channel: along the tree on ESC, on its route where it passes through, else as this source chooses;
and onto ESC where that link is down (R98, R100). DESIGN CHOICE for the packets of a link that has gone down (log 50). -/
def routeOf (s : State) (p : Packet) : Option (Nat × Nat) :=
  let esc := (escapePort s p.dev).map (fun k => (k, 12))
  if p.vc = 12 then esc
  else if p.kind = 9 then (if linkUp s (transitPort s p.dev) then some (transitPort s p.dev, p.vc) else esc)
  else match choosePort s p.dev p.vc with
    | some k => some (k, p.vc)
    | none => esc
/-- A packet that passes through takes its next hop; with no port to take it, it waits at the link of its route (R97). -/
def passOn (s : State) (p : Packet) : State :=
  match routeOf s p with
  | some (k, vc) => pushPacket s k { p with vc }
  | none => pushPacket s (transitPort s p.dev) p
/-- A change of one request. -/
def updRequest (s : State) (id : Nat) (f : Request → Request) : State :=
  let one (r : Request) : Request := if r.id = id then f r else r
  { s with requests := s.requests.map one }
def dropRequest (s : State) (id : Nat) : State := { s with requests := s.requests.filter (fun r => r.id != id) }
/-- A request takes its place at the port that its source chooses; one to this module itself crosses no link. -/
def routeRequest (s : State) (r : Request) : State :=
  if r.dev = s.devnum.toNat then updRequest s r.id (fun r => { r with routed := true, left := true })
  else match routeOf s (packetOf r) with
    | some (k, vc) => updRequest (pushPacket s k { packetOf r with vc }) r.id (fun r => { r with routed := true })
    | none => s
/-- An answer to a peer takes its place. -/
def routeAnswer (r : State × List Answer) (a : Answer) : State × List Answer :=
  let ps := answerPackets a
  if a.routed || decide (3 ≤ a.kind) || a.dev == r.1.devnum.toNat || (ps.head?.bind (routeOf r.1)).isNone then (r.1, r.2 ++ [a])
  else (ps.foldl (fun s p => match routeOf s p with
    | some (k, vc) => pushPacket s k { p with vc }
    | none => s) r.1, r.2 ++ [{ a with routed := true }])
/-- Whether a packet on ESC stands at a port that is not its way along the tree, which it may not take (R100). -/
def offTree (s : State) (port : Nat) (p : Packet) : Bool := p.vc == 12 && escapePort s p.dev != some port
/-- Whether a packet leaves the port where it stands: the link is down and another takes it, or it is on ESC and the tree leads elsewhere. -/
def stranded (s : State) (port : Nat) (up : Bool) (p : Packet) : Bool := (!up || offTree s port p) && (routeOf s p).isSome
/-- The packets that may not leave over the link of their port take another route, where there is one (R97, R100, Table 5-5). -/
def moveStranded (s : State) (x : Nat × Link) : State :=
  let goes := x.2.queue.filter (stranded s x.1 x.2.up)
  if goes.isEmpty then s
  else goes.foldl passOn { s with links := s.links.set x.1 { x.2 with queue := x.2.queue.filter (fun p => !stranded s x.1 x.2.up p) } }
/-- Requests and answers that stand at no port take their places, and so do the packets of links that are down. -/
def routeAll (s : State) : State :=
  let s := (s.requests.filter (fun r => !r.routed && r.st == 0)).foldl routeRequest s
  let r := s.answers.foldl routeAnswer (s, [])
  r.1.links.foldl moveStranded { r.1 with answers := r.2 }
/-- A request sent again. -/
def resend (s : State) (id : Nat) : State := updRequest s id (fun r => { r with routed := false, left := false, since := s.clock })

/-! ## Input buffers -/

/-- The input buffer of a port and the part reserved for each channel (Table 5-3). -/
def bufferFlits (port : Nat) : Nat := if port < 32 then 4096 else 16384
def reserveFlits (port : Nat) : Nat := if port < 32 then 16 else 32
/-- The watermarks of a channel (Table 5-3). DESIGN CHOICE: the thirteenth of the shared part is rounded down (log 39). -/
def highMark (port : Nat) : Nat := reserveFlits port + (bufferFlits port - 13 * reserveFlits port) / 13
def lowMark (port : Nat) : Nat := highMark port / 2
/-- What a receiver signals after a change of its buffer: XOFF at the high watermark, XON at the low one, and XOFF for every channel but ESC
where the free space has fallen to the headroom (R96). -/
def Link.signalled (port : Nat) (l : Link) : Link :=
  let short := decide (bufferFlits port - l.inbuf.foldl (fun n x => n + x.2) 0 ≤ l.headroom)
  let one (m v : Nat) : Nat :=
    let n := l.inbuf.getD v 0
    setBit m v (decide (highMark port ≤ n) || (short && v != 12) || (bit l.sentXoff v && decide (lowMark port < n)))
  { l with sentXoff := (List.range 13).foldl one 0 }
/-- Flits that enter the input buffer of a port, and flits that leave it. -/
def Link.hold (port vc n : Nat) (l : Link) : Link := Link.signalled port { l with inbuf := l.inbuf.set vc (l.inbuf.getD vc 0 + n) }
def Link.release (port vc n : Nat) (l : Link) : Link := Link.signalled port { l with inbuf := l.inbuf.set vc (l.inbuf.getD vc 0 - n) }

/-! ## Departure -/

/-- Channels whose head may start at a port: those that hold a packet and are not XOFF (R96). -/
def readyChannels (l : Link) : List Nat := (List.range 13).filter (fun v => l.queue.any (fun p => p.vc == v) && !bit l.xoff v)
/-- The channel that wins: ESC, then TC3; of the rest their shares leave open which (R95, R385). DESIGN CHOICE: of TC3's own channels REQ goes
before FWD, and FWD before RSP (log 39). -/
def winner (key : Nat) (l : Link) : Option Nat :=
  let r := readyChannels l
  if r.contains 12 then some 12
  else match r.find? (fun v => decide (9 ≤ v)) with
    | some v => some v
    | none => (r.find? (fun v => Config.choice ((key * 16 + v) * 8 + 3))).or r.head?
/-- The first packet of a channel, and the others. -/
def takePacket (vc : Nat) : List Packet → Option (Packet × List Packet)
  | [] => none
  | p :: l => if p.vc = vc then some (p, l) else (takePacket vc l).map (fun x => (x.1, p :: x.2))
/-- An egress port starts the packet that wins: it leaves the device. No packet on ESC leaves over a link off the tree (R100). -/
def egress (s : State) (port : Nat) : State :=
  match s.links.get? port with
  | none => s
  | some l =>
    if !l.up then s
    else
      let here := l.queue.filter (fun p => !offTree s port p)
      match (winner s.tick { l with queue := here }).bind (fun v => takePacket v here) with
      | none => s
      | some (p, _) =>
        let s := { s with links := s.links.set port { l with queue := l.queue.erase p, since := l.since.set p.vc s.clock } }
        let s := match p.inp with
          | some (k, vc) => { s with links := s.links.modify (Link.release k vc p.flits) k }
          | none => s
        if 9 ≤ p.kind then s else updRequest s p.ref (fun r => { r with left := true })

end Sys2Proof.Machine
end

