-- ==== Sys2Proof/Machine/GraphEvents.lean ====
section
/-! DEFINITION. Events of queues and of the summary network: runs and records that arrive, refills, forwarding and summaries (R102,
R344, R347, R348, R350, R357, R358). -/

namespace Sys2Proof.Machine
open Bits

/-! ## Records at their home -/

/-- Whether no earlier run waits for the same queue: runs are admitted in arrival order (R347). -/
def firstRun (s : State) (x : Run) : Bool :=
  (s.runs.takeWhile (fun y => y.id != x.id)).all (fun y => y.done || y.part != x.part || y.queue != x.queue)
/-- A run that has been admitted: its split may go on, or the FEED command that sent it counts it (R346, R362). -/
def runAdmitted (s : State) (x : Run) : State :=
  match x.cmd with
  | none => { s with runs := s.runs.map (fun y => if y.id = x.id then { y with done := true } else y) }
  | some k =>
    let count (c : Cmd) : Cmd := if c.id = k then { c with left := c.left - 1 } else c
    { s with runs := s.runs.filter (fun y => y.id != x.id), cmds := s.cmds.map count }
/-- R347. -/
def execRunAppend (s : State) : Out :=
  event (fun s => (s.runs.find? (fun x => x.id == s.input.x && !x.done)).bind (fun x =>
    if firstRun s x then (admitRun s x).map (fun s => runAdmitted s x) else none)) s
/-- A record counted for the termination detector of its queue's graph (R358). -/
def countRecord (s : State) (part q : Nat) (f : Graph → Graph) : State :=
  match queueOf s part q with
  | none => s
  | some x => { s with graphs := s.graphs.modify f x.graph }
/-- R344, R348, R349: a forwarded record is appended, with the deposit of a run with `.rel` on the header's line, and acknowledged, or
answered RETRY where there is no room. -/
def execRemoteRecordArrival (s : State) : Out :=
  event (fun s =>
    let r := s.input.rcd
    (queueOf s r.part r.queue).bind (fun q =>
      if !q.here s then none
      else match appendRun s q.hdr [pack 512 r.data] true [{ agent := 4, dev := some r.srcDev }] with
        | some s =>
          let s := match r.rel with
            | some v => deposit s q.hdr v
            | none => s
          some (answer (countRecord s r.part r.queue (fun g => { g with recvd := g.recvd + 1 })) r.srcDev 0 s.input.x 0 [])
        | none => some (answer s r.srcDev 2 s.input.x 0 []))) s
/-- Whether the first dequeue that waits at a queue needs records that are still in the spill (R350, R352). -/
def dequeueStarved (s : State) (p : Part) (q : Queue) : Bool :=
  match (q.deq.head?).bind (fun c => (p.reserved.get? c).bind (fun sid => p.stages.get? sid)) with
  | none => false
  | some t => decide ((qhdr s q.hdr).rtail - (qhdr s q.hdr).head < wanted s q.hdr t)
/-- R350: record RTAIL moves from the spill to the ring; QFLAGS bit 2 says that the refill goes on. -/
def execRefillMove (s : State) : Out :=
  event (fun s => (s.part? s.input.part).bind (fun p => (p.queues.get? s.input.x).bind (fun q =>
    let h := qhdr s q.hdr
    let ring := h.rtail - h.head
    if !(q.here s) || decide (h.tail ≤ h.rtail) || decide (2 ^ h.log2 ≤ ring) then none
    else if bit h.flags 2 || decide (ring < 2 ^ (h.log2 - 1)) || dequeueStarved s p q then
      let at' := h.spillAt h.rtail
      let s := putRecord unitWho s (h.ringAt h.rtail) (pack 512 (Memory.read s.mem at'.1 64)) (Memory.le s.mem at'.2 8)
      let more := decide (h.rtail + 1 < h.tail) && decide (ring + 1 < 2 ^ h.log2)
      some ((putHdr unitWho s q.hdr { h with rtail := h.rtail + 1 }).putBy unitWho [(q.hdr + 45, BitVec.ofNat 8 (setBit h.flags 2 more))])
    else none))) s

/-! ## Forwarding -/

/-- The differential of an outbound queue at a port (R102). -/
def forwardValue (l : Link) (key : Nat) (o : Outbound) : Int := o.weight * ((o.recs.length : Int) - ((o.s + l.fwd.getD key 0 : Nat) : Int))
/-- The outbound queue that a port serves: the largest positive differential, ties to the lower queue number (R102, R408). -/
def pickOutbound (s : State) (port : Nat) (l : Link) : Option (Int × Nat × Outbound) :=
  s.outbound.foldl (fun r x =>
    let d := forwardValue l x.1 x.2
    if x.2.recs.isEmpty || decide (d ≤ 0) || !(minimalPorts s x.2.dev).contains port then r
    else match r with
      | none => some (d, x)
      | some y => if y.1 < d ∨ (y.1 = d ∧ x.2.queue < y.2.2.queue) then some (d, x) else r) none
/-- The place of a port in the order in which ports decide in one clock: GP0 to GP255, then LL0 to LL30 (R102). -/
def portRank (port : Nat) : Nat := if port < 32 then 256 + port else port - 32
/-- Whether a port decides too late in its clock: it, or one after it in the order, has decided. -/
def decidedAfter (s : State) (port : Nat) : Bool :=
  s.links.any (fun l => l.2.decided == some s.clock && decide (portRank port ≤ portRank l.1))
/-- R102: one record leaves the chosen outbound queue as a packet of the port. Ports that decide in one clock do so in their fixed order. -/
def execPortForward (s : State) : Out :=
  event (fun s => (s.links.get? s.input.port).bind (fun l =>
    if !l.up || bit l.xoff 3 || decidedAfter s s.input.port then none
    else (pickOutbound s s.input.port l).bind (fun x =>
      let o := x.2.2
      match o.recs with
      | [] => none
      | r :: rest =>
        let (id, s) := s.newId
        let q : Request := { id, kind := 6, dev := o.dev, core := 0, slot := 50, addr := o.queue, key := o.part, bytes := cellsAt 0 (unpack r.2.1),
                             since := s.clock, rel := r.2.2.isSome, sig := r.2.2.getD 0, routed := true }
        let f (l : Link) : Link := { l with fwd := l.fwd.set x.2.1 (l.fwd.getD x.2.1 0 + 1), decided := some s.clock }
        let s := { s with outbound := s.outbound.set x.2.1 { o with recs := rest }, links := s.links.modify f s.input.port, requests := s.requests ++ [q] }
        some (countRecord (pushPacket s s.input.port (packetOf q)) o.part o.queue (fun g => { g with sent := g.sent + 1 }))))) s

/-! ## Summaries -/

/-- The dies on which a partition owns a quad (R382). -/
def partDies (s : State) (part : Nat) : List Nat := (((s.part? part).map partCores).getD []).map dieOf |>.dedup
/-- A change of every die of a partition. -/
def onDies (s : State) (part : Nat) (f : Die → Die) : State := (partDies s part).foldl (fun s d => s.updDie d f) s
/-- The age of a queue's HEAD record (R357). -/
def headAge (s : State) (h : QHdr) : Nat :=
  if h.backlog = 0 then 0
  else min (s.clock - Memory.le s.mem (if h.head < h.rtail then h.ringAt h.head else h.spillAt h.head).2 8 % 2 ^ 63) (2 ^ 32 - 1)
/-- What a home reports of its queue, with the WEIGHT of the consumer stage. -/
def homeSummary (s : State) (p : Part) (q : Queue) : Summary :=
  let h := qhdr s q.hdr
  { backlog := h.backlog, age := headAge s h, since := s.clock, weight := ((p.stages.get? h.consumer).map (·.weight)).getD 0x0100, dev := s.devnum.toNat }
/-- Whether a stage has a running or a pre-empted block: its stage-table entry counts them (R341, R357, R372). -/
def stageRuns (s : State) (part sid : Nat) : Bool :=
  (((s.part? part).bind (fun p => p.stages.get? sid)).map (fun t => decide (1 ≤ t.running))).getD false
/-- Whether an outbound queue of this device holds a record for a queue. -/
def outboundHolds (s : State) (part q : Nat) : Bool := s.outbound.any (fun o => o.2.part == part && o.2.queue == q && !o.2.recs.isEmpty)
/-- Whether an unfinished command feeds a queue: a FEED, or a STAGE of a stage of a running graph (R409). A stage that has an entry in the
table is of a graph that runs, here or at the peer that launched it: the end of the graph frees the entry (R358; DESIGN CHOICE, log 57). -/
def cmdFeeds (s : State) (q : Nat) (c : Cmd) : Bool :=
  c.left != 0 && ((c.opc == 3 && c.sid == q) || (c.opc == 2 && (match (s.part? c.part).bind (fun p => p.stages.get? c.sid) with
    | some t => (outsOf t).contains q
    | none => false)))
def queueFed (s : State) (part q : Nat) : Bool := s.cmds.any (fun c => c.part == part && cmdFeeds s q c)
/-- This device's reports on the stages and queues of a partition. -/
def ownReports (s : State) (part : Nat) (p : Part) : List (Nat × Report) :=
  let dev := s.devnum.toNat
  p.stages.keys.map (fun i => (reportKey part 0 i dev, { running := stageRuns s part i, outbound := false, feeding := false })) ++
  p.queues.keys.map (fun q => (reportKey part 1 q dev, { running := false, outbound := outboundHolds s part q, feeding := queueFed s part q }))
/-- R357: the homes of this device send their summaries, and the device its reports, to the dies of the partition. -/
def execSummarySend (s : State) : Out :=
  event (fun s => (s.part? s.input.part).map (fun p =>
    let part := s.input.part
    let here := p.queues.filter (fun q => q.2.here s)
    let sums := here.map (fun q => (part * 65536 + q.1, homeSummary s p q.2))
    let reps := ownReports s part p
    onDies s part (fun d => { d with
      summaries := sums.foldl (fun m x => m.set x.1 x.2) d.summaries, reports := reps.foldl (fun m x => m.set x.1 x.2) d.reports }))) s
/-- A summary of a queue homed on a peer: the tables take it, and its outbound queue the backlog and, where the driver has set none,
the weight; F returns to 0 at every port (R102, R357). -/
def takeSummary (s : State) (m : SummaryMsg) : State :=
  let x : Summary := { backlog := m.backlog, age := m.age, since := s.clock, weight := m.weight, dev := m.dev }
  let s := onDies s m.part (fun d => { d with summaries := d.summaries.set (m.part * 65536 + m.queue) x })
  let key := outKey m.part m.dev m.queue
  let o := outboundOf s m.part m.dev m.queue
  { s with
    outbound := s.outbound.set key { o with s := m.backlog, weight := if o.byDriver then o.weight else m.weight }
    links := s.links.mapV (fun _ l => { l with fwd := l.fwd.erase key }) }
/-- A report of a peer device on a stage or a queue, in the tables (R357). -/
def takeReport (s : State) (part kind i dev bits : Nat) : State :=
  let r : Report := { running := bit bits 0, outbound := bit bits 1, feeding := bit bits 2 }
  onDies s part (fun d => { d with reports := d.reports.set (reportKey part kind i dev) r })
/-- R336: an arrival of a peer's group at a `.pod` barrier of a partition, which travels on TC3. -/
def podArrival (s : State) (part id : Nat) : Option State :=
  let key := barKey 4 0 id
  if (barEntry s part key).expect = 0 then none else some (barArrive s part key 0)
/-- R357: a summary of a queue that a peer homes (0), or a peer's report on a stage (1) or a queue (2). The event brings the other
messages of peers on TC3 as well: an arrival at a `.pod` barrier (3, log 46). -/
def execSummaryReceive (s : State) : Out :=
  event (fun s =>
    let i := s.input
    match i.op with
    | 0 => (queueOf s i.summary.part i.summary.queue).bind (fun q => if q.here s || q.dev != i.summary.dev then none else some (takeSummary s i.summary))
    | 1 => some (takeReport s i.part 0 (i.x % 65536) (i.y % 16384) i.idx)
    | 3 => podArrival s i.part (i.idx % 64)
    | _ => some (takeReport s i.part 1 (i.x % 65536) (i.y % 16384) i.idx)) s

end Sys2Proof.Machine
end

