-- ==== Sys2Proof/Machine/FabricEvents.lean ====
section
/-! DEFINITION. Events of the links, of the target of remote accesses and keyed transfers, and of their source (R95 to R112, R202,
R203, R300, R306). -/

namespace Sys2Proof.Machine
open Bits

/-! ## Links -/

/-- A change of the link of the input's port, where it is up. -/
def onLink (f : Link → Option Link) (s : State) : Option State :=
  (s.links.get? s.input.port).bind (fun l => if l.up then (f l).map (fun l => { s with links := s.links.set s.input.port l }) else none)
/-- R96. -/
def execXoff (s : State) : Out := event (onLink (fun l => if s.input.vc < 13 then some { l with xoff := setBit l.xoff s.input.vc true } else none)) s
/-- R96. -/
def execXon (s : State) : Out := event (onLink (fun l => if s.input.vc < 13 then some { l with xoff := setBit l.xoff s.input.vc false } else none)) s
/-- R96: every channel but ESC. -/
def execPortXoff (s : State) : Out := event (onLink (fun l => some { l with xoff := l.xoff ||| 0xFFF })) s
/-- 64 µs at 1.2 GHz (R101). -/
def progressClocks : Nat := 76800
/-- R101: the head packet of a channel whose timer fires moves to ESC at this hop, and goes on along the tree; where the tree has no port
for it, it waits on ESC where it is. -/
def execProgressTimerExpiry (s : State) : Out :=
  event (fun s =>
    let v := s.input.vc
    let port := s.input.port
    (s.links.get? port).bind (fun l => match takePacket v l.queue with
      | none => none
      | some (p, rest) =>
        if !l.up ∨ 12 ≤ v ∨ s.clock < l.since.getD v 0 + progressClocks then none
        else
          let s := { s with links := s.links.set port { l with queue := rest, since := l.since.set v s.clock } }
          some (pushPacket s ((escapePort s p.dev).getD port) { p with vc := 12 }))) s
/-- A link goes down: its packets wait there until they are routed again (Table 5-5), and each partition's log says so. A port belongs to no
die that the specification names: SITE is 0 (log 61). -/
def linkDown (s : State) (port : Nat) (l : Link) : State :=
  let s := { s with links := s.links.set port { l with up := false, fails := 0 } }
  s.parts.keys.foldl (fun s p => logError s p 7 0x18 3 none 0 port 0) s
/-- R96, R97, R98, R110: a flit that passes its check enters the input buffer; one that ends a packet of this module takes the packet out of
it, and one that ends a packet for another device passes the packet on, which holds its place in the buffer until it leaves. A flit that
fails is sent again, and after 16 failed retries the link goes down. -/
def execFlitReceive (s : State) : Out :=
  event (fun s => (s.links.get? s.input.port).bind (fun l =>
    let i := s.input
    if !l.up then none
    else if !i.ok then
      (if l.fails = 16 then some (linkDown s i.port l) else some { s with links := s.links.set i.port { l with fails := l.fails + 1 } })
    else
      let vc := i.vc % 13
      let l := Link.hold i.port vc 1 { l with fails := 0 }
      let flits := 1 + i.len % 5
      if i.op = 0 then some { s with links := s.links.set i.port l }
      else if i.x % 16384 = s.devnum.toNat then some { s with links := s.links.set i.port (Link.release i.port vc flits l) }
      else some (passOn { s with links := s.links.set i.port l } { vc, flits, dev := i.x % 16384, ref := 0, kind := 9, inp := some (i.port, vc) }))) s
/-- R100. -/
def execEscapeTreeRebuild (s : State) : Out := event (fun s => some { s with mgmt := { s.mgmt with tree := treeOf s.input.nums } }) s

/-! ## The target of remote accesses -/

/-- The writer that a trace names for a peer (Table 19-3). -/
def peerWho (dev : Nat) : Who := { agent := 4, dev := some dev }
/-- Whether n bytes lie within one export range of a partition that does not reset (R103, R386), and none in a counter (R356, log 57). -/
def exported (s : State) (part a n : Nat) : Bool :=
  ((s.part? part).map (fun p => !p.resetting && p.exports.any (fun r => decide (r.1 ≤ a) && decide (a + n ≤ r.1 + r.2)))).getD false && !meetsCounter s a n
/-- An access outside the export range is refused and logged (R103); which KIND a load or an atomic gets is not stated. -/
def refuse (s : State) (part : Nat) (r : RemoteReq) (write : Bool) : State :=
  let f := s.fresh
  let kind := if write then 2 else f.1.toNat % 256
  nack (logError f.2 part kind 0x20 2 (some r.srcDev) (homeDie r.addr) r.addr 0) r.srcDev r.tag 0x20 2 (rspOf s.input.vc)
/-- An access of a peer among those that wait at a home slice, and one that waits: it takes its place once (R308). -/
def fromPeer (dev tag : Nat) (w : SliceParty) : Bool := w == .peer dev tag
def peerWaits (s : State) (dev tag k : Nat) : Option State :=
  if s.regions.any (fun r => r.2.waiting.any (fun x => fromPeer dev tag x.who)) then none else some (joinPlace k (.peer dev tag) 0 s)
/-- What a peer is told of a write at its home (R104, R300, R306), unless the access waits at the home slice. `good` is what follows one
that is performed. -/
def toldPeer (s : State) (part dev tag vc pa : Nat) (r : WRes) (good : State → State) : Option State :=
  match r with
  | .done s => some (good (leavePlaces s (.peer dev tag)))
  | .noRoom k s => some (answer (exhaust (leavePlaces s (.peer dev tag)) k) dev 2 tag 0 [] vc)
  | .poolPage _ => some (nack (logError s part 10 0x20 2 (some dev) (homeDie pa) pa 0) dev tag 0x20 2 vc)
  | .waits k s => peerWaits s dev tag k
/-- Bytes written at a home for a peer. -/
def peerWrite (s : State) (part dev tag vc : Nat) (l : List (Nat × Byte)) (good : State → State) : Option State :=
  toldPeer s part dev tag vc ((l.head?.map (·.1)).getD 0) (homeAll (fromPeer dev tag) (peerWho dev) (byLine l) s) good
/-- A read at the home for a peer, which waits while the home slice holds it (R104, R308). Where its check fails: an error response with the
subcode of Table 5-5 (R111); a corrected bit is counted. -/
def peerRead (s : State) (dev tag vc : Nat) (pas : List Nat) (good : State → Option State) : Option State :=
  match pas.findSome? (fun a => homeWaits (fromPeer dev tag) s a false) with
  | some k => peerWaits s dev tag k
  | none =>
    let s := leavePlaces s (.peer dev tag)
    let us := (pas.map memUnit).dedup
    match errIn s us with
    | some sub => some (nack s dev tag 0x18 sub vc)
    | none => good (countErrs s us)
/-- An atomic at its home for a peer (R86, R103, R141): the old value answers; a compare and swap that does not match is a write of no bytes
(R303). `good` follows one that is performed. -/
def peerAtom (s : State) (part dev tag vc pa : Nat) (a : Acc) (good : State → List Byte → State) : Option State :=
  peerRead s dev tag vc [pa, pa + a.n - 1] (fun s =>
    let old := Memory.le s.mem pa a.n
    toldPeer s part dev tag vc pa (homeAt (fromPeer dev tag) (peerWho dev) pa (((atomNew a old).map (fun v => cellsAt pa (bytesOf a.n v))).getD []) s) (fun s => good s (bytesOf a.n old)))
/-- R112: a request that needs a request sent onward is accepted only with a FWD slot reserved for that: the home slice else answers RETRY
and keeps the age of the oldest request it has refused, and only one of that age or older may take the next free slot. The input says
whether a request needs one, for which device, and whether a slot is free; the accepted request is sent onward on FWD. -/
def forwardSlot (s : State) (pa dev tag vc : Nat) : Option State × State :=
  let die := homeDie pa
  let slice := homeSlice pa
  let age := s.input.req.age
  if s.input.op ≠ 1 ∨ dev = s.devnum.toNat then (none, s)
  else
    let old := (s.die die).refused.get? slice
    let onward : Packet := { vc := fwdOf vc, flits := 1, dev := s.input.y % 16384, ref := tag, kind := 11 }
    let mayTake := s.input.ok && (match old with
      | none => true
      | some a => decide (a ≤ age))
    match mayTake, routeOf s onward with
    | true, some (k, v) => (none, pushPacket (s.updDie die (fun d => { d with refused := d.refused.erase slice })) k { onward with vc := v })
    | _, _ => (some (answer (s.updDie die (fun d => { d with refused := d.refused.set slice (max (old.getD 0) age) })) dev 2 tag 0 [] (rspOf vc)), s)
/-- What follows forwardSlot: a refusal, or the access. -/
def withSlot (s : State) (pa dev tag vc : Nat) (f : State → Option State) : Option State :=
  match forwardSlot s pa dev tag vc with
  | (some t, _) => some t
  | (none, s) => f s
/-- The answer to a load or an atomic, which brings an acquire what the line's entry holds (R130, R131, R134). -/
def answerFar (s : State) (r : RemoteReq) (vc : Nat) (data : List Byte) : State :=
  let e := if r.acq then entryFor s r.gen r.addr else (false, 0)
  { s with answers := s.answers ++ [{ dev := r.srcDev, kind := 0, tag := r.tag, code := 0, data, all := e.1, sig := e.2, gen := (s.die (homeDie r.addr)).gen, vc }] }
/-- A tile read from a peer (R190, R191, R202, R203): RETRY while the neighbourhood is saved, TILE_STALE for a handle that is gone; else the
home takes it in its order and answers it when it is served, or refuses it. One that is sent again is the same read. -/
def remoteTile (s : State) (r : RemoteReq) : Option State :=
  match s.nbhds.find? (fun n => n.2.handle == r.x && !n.2.agent) with
  | none =>
    if s.saves.any (fun v => v.2.nb.handle == r.x) then some (answer s r.srcDev 2 r.tag 0 [] 2)
    else some (nack s r.srcDev r.tag 0x31 0 2)
  | some (k, n) =>
    if n.ops.any (fun o => o.peer == some (r.srcDev, r.tag)) then none
    else
      let (id, s) := s.newId
      let x := judge s n { id, strm := .seq 1000000 0, tag := 8, kind := 0, word := r.addr % 65536, peer := some (r.srcDev, r.tag) }
      some (answerPeers (s.updNbhd k (fun n => { x.1 with ops := n.ops ++ [x.2] })) k)
/-- R103, R104, R112: a line is read at its home slice; operation 2 reads a tile. -/
def execRemoteLoadRequest (s : State) : Out :=
  event (fun s =>
    let r := s.input.req
    let vc := rspOf s.input.vc
    if r.op = 2 then remoteTile s r
    else if !exported s s.input.part r.addr r.len then some (refuse s s.input.part r false)
    else withSlot s r.addr r.srcDev r.tag s.input.vc (fun s =>
      peerRead s r.srcDev r.tag vc ((List.range r.len).map (r.addr + ·)) (fun s => some (answerFar s r vc (Memory.read s.mem r.addr r.len))))) s
/-- The bytes of a posted store: those of its mask. -/
def storeCells (r : RemoteReq) : List (Nat × Byte) := (bitsOf r.len r.mask).map (fun i => (r.addr + i, r.data.getD i 0))
/-- R103, R104, R111, R112, R300: a posted store is placed, with the deposit of a release (R130), and acknowledged; dropped where its check
fails; or refused. -/
def execRemoteStoreArrival (s : State) : Out :=
  event (fun s =>
    let r := s.input.req
    let part := s.input.part
    let vc := rspOf s.input.vc
    if !exported s part r.addr r.len then some (refuse s part r true)
    else if !s.input.ok then some (nack (logError s part 2 0x18 5 (some r.srcDev) (homeDie r.addr) r.addr 0) r.srcDev r.tag 0x18 5 vc)
    else withSlot s r.addr r.srcDev r.tag s.input.vc (fun s =>
      peerWrite s part r.srcDev r.tag vc (storeCells r) (fun s => answer (if r.rel then deposit s r.addr r.sig else s) r.srcDev 0 r.tag 0 [] vc))) s
/-- An atomic as a request carries it: AOP, or 8 for a compare and swap; the width in bytes; the type code. -/
def carriedAtom (op x y : Nat) : Acc :=
  { lane := 0, va := 0, n := op / 16 % 16, conv := .scalar 0 8 false, aop := op % 16, fmt := op / 256, cas := op % 16 == 8, x, y }
/-- R86, R103: an atomic is performed at its home slice, with the deposit of a release (R130), and the old value answers. -/
def execRemoteAtomicRequest (s : State) : Out :=
  event (fun s =>
    let r := s.input.req
    let a := carriedAtom r.op r.x r.y
    let vc := rspOf s.input.vc
    if !exported s s.input.part r.addr a.n then some (refuse s s.input.part r false)
    else withSlot s r.addr r.srcDev r.tag s.input.vc (fun s =>
      peerAtom s s.input.part r.srcDev r.tag vc r.addr a (fun s old => answerFar (if r.rel then deposit s r.addr r.sig else s) r vc old))) s

/-! ## The target of keyed transfers -/

/-- The partition and the key of a key index, where it is valid (R105, Table 5-4). -/
def keyOf (s : State) (key : Nat) : Option (Nat × Key) :=
  let part := key / 4096 % 16
  (s.part? part).bind (fun p => (p.keys.get? (key % 4096)).bind (fun k => if k.tag = key / 65536 then some (part, k) else none))
/-- The right that a segment needs: W for RMPUT (3), R for RMGET (4), A for RMATOM (5). -/
def segRight (kind : Nat) : Nat := match kind with
  | 3 => 1
  | 4 => 0
  | _ => 2
def segAccess (kind : Nat) : Access := match kind with
  | 3 => .write
  | 4 => .read
  | _ => .atomic
/-- The bytes that a segment names. -/
def segSize (g : RmaSegment) : Nat := if g.kind = 5 then g.op / 16 % 16 else if g.kind = 3 then g.data.length else g.len
/-- The physical addresses of the bytes of a segment, where every one translates in local memory (R106). -/
def segPlaces (s : State) (ctx : Nat) (k : Access) : Nat → Nat → Option (List Nat)
  | _, 0 => some []
  | va, n + 1 =>
    match walk s ctx va with
    | .error _ => none
    | .ok l => match useLeaf s ctx l k true va with
      | .error _ => none
      | .ok p => if p.dev.isSome then none else (segPlaces s ctx k (va + 1) n).map (fun r => p.pa :: r)
/-- The home die of the first byte of a segment, for the log; 0 where it translates to no local memory (log 61). -/
def segDie (s : State) (ctx va : Nat) : Nat := ((segPlaces s ctx .read va 1).bind List.head?).elim 0 homeDie
/-- The first failed check of Table 5-4 before the window; while the partition resets it is BOUNDS (R386). -/
def segRefused (s : State) (g : RmaSegment) : Option Nat :=
  if ((s.part? (g.key / 4096 % 16)).map (·.resetting)).getD false then some 2
  else match keyOf s g.key with
  | none => some 1
  | some (_, k) =>
    if k.revoked then some 4
    else if k.len < g.roff + segSize g then some 2
    else if !bit k.rights (segRight g.kind) then some 3 else none
/-- A source channel at the target as a segment of RMPUT finds or opens it; none where no channel is free (R107). -/
def channelFor (s : State) (g : RmaSegment) : Option TChan :=
  match s.tchans.get? (tchanKey g.srcDev g.key) with
  | some c => some c
  | none => if 16384 ≤ s.tchans.length then none else some { inc := g.incarnation }
/-- What the window says of a sequence number: stale, placed already, or new, with the channel moved (R107). -/
inductive Window where
  | stale
  | twice (c : TChan)
  | fresh (c : TChan)
  deriving DecidableEq, Repr, Inhabited
def TChan.window (c : TChan) (n : Nat) : Window :=
  if n < c.lw then .stale
  else
    let lw := if c.lw + 4095 < n then n - 4095 else c.lw
    let placed := c.placed.filter (fun m => decide (lw ≤ m))
    if placed.contains n then .twice { c with lw, placed } else .fresh { c with lw, placed := placed ++ [n] }
/-- What is done with a segment that passes the checks (R106), on the response channel of its class (Table 5-2). -/
def segRun (s : State) (g : RmaSegment) (part : Nat) (pas : List Nat) (good : State → State) : Option State :=
  match g.kind with
  | 3 => peerWrite s part g.srcDev g.tag 2 (pas.zip g.data) (fun s => answer (good s) g.srcDev 0 g.tag 0 [] 2)
  | 4 =>
    peerRead s g.srcDev g.tag 2 pas (fun s => some (answer s g.srcDev 0 g.tag 0 (pas.map (Memory.get s.mem)) 2))
  | _ => peerAtom s part g.srcDev g.tag 5 (pas.headD 0) (carriedAtom g.op g.x g.y) (fun s old => answer s g.srcDev 0 g.tag 0 old 5)
/-- R105 to R107, R109, R111, R112: a segment at its target. The window moves before the segment is placed; `sound` says whether the
segment passes its check. -/
def segmentArrival (s : State) (g : RmaSegment) (sound : Bool) : Option State :=
  let vc := if g.kind = 5 then 5 else 2
  match segRefused s g, keyOf s g.key with
  | some sub, _ => some (nack s g.srcDev g.tag 0x20 sub vc)
  | none, none => none
  | none, some (part, k) =>
    let tk := tchanKey g.srcDev g.key
    let keep (c : TChan) (s : State) : State := { s with tchans := s.tchans.set tk c }
    let place (s : State) (good : State → State) : Option State :=
      match segPlaces s k.ctx (segAccess g.kind) (k.vbase + g.roff) (segSize g) with
      | none => some (nack (logError s part 1 0x20 2 (some g.srcDev) (segDie s k.ctx (k.vbase + g.roff)) (k.vbase + g.roff) 0) g.srcDev g.tag 0x20 2 vc)
      | some pas => withSlot s (pas.headD 0) g.srcDev g.tag vc (fun s => segRun s g part pas good)
    if g.kind = 3 then
      match channelFor s g with
      | none => some (answer s g.srcDev 2 g.tag 0 [] 2)
      | some c =>
        if c.inc ≠ g.incarnation then some (nack s g.srcDev g.tag 0x20 5 2)
        else match c.window g.seq with
          | .stale => some (nack s g.srcDev g.tag 0x20 5 2)
          | .twice c => some (answer (keep c s) g.srcDev 0 g.tag 0 [] 2)
          | .fresh c =>
            let s := keep { c with placed := c.placed.filter (· != g.seq) } s
            if !sound then some (nack (logError s part 2 0x18 5 (some g.srcDev) (segDie s k.ctx (k.vbase + g.roff)) (k.vbase + g.roff) 0) g.srcDev g.tag 0x18 5 2)
            else place s (keep c)
    else place s (fun s => s)
/-- R105 to R107, R109, R111. -/
def execRmaSegmentArrival (s : State) : Out := event (fun s => segmentArrival s s.input.seg s.input.ok) s
/-- A close frees the target's entry; one of another incarnation finds nothing to close (R107). -/
def closeArrival (s : State) (g : RmaSegment) : Option State :=
  let tk := tchanKey g.srcDev g.key
  (s.tchans.get? tk).bind (fun c => if c.inc = g.incarnation then some (answer { s with tchans := s.tchans.erase tk } g.srcDev 0 g.tag 0 [] 8) else none)
/-- R107. -/
def execRmaChannelClose (s : State) : Out := event (fun s => closeArrival s s.input.seg) s

/-! ## The source -/

/-- The request that the input answers, once it has left the device. -/
def answered (s : State) : Option Request := s.requests.find? (fun r => r.id == s.input.x && r.st == 0 && r.left)
/-- The L1 lines of the 256-byte line of a weak load. -/
def fourLines (r : Request) : List Nat := (List.range 4).map (fun i => peerKey r.dev (r.addr / 256 * 256 + 64 * i))
/-- A 256-byte line that a peer sent enters the die's remote-line partition; bytes that it has meanwhile stay (R126). -/
def allocRemote (s : State) (r : Request) (bs : List Byte) : State :=
  let die := dieOf r.core
  if r.noAlloc || (s.die die).rlways == 0 then s
  else
    let key := rkey r.dev r.addr
    let old := (rline s die r.dev r.addr).getD { data := 0, valid := 0, dirty := 0, contrib := 0, since := s.clock }
    let data := (List.range 256).foldl (fun (v : BitVec 2048) i => if old.valid.getLsbD i then v else putByte v i (bs.getD i 0)) old.data
    s.updDie die (fun d => { d with rlines := d.rlines.set key { old with data, valid := BitVec.allOnes 256 } })
/-- The line of a weak load arrives at the core: its fills have their data (R103, R126, R137). -/
def lineArrives (s : State) (r : Request) (bs : List Byte) : State :=
  let keys := fourLines r
  let take (f : Fill) : Fill := if f.core = r.core ∧ keys.contains f.line then { f with data := some (pack 2048 bs), noAlloc := f.noAlloc || r.noAlloc } else f
  let s := allocRemote (dropRequest s r.id) r bs
  { s with fills := s.fills.map take }
/-- A store of a die's partition is placed: of a line that it does not hold whole it keeps the dirty bytes alone, and what was asked for
before is allocated nowhere, since it may be older (R288). -/
def settleLine (s : State) (die key : Nat) : State :=
  match (s.die die).rlines.get? key with
  | none => s
  | some l =>
    if l.valid = BitVec.allOnes 256 then s
    else spoilLine (s.updDie die (fun d => { d with rlines := if l.dirty = 0 then d.rlines.erase key else d.rlines.set key { l with valid := l.valid &&& l.dirty } })) die key
/-- A posted store has ended: placed, or failed at its address. What the core's L1 and its die's partition have fetched of the line
meanwhile is dropped, so that its thread reads no older value, and a batch completes with its lines invalidated (R124, R174, R288, R293). -/
def storeEnds (s : State) (r : Request) (fail : Option TrapInfo) : State :=
  if r.slot = 48 then settleLine s (dieOf r.core) (rkey r.dev r.addr)
  else
    let t := fail.map (fun t => { t with addr := r.fail.addr })
    let s := if r.copy = 0 then s else updCopy s r.core (r.copy - 1) (fun x => { x with waiting := x.waiting - 1, fail := x.fail.or t })
    dropPeerLine s r.core r.dev r.addr
/-- R103: the answer to a request: a store is placed, a segment acknowledged, a value returns. -/
def acknowledged (s : State) (r : Request) (bs : List Byte) : State :=
  match r.kind with
  | 2 => storeEnds (dropRequest s r.id) r none
  | 3 => closeChan (dropRequest s r.id) (chanKey r.dev r.key)
  | 6 | 7 => dropRequest s r.id
  | 0 => if r.strong then updRequest s r.id (fun r => { r with st := 1, data := bs }) else lineArrives s r bs
  | 1 =>
    let s := dropPeerLine s r.core r.dev r.addr
    if r.strong then updRequest s r.id (fun r => { r with st := 1, data := bs })
    else feedLoads (dropRequest s r.id) r.core (answerKey r.id) (fun o => bs.getD o 0)
  | _ => updRequest s r.id (fun r => { r with st := 1, data := bs })
/-- What the answer brings of the line's entry in the table of its home, kept for the acquire that waits for it (R130, R131). -/
def noteEntry (s : State) (r : Request) : State :=
  if r.strong then updRequest s r.id (fun r => { r with rall := s.input.all, rsig := s.input.sig, rgen := s.input.gen }) else s
/-- R103, R107, R130. -/
def execAckReceive (s : State) : Out := event (fun s => (answered s).map (fun r => acknowledged (noteEntry s r) r s.input.bytes)) s
/-- An RMATOM that fails after it was performed is recorded in the log of its issuer's partition (R115). Whether it was is the input's to say;
the KIND of the entry is not stated. -/
def lateAtom (s : State) (r : Request) (t : TrapInfo) : State :=
  if s.input.ok && r.dev != s.devnum.toNat then
    let part := ((s.group? r.core r.slot).map (fun g => (s.nbhdOf g).part)).getD 0
    let f := s.fresh
    logError f.2 part (f.1.toNat % 256) t.cause (t.info.toNat % 256) (some r.dev) (dieOf r.core) r.addr t.info.toNat
  else s
/-- A failure of an RMPUT segment or of an RMATOM of a group, for its next RMFLUSH to the device: that names the oldest, and the log holds the
later ones (R116). -/
def rmaFails (t : TrapInfo) (r : Request) (s : State) (k : Nat) : State :=
  let g := s.groups.get? k
  let part := (g.map (fun g => (s.nbhdOf g).part)).getD 0
  let later := (g.map (fun g => g.rmaFail.any (fun x => x.1 == r.dev))).getD false
  let f := s.fresh
  let s := if later then logError f.2 part (f.1.toNat % 256) t.cause (t.info.toNat % 256) (some r.dev) (dieOf (k / 48)) r.fail.addr.toNat 0 else s
  { s with groups := s.groups.modify (fun g => { g with rmaFail := g.rmaFail ++ [(r.dev, { t with addr := r.fail.addr })] }) k }
/-- A request that ends without its effect (R103, R108, R111, R114 to R116): a value's consumer traps; a posted store is reported at
the writer's next FLUSHP or release with P; an RMPUT at the next RMFLUSH, which names the oldest failure, and the log holds the
later ones; a copy ends failed. -/
def requestFails (s : State) (r : Request) (t : TrapInfo) : State :=
  match r.kind with
  | 2 =>
    let s := storeEnds (dropRequest s r.id) r (some t)
    r.writers.foldl (fun s k => { s with groups := s.groups.modify (fun g => { g with postedFail := g.postedFail ++ [(r.dev, t)] }) k }) s
  | 3 =>
    let s := closeChan (dropRequest s r.id) (chanKey r.dev r.key)
    r.writers.foldl (rmaFails t r) s
  | 6 | 7 => s
  | 0 => if r.strong then updRequest s r.id (fun r => { r with st := 2, fail := { t with addr := r.fail.addr } })
    else
      let keys := fourLines r
      let s := { dropRequest s r.id with fills := s.fills.filter (fun f => !(f.core == r.core && keys.contains f.line)) }
      failLoads s r.core (Load.without t (fun b => keys.contains b.line && b.got.isNone))
  | 1 => if r.strong then updRequest s r.id (fun r => { r with st := 2, fail := { t with addr := r.fail.addr } })
    else failLoads (dropRequest s r.id) r.core (Load.without t (fun b => b.line == answerKey r.id))
  | 5 => updRequest (rmaFails t r (lateAtom s r t) (r.core * 48 + r.slot)) r.id (fun r => { r with st := 2, fail := { t with addr := r.fail.addr } })
  | _ => updRequest s r.id (fun r => { r with st := 2, fail := { t with addr := r.fail.addr } })
/-- R106, R111: a REMOTE_NACK with its subcode, or where the input says so another cause: an integrity error, or what the home of a tile
answered. -/
def execNackReceive (s : State) : Out :=
  event (fun s => (answered s).map (fun r =>
    let cause := s.input.y % 256
    requestFails s r { cause := if cause = 0 then 0x20 else cause, info := BitVec.ofNat 64 (s.input.op % 256 + (if r.kind = 8 then 65536 * r.addr else 0)) })) s
/-- R104, R112, R348. -/
def execRetryReceive (s : State) : Out := event (fun s => (answered s).map (fun r => resend s r.id)) s
/-- 200 µs at 1.2 GHz (R108). -/
def resendClocks : Nat := 240000
/-- R108: a segment or an access without a response is sent again, and after three resends it fails. -/
def execResendTimerExpiry (s : State) : Out :=
  event (fun s => (s.requests.find? (fun r => r.id == s.input.x && r.st == 0)).bind (fun r =>
    if r.kind = 6 ∨ r.kind = 7 ∨ s.clock < r.since + resendClocks then none
    else if r.resends < 3 then some (updRequest (resend s r.id) r.id (fun r => { r with resends := r.resends + 1 }))
    else some (requestFails s r { cause := 0x21 }))) s

/-! ## Keyed transfers to the module itself -/

/-- A segment, or a close, as its request gives it. -/
def segmentOf (s : State) (r : Request) : RmaSegment :=
  { srcDev := s.devnum.toNat, tag := r.id, key := r.key, seq := r.seqNo, incarnation := r.inc, kind := r.kind, roff := r.addr, len := r.op
    op := r.op, x := r.x, y := r.y, data := r.bytes.map (·.2) }
/-- What the module answers itself ends the request, and is no answer to a peer. -/
def selfAnswered (s : State) (r : Request) : State :=
  match s.answers.getLast? with
  | none => s
  | some a =>
    let s := { s with answers := s.answers.dropLast }
    match a.kind with
    | 0 => acknowledged s r a.data
    | 1 => requestFails s r { cause := a.code / 256, info := BitVec.ofNat 64 (a.code % 256) }
    | _ => s
/-- A keyed transfer whose device is the module itself: its own key table, windows and memory serve it (R105 to R107, R114, R115). -/
def serveSelf (s : State) (r : Request) : State :=
  let t := if r.kind = 7 then closeArrival s (segmentOf s r) else segmentArrival s (segmentOf s r) true
  match t with
  | some t => selfAnswered t r
  | none => s
def serveSelfAll (s : State) : State :=
  (s.requests.filter (fun r => r.dev == s.devnum.toNat && r.left && r.st == 0 && (r.kind == 3 || r.kind == 4 || r.kind == 5 || r.kind == 7))).foldl serveSelf s

end Sys2Proof.Machine
end

