-- ==== Sys2Proof/Machine/Fence.lean ====
section
/-! DEFINITION. FENCE of the scalar stream and of a split (R135, R290, R297). -/

namespace Sys2Proof.Machine
open Bits

/-- Steps 1 to 3 of a release, the wait for the group's earlier loads, and the whole-L1 invalidation of an acquire; every bit of SIG
is set, and nothing is deposited (R129, R135). -/
def fenceRun (i : Issuer) (obs : Nat) (mask : W32) (s : State) : Res :=
  match releaseSteps s i.c i.sl obs with
  | .wait s r c => .park s r c
  | .trap s t => .trap s { t with mask }
  | .ok s =>
    if (s.core i.c).loads.any (fun l => l.slot == i.sl) then .park s 11 .loads
    else
      let s := fullSig (purgeL1 i.c s) i.c i.sl
      let s := if hasPH obs then purgePartition (dieOf i.c) s else s
      if invalidating s i.c (hasPH obs) then finishWait i s (.invalidation i.c (hasPH obs)) else .next s
/-- R297. -/
def execFence (o : BitVec 5) (s : State) : Out :=
  scalarRun false 0 4 [] (fun c sl g =>
    if g.arrived = some 1 then .next s else fenceRun (scalarIssuer s c sl g) o.toNat 0 s) s
/-- R297: once per execution, where an executing lane is a keeper. -/
def execLaneFence (w : L3) (s : State) : Out :=
  laneRun 0 w.prd [] [] (fun e s =>
    if e.acting.isEmpty then .next s else fenceRun (laneIssuer s e) w.obs.toNat (e.exec &&& e.keep) s) s

end Sys2Proof.Machine
end

