-- ==== Sys2Proof/Machine/Geyser.lean ====
section
/-! DEFINITION. Geyser: host commands, the mapping of user queues to hardware slots, the steal ring, and the end of a graph (R341, R357,
R358, R362 to R365, R409). -/

namespace Sys2Proof.Machine
open Bits

/-! ## Host commands -/

/-- A host command (Table 16-9). -/
structure HostCmd where
  opc : Nat
  ndep : Nat
  comp : Nat
  deps : List (Nat × Nat)
  opnd : Nat
  deriving DecidableEq, Repr, Inhabited
def hostCmd (bs : List Byte) : HostCmd :=
  { opc := leAt bs 0 1, ndep := leAt bs 1 1, comp := leAt bs 4 4, opnd := leAt bs 0x38 8
    deps := (List.range (min (leAt bs 1 1) 4)).map (fun k => (leAt bs (8 + 12 * k) 4, leAt bs (12 + 12 * k) 8)) }
/-- The address and the bytes of a command of a user queue (R362). -/
def cmdAddr (u : UQ) (n : Nat) : Nat := u.rbase + 64 * (n % 2 ^ u.rsize)
def cmdBytes (s : State) (u : UQ) (n : Nat) : List Byte := Memory.read s.mem (cmdAddr u n) 64
/-- Whether the bytes of an operand block lie outside the limits of Table 16-10. -/
def graphBad (b : List Byte) : Bool :=
  let n := leAt b 0x10 4
  let entry (k : Nat) : Bool :=
    if k < n then decide (4 < leAt b (0x14 + 4 * k) 1) || decide (63 < leAt b (0x15 + 4 * k) 1) || decide (leAt b (0x16 + 4 * k) 2 = 0) || decide (4095 < leAt b (0x16 + 4 * k) 2)
    else leAt b (0x14 + 4 * k) 4 != 0
  decide (8 < n) || (List.range 8).any entry || leAt b 0x34 12 != 0
def operandBad (s : State) (c : HostCmd) : Bool :=
  let b := Memory.read s.mem c.opnd 72
  match c.opc with
  | 1 => graphBad b
  | 2 => leAt b 2 2 == 0 || leAt b 4 4 != 0
  | 3 => leAt b 2 2 != 0 || leAt b 4 4 == 0 || decide (2 ^ 20 < leAt b 4 4)
  | 4 => c.opnd != 0
  | _ => false
/-- Whether a command has a malformed field: QUEUE_CONFIG 0x07 (R362). -/
def cmdBad (s : State) (part : Nat) (bs : List Byte) : Bool :=
  let c := hostCmd bs
  decide (4 < c.opc) || decide (4 < c.ndep) || leAt bs 2 2 != 0 || ((List.range 4).drop c.ndep).any (fun k => leAt bs (8 + 12 * k) 12 != 0) ||
  (c.comp != 2 ^ 32 - 1 && (counterAt s part c.comp).isNone) || c.deps.any (fun d => (counterAt s part d.1).isNone) || operandBad s c
/-- Whether the counters of a command have reached their thresholds. -/
def depsMet (s : State) (part : Nat) (c : HostCmd) : Bool :=
  c.deps.all (fun d => ((counterAt s part d.1).map (fun a => decide (d.2 ≤ tableWord s a))).getD false)
/-- Whether command n of a queue is there, well formed, and its counters reached. -/
def cmdReady (s : State) (part : Nat) (u : UQ) (n : Nat) : Bool :=
  !u.stopped && decide (n < u.wr) && !cmdBad s part (cmdBytes s u n) && depsMet s part (hostCmd (cmdBytes s u n))
/-- The partition of a user queue (Table 18-2). -/
def uqPart (s : State) (u : Nat) : Option (Nat × Part) := s.parts.findV (fun _ p => decide (p.desc.uqlo ≤ u) && decide (u ≤ p.desc.uqhi))

/-! ## Slots -/

/-- 1 ms at 1.2 GHz. -/
def msClocks : Nat := 1200000
/-- The effective priority of a queue: that of a pending one rises by 1 each millisecond (R364). -/
def eprio (s : State) (u : Nat) : Nat := match s.uqs.get? u with
  | none => 0
  | some q => min 15 (q.prio + (s.clock - q.wstart) / msClocks)
def prioOf (s : State) (u : Nat) : Nat := ((s.uqs.get? u).map (·.prio)).getD 0
/-- Whether a partition's queue may take a hardware slot of a die (SLOTS, Table 18-2). -/
def ownsSlot (s : State) (die k u : Nat) : Bool := ((uqPart s u).map (fun p => bit p.2.desc.slots (4 * die + k))).getD false
/-- A free slot of a die for a queue. -/
def freeHs (s : State) (die u : Nat) : Option Nat := (List.range 4).find? (fun k => ((s.die die).hs.get? k).isNone && ownsSlot s die k u)
/-- The queue of a list with the largest value, ties to the lower number. -/
def bestUq (f : Nat → Nat) (l : List Nat) : Option Nat :=
  l.foldl (fun r u => match r with
    | none => some u
    | some v => if f v < f u ∨ (f v = f u ∧ u < v) then some u else r) none
/-- A queue mapped: its QCB is restored into a slot, and its pending bit is cleared (R363, R364). -/
def mapUq (s : State) (die k u : Nat) : State :=
  let q := (s.uqs.get? u).getD default
  s.updDie die (fun d => { d with hs := d.hs.set k { uq := u, since := s.clock, rd := q.rd, wr := q.wr, cmd := q.cmd }, pend := d.pend.filter (· != u) })
/-- A slot emptied: RDPTR, WRPTR and the command state go back into the QCB of its queue (R363). -/
def unmapSlot (die : Nat) (s : State) (k : Nat) : State :=
  match (s.die die).hs.get? k with
  | none => s
  | some h => { s with uqs := s.uqs.modify (fun q => q.slotted (some h)) h.uq }.updDie die (fun d => { d with hs := d.hs.erase k })
/-- Step 1 of R364: with a queue pending, mapped queues that are empty are unmapped. -/
def unmapEmpty (s : State) (die : Nat) : State :=
  if (s.die die).pend.isEmpty then s else (((s.die die).hs.filter (fun h => h.2.rd == h.2.wr)).map (·.1)).foldl (unmapSlot die) s
/-- Step 2: while a slot is free, the pending queue of highest EPRIO is mapped. -/
def mapPending (die : Nat) : Nat → State → State
  | 0, s => s
  | n + 1, s =>
    match bestUq (eprio s) ((s.die die).pend.filter (fun u => (freeHs s die u).isSome)) with
    | none => s
    | some u => match freeHs s die u with
      | none => s
      | some k => mapPending die n (mapUq s die k u)
/-- Step 3: a pending queue takes the slot of the mapped one of lowest EPRIO, mapped for 1 ms or more, that it exceeds by 2. -/
def evict (s : State) (die : Nat) : State :=
  match bestUq (eprio s) (s.die die).pend with
  | none => s
  | some p =>
    let old := (s.die die).hs.filter (fun h => decide (h.2.since + msClocks ≤ s.clock) && ownsSlot s die h.1 p)
    let low := old.foldl (fun (r : Option (Nat × HSlot)) h => match r with
      | none => some h
      | some m => if prioOf s h.2.uq < prioOf s m.2.uq ∨ (prioOf s h.2.uq = prioOf s m.2.uq ∧ m.2.uq < h.2.uq) then some h else r) none
    match low with
    | none => s
    | some (k, h) =>
      let m := h.uq
      if eprio s p < prioOf s m + 2 then s
      else
        let s := unmapSlot die s k
        let s := { s with uqs := s.uqs.modify (fun q => { q with wstart := s.clock }) m }
        (mapUq s die k p).updDie die (fun d => { d with pend := d.pend ++ [m] })
/-- The steps of R364, in order. -/
def geyser (s : State) (die : Nat) : State := evict (mapPending die 4 (unmapEmpty s die)) die
def isMapped (s : State) (die u : Nat) : Bool := (s.die die).hs.any (fun h => h.2.uq == u)
/-- A queue with commands joins the pending vector; WSTART is set where its bit was clear (R363). -/
def setPending (s : State) (die u : Nat) : State :=
  if (s.die die).pend.contains u then s
  else { s with uqs := s.uqs.modify (fun q => { q with wstart := s.clock }) u }.updDie die (fun d => { d with pend := d.pend ++ [u] })
/-- A new WRPTR: in the slot of a mapped queue, else in its QCB (R363). -/
def putWr (s : State) (u wr : Nat) : State :=
  if (hsOf s u).isSome then { s with dies := s.dies.mapV (fun _ d => { d with hs := d.hs.mapV (fun _ h => if h.uq = u then { h with wr } else h) }) }
  else { s with uqs := s.uqs.modify (fun q => { q with wr }) u }
/-- Whether a channel of the link is open: while the home slice holds a write of it, the link back-pressures what follows (R306, R381). -/
def channelOpen (s : State) (port : Nat) : Bool := (s.hostHeld.get? port).isNone
/-- R363, R386, R390: a doorbell; while its partition resets or is halted it is counted and discarded. -/
def doorbell (s : State) (u wr : Nat) : Option State :=
  (uqNow s u).bind (fun q => (uqPart s u).map (fun p =>
    if p.2.resetting || p.2.halted then s.updPart p.1 (fun p => { p with bells := p.bells + 1 })
    else
      let s := putWr s u wr
      let s := if !isMapped s q.die u && wr != q.rd then setPending s q.die u else s
      geyser s q.die))
/-- R363. -/
def execDoorbell (s : State) : Out :=
  event (fun s => if s.mgmt.step < 5 || !channelOpen s s.input.port then none else doorbell s (s.input.idx % 1024) s.input.value.toNat) s
/-- R364. -/
def execGeyserAgeingStep (s : State) : Out := event (fun s => some (geyser s (s.input.die % 8))) s

/-! ## Starting a command -/

/-- A command that is not started: its queue stops and the partition's log takes it (R362). -/
def stopUq (s : State) (part u : Nat) (q : UQ) (sub : Nat) : State :=
  logError { s with uqs := s.uqs.modify (fun q => { q with stopped := true }) u } part 3 0x48 sub none q.die (cmdAddr q q.rd) (q.rd % 2 ^ q.rsize)
/-- Whether a graph fails its launch: a queue of it with two consumers or none, or more than 4,096 queues (R341, R357). -/
def graphFails (p : Part) (slo shi qlo qhi : Nat) : Bool :=
  let stages := p.stages.filter (fun t => decide (slo ≤ t.1) && decide (t.1 ≤ shi))
  let consumers (q : Nat) : Nat := (stages.filter (fun t => (t.2.ins.take t.2.nin).contains q)).length
  decide (4096 < p.queues.length) || (p.queues.keys.filter (fun q => decide (qlo ≤ q) && decide (q ≤ qhi))).any (fun q => consumers q != 1)
/-- The instances of a scope in a partition (R336): the keys of an entry. -/
def barKeys (p : Part) (scope id : Nat) : List Nat := ((partCores p).map (fun c => barKey scope c id)).dedup
/-- The barrier declarations of a graph: EXPECT into every instance of the scope (R336, Table 16-10). -/
def declareBars (b : List Byte) (p : Part) : Part :=
  (List.range (leAt b 0x10 4)).foldl (fun p k =>
    (barKeys p (leAt b (0x14 + 4 * k) 1) (leAt b (0x15 + 4 * k) 1)).foldl (fun p key =>
      { p with bars := p.bars.set key { p.bars.getD key {} with expect := leAt b (0x16 + 4 * k) 2 } }) p) p
/-- A command entered among those that have started. -/
def addCmd (s : State) (c : Cmd) : State := { s with cmds := s.cmds ++ [c] }
/-- A graph started (R362). -/
def startGraph (s : State) (part : Nat) (c : Cmd) (die : Nat) (b : List Byte) : State :=
  let lo (o : Nat) : Nat := leAt b o 2
  let g : Graph := { part, die, slo := lo 8, shi := lo 10, qlo := lo 12, qhi := lo 14, cmd := c.id }
  let s := { addCmd s { c with left := 1, graph := c.id } with graphs := s.graphs.set c.id g }
  s.updPart part (fun p => declareBars b { p with
    stages := p.stages.mapV (fun i t => if g.slo ≤ i ∧ i ≤ g.shi then { t with graph := c.id } else t)
    queues := p.queues.mapV (fun i q => if g.qlo ≤ i ∧ i ≤ g.qhi then { q with graph := c.id } else q) })
/-- The runs of a FEED: one for 32 records (Table 16-10). -/
def feedRuns (s : State) (part q addr : Nat) (cmd : Nat) : Nat → Nat → State → State
  | 0, _, t => t
  | n + 1, left, t =>
    if left = 0 then t
    else
      let k := min left 32
      let recs := (List.range k).map (fun i => pack 512 (Memory.read s.mem (addr + 64 * i) 64))
      feedRuns s part q (addr + 64 * k) cmd n (left - k) (sendRun t { id := 0, part, queue := q, recs, strm := none, cmd := some cmd })
/-- RDPTR moves past a command as it starts, in the slot of its queue; what the 24 bytes of command state then hold is not stated: a free
value. -/
def beginCmd (s : State) (die u : Nat) : State :=
  let w (k : Nat) : W64 := Config.freeWord (s.tick * 2 ^ 62 + 2 ^ 61 + 4 * k + 3)
  s.updDie die (fun d => { d with hs := d.hs.mapV (fun _ h => if h.uq = u then { h with rd := h.rd + 1, cmd := w 0 ++ w 1 ++ w 2 } else h) })
/-- The command started by its operation code (R362, Table 16-10). -/
def startCmd (s : State) (part u : Nat) (q : UQ) (p : Part) (h : HostCmd) : State :=
  let b := Memory.read s.mem h.opnd 72
  if h.opc = 1 ∧ graphFails p (leAt b 8 2) (leAt b 10 2) (leAt b 12 2) (leAt b 14 2) = true then stopUq s part u q 6
  else
    let (id, s) := (beginCmd s q.die u).newId
    let c : Cmd := { id, part, uq := u, idx := q.rd, opc := h.opc, comp := h.comp, sid := leAt b 0 2 }
    match h.opc with
    | 1 => startGraph s part c q.die b
    | 2 =>
      let d : Direct := { part, sid := c.sid, arg := pack 512 ((b.drop 8).take 64), cmd := id }
      (addCmd s { c with left := leAt b 2 2 }).updDie q.die (fun x => { x with direct := x.direct ++ List.replicate (leAt b 2 2) d })
    | 3 =>
      let n := leAt b 4 4
      feedRuns s part c.sid (leAt b 8 8) id ((n + 31) / 32) n (addCmd s { c with left := (n + 31) / 32 })
    | _ => addCmd s c
/-- R362: Geyser starts the next command of a mapped queue, or stops the queue at a malformed one. -/
def execCommandStart (s : State) : Out :=
  event (fun s =>
    let die := s.input.die % 8
    ((s.die die).hs.get? (s.input.idx % 4)).bind (fun h => (uqNow s h.uq).bind (fun q => (uqPart s h.uq).bind (fun p =>
      if q.stopped || decide (q.wr ≤ q.rd) then none
      else
        let bs := cmdBytes s q q.rd
        if cmdBad s p.1 bs then some (stopUq s p.1 h.uq q 7)
        else if !depsMet s p.1 (hostCmd bs) then none
        else some (geyser (startCmd s p.1 h.uq q p.2 (hostCmd bs)) die))))) s
/-- Steps 1 to 3 of R133 for the release of a completing command, with mask C|Y|M|P|H, and whether they are done. Geyser has no core of
its own; its release is that of every core of its partition (DESIGN CHOICE, log 53): their L1s are written back, what they contributed to
the remote-line partitions is sent and placed, and their writes to host memory are accepted. -/
def partRelease (s : State) (part : Nat) : Bool × State :=
  let cores := ((s.part? part).map partCores).getD []
  let r := cores.foldl (fun (r : Bool × State) c => let x := flushL1 c r.2; (r.1 && x.1, sendContrib x.2 c none)) (true, s)
  let placed := r.2.requests.all (fun q => !(q.kind == 2 && q.st == 0 && (cores.any (fun c => dieOf q.core == dieOf c && q.contrib.getLsbD (c % 48)) || q.writers.any (fun w => cores.contains (w / 48)))))
  (r.1 && placed && !hostPending r.2 part, r.2)
/-- The signature that it deposits: of every core of the partition. -/
def partSig (s : State) (part : Nat) : BitVec 512 := (((s.part? part).map partCores).getD []).foldl (fun v c => v ||| (s.core c).sig) 0
/-- R359, R362: the completion counter of a command that has completed is incremented, as a release with mask C|Y|M|P|H; a SIGNAL raises
vector 2. -/
def execCommandComplete (s : State) : Out :=
  event (fun s => (s.cmds.find? (fun c => c.id == s.input.x && c.left == 0)).map (fun c =>
    let drop (s : State) : State := { s with cmds := s.cmds.filter (fun x => x.id != c.id) }
    let signal (s : State) : State := if c.opc = 4 then raiseVector s c.part 2 else s
    match (if c.comp = 2 ^ 32 - 1 then none else counterAt s c.part c.comp) with
    | none => signal (drop s)
    | some a =>
      let r := partRelease s c.part
      if r.1 then signal (drop (deposit (counterAdd r.2 unitWho a 1) a (partSig r.2 c.part))) else r.2)) s

/-! ## The steal ring -/

/-- R365: a die without work asks the next one, at most once in 100 µs. -/
def execStealReqSend (s : State) : Out :=
  event (fun s =>
    let d := s.input.die % 8
    let x := s.die d
    let early := (x.lastSteal.map (fun t => decide (s.clock < t + 120000))).getD false
    if !x.hs.isEmpty || !x.pend.isEmpty || early then none
    else some ((s.updDie d (fun x => { x with lastSteal := some s.clock })).updDie ((d + 1) % 8) (fun x => { x with steal := x.steal ++ [d] }))) s
/-- The queue that a die gives up to a requester: of a partition with a quad there, two commands ready, the lowest EPRIO, ties to the
higher number. -/
def stolen (s : State) (die r : Nat) : Option (Nat × Nat) :=
  let fit (h : Nat × HSlot) : Bool := match uqPart s h.2.uq, uqNow s h.2.uq with
    | some p, some q => (partDies s p.1).contains r && cmdReady s p.1 q q.rd && cmdReady s p.1 q (q.rd + 1)
    | _, _ => false
  ((s.die die).hs.filter fit).foldl (fun b h => match b with
    | none => some (h.1, h.2.uq)
    | some m => if prioOf s h.2.uq < prioOf s m.2 ∨ (prioOf s h.2.uq = prioOf s m.2 ∧ m.2 < h.2.uq) then some (h.1, h.2.uq) else b) none
/-- R365: a die that receives a request grants a queue, or passes the request on; one that comes back to its sender is dropped. -/
def execStealReq (s : State) : Out :=
  event (fun s =>
    let d := s.input.die % 8
    match (s.die d).steal with
    | [] => none
    | r :: rest =>
      let s := s.updDie d (fun x => { x with steal := rest })
      if r = d then some s
      else match stolen s d r with
        | none => some (s.updDie ((d + 1) % 8) (fun x => { x with steal := x.steal ++ [r] }))
        | some (k, u) =>
          let s := (unmapSlot d s k).updDie r (fun x => { x with grants := x.grants ++ [u] })
          some (geyser { s with uqs := s.uqs.modify (fun q => { q with die := r }) u } d)) s
/-- R365: the requester maps the queue that it was granted, or leaves it pending where no slot is free; one that a doorbell has made it map
already stays as it is. -/
def execStealGrant (s : State) : Out :=
  event (fun s =>
    let d := s.input.die % 8
    match (s.die d).grants with
    | [] => none
    | u :: rest =>
      let s := s.updDie d (fun x => { x with grants := rest })
      some (if isMapped s d u then s else match freeHs s d u with
        | some k => mapUq s d k u
        | none => setPending s d u)) s

/-! ## The end of a graph -/

def Graph.hasStage (g : Graph) (i : Nat) : Bool := decide (g.slo ≤ i) && decide (i ≤ g.shi)
def Graph.hasQueue (g : Graph) (q : Nat) : Bool := decide (g.qlo ≤ q) && decide (q ≤ g.qhi)
/-- Whether this device finds a graph quiescent, but for the counts of records (R358, R409). -/
def graphQuiet (s : State) (g : Graph) (p : Part) : Bool :=
  let runs (n : Nbhd) : Bool := n.part == g.part && !n.agent && g.hasStage n.stage.sid
  p.queues.all (fun q => !g.hasQueue q.1 || !q.2.here s || (qhdr s q.2.hdr).backlog == 0) &&
  s.nbhds.all (fun n => !runs n.2) && s.saves.all (fun v => !runs v.2.nb) &&
  s.outbound.all (fun o => o.2.part != g.part || !g.hasQueue o.2.queue || o.2.recs.isEmpty) &&
  s.cmds.all (fun c => c.part != g.part || c.left == 0 || !((c.opc == 3 && g.hasQueue c.sid) || (c.opc == 2 && g.hasStage c.sid)))
/-- Whether every command that follows a graph's in its ring, up to the first that is not ready, has started (R409); none is ready while its
queue is not mapped (R362). -/
def followersStarted (s : State) (g : Graph) : Bool :=
  match (s.cmds.find? (fun c => c.id == g.cmd)).bind (fun c => (uqNow s c.uq).map (fun q => (c.uq, q))) with
  | none => true
  | some (u, q) => !((hsOf s u).isSome && cmdReady s g.part q q.rd)
/-- The graph ends: its stages and queues leave the tables, and its command completes (R358). -/
def endGraph (s : State) (i : Nat) (g : Graph) : State :=
  let done (c : Cmd) : Cmd := if c.id = g.cmd then { c with left := 0 } else c
  let s := s.updPart g.part (fun p => { p with
    stages := p.stages.keep (fun k _ => !g.hasStage k), queues := p.queues.keep (fun k _ => !g.hasQueue k) })
  { s with
    graphs := s.graphs.erase i, cmds := s.cmds.map done
    outbound := s.outbound.keep (fun _ o => !(o.part == g.part && g.hasQueue o.queue && o.recs.isEmpty)) }
/-- R358: a round with the reports of every other device of the domain; two quiescent ones with the same sent count end the graph. -/
def execTerminationRound (s : State) : Out :=
  event (fun s => (s.graphs.get? s.input.x).bind (fun g => (s.part? g.part).bind (fun p =>
    let rs := s.input.reports
    let heard := p.domain.all (fun d => d == s.devnum.toNat || rs.any (fun r => r.dev == d))
    if !heard || (!g.begun && !followersStarted s g) then none
    else
      let sent := rs.foldl (fun n r => n + r.sent) g.sent
      let recvd := rs.foldl (fun n r => n + r.received) g.recvd
      let quiet := graphQuiet s g p && rs.all (·.quiet) && sent == recvd
      if quiet && g.quiet == some sent then some (endGraph s s.input.x g)
      else some { s with graphs := s.graphs.set s.input.x { g with begun := true, quiet := if quiet then some sent else none } }))) s

end Sys2Proof.Machine
end

