-- ==== Sys2Proof/Machine/SnapEvents.lean ====
section
/-! DEFINITION. Events of the Sinter engine, and of a save that runs (R300, R307, R308, R310, R311, R314, R372). -/

namespace Sys2Proof.Machine
open Bits

/-! ## The Sinter engine -/

/-- The writer that a trace names for the engine (Table 19-3). -/
def sinter : Who := { agent := 6 }
/-- A line's capture tag written; an unlisted tag is 0. -/
def setTag (s : State) (line tag : Nat) : State := { s with tags := if tag = 0 then s.tags.erase line else s.tags.set line tag }
/-- The region of the input, where its engine runs in a state. -/
def atRegion (st : Nat) (f : State → Region → State) (s : State) : Option State :=
  match s.regions.get? s.input.x with
  | none => none
  | some r => if r.st = st then some (f s r) else none
/-- The end of an operation: the region is IDLE, and its instruction goes on (R313). -/
def idleAgain (s : State) (slot : Nat) (f : Region → Region) : State :=
  s.updRegion slot (fun r => { f r with st := 0, issuer := none })
/-- The start index of the innermost level, and the epoch of the one before it (R301). -/
def Region.start (r : Region) : Nat := (r.levels.getLast?.getD (0, 0)).2
def Region.parentEpoch (r : Region) : Nat := ((r.levels.dropLast).getLast?.getD (0, 0)).1
/-- The entries of the innermost level, in ascending order. -/
def Region.entries (s : State) (r : Region) : List (Nat × Nat × List Byte) :=
  (List.range (r.n - r.start)).map (fun i => poolEntry s r.poolPages (r.start + i))
/-- Entries written to a pool from an index upward. -/
def putEntries (s : State) (pages : List Nat) : Nat → List (Nat × Nat × List Byte) → State
  | _, [] => s
  | i, e :: l => putEntries (s.perform sinter (poolEntryCells pages i e.1 e.2.1 e.2.2)) pages (i + 1) l
/-- R307: the entries whose line the parent has captured already are dropped, and the others move down. -/
def execSinterMergeDone (s : State) : Out :=
  event (atRegion 2 (fun s r =>
    let kept := (Region.entries s r).filter (fun e => decide (e.2.1 < r.parentEpoch))
    idleAgain (putEntries s r.poolPages r.start kept) s.input.x (fun r =>
      { r with n := r.start + kept.length, depth := r.depth - 1, levels := r.levels.dropLast, exhausted := false }))) s
/-- One entry restored: the line's bytes and its tag (R308, step 4). -/
def restoreEntry (e : Nat × Nat × List Byte) (s : State) : State := setTag (s.perform sinter (cellsAt e.1 e.2.2)) (e.1 / 256) e.2.1
/-- The lines of a region added to the SIG of the core that issued the reject; where its neighbourhood is saved, to the saved one. -/
def addRegion (s : State) (r : Region) : State :=
  match r.issuer with
  | none => s
  | some (key, _) =>
    if key / 48 < 384 then r.lines64.foldl (fun s pa => addLine s (key / 48) (key % 48) pa) s
    else
      let sig := r.lines64.foldl (fun (v : BitVec 512) pa => v ||| sigOf (pa / 64)) 0
      let num := (key / 48 - 1000) / 24
      let add (x : Nat × BitVec 512) : Nat × BitVec 512 := if x.1 = (key / 48 - 1000) % 24 then (x.1, x.2 ||| sig) else x
      { s with saves := s.saves.modify (fun v => { v with sigs := v.sigs.map add }) num }
/-- R308, steps 4 and 5: the newest entry is restored first. -/
def execSinterRestoreDone (s : State) : Out :=
  event (atRegion 1 (fun s r =>
    let s := (Region.entries s r).foldr restoreEntry s
    idleAgain (addRegion s r) s.input.x (fun r => { r with n := r.start, depth := r.depth - 1, levels := r.levels.dropLast, exhausted := false }))) s
/-- R310: the entries in use are copied to the new pool, and the old pool's pages are unmarked. -/
def execSinterGrowDone (s : State) : Out :=
  event (atRegion 4 (fun s r =>
    let s := putEntries s r.newPages 0 ((List.range r.n).map (poolEntry s r.poolPages))
    let gone (p : Nat) : Bool := r.poolPages.contains p && !r.newPages.contains p
    idleAgain { s with pageMap := s.pageMap.keep (fun p _ => !gone p) } s.input.x (fun r =>
      { r with pool := r.newPool, pent := r.newPent, poolPages := r.newPages, newPool := 0, newPent := 0, newPages := [], exhausted := false }))) s
/-- Every tag of a region set to 0. -/
def clearTags (s : State) (r : Region) : State := { s with tags := r.tagKeys.foldl NMap.erase s.tags }
/-- R311. -/
def execSinterSweepDone (s : State) : Out :=
  event (atRegion 3 (fun s r => idleAgain (clearTags s r) s.input.x (fun r => { r with e := 0 }))) s
/-- R314. -/
def execSnapdefTagsDone (s : State) : Out :=
  event (atRegion 5 (fun s r => idleAgain (clearTags s r) s.input.x (fun r => r))) s

/-! ## A save that runs -/

/-- A save that is under way. -/
def savingOp (s : State) (id : Nat) : Option SaveOp := s.saveOps.find? (fun o => o.id == id && !o.restore && !o.done)
/-- R372, step 4: a sequencer that reaches no MSAFE in 2^20 clocks is saved in full; one that has reached its safe point is not. -/
def execSequencerSaveTimeout (s : State) : Out :=
  event (fun s => (savingOp s s.input.x).bind (fun o =>
    let mine := ((nbList s o.nb).filter (fun b => (b.2.seq.map (fun q => !seqSaved q false)).getD false)).map (·.1)
    let late (x : SaveOp) : SaveOp := if x.id = o.id then { x with late := (x.late ++ mine).dedup } else x
    if o.since + 2 ^ 20 ≤ s.clock ∧ !mine.isEmpty then some { s with saveOps := s.saveOps.map late } else none)) s
/-- Steps 1 and 2 of R133 on the cores of a neighbourhood. -/
def settleCores (s : State) (nb : Nat) : State :=
  (nbList s nb).foldl (fun s b => sendContrib (flushL1 (b.1 / 8) s).2 (b.1 / 8) none) s
/-- PREEMPT, which the firmware agent of the anchor core takes (Table 17-2); an agent whose context has no handler takes none (DESIGN CHOICE,
log 56). -/
def preemptTrap (s : State) (o : SaveOp) : State :=
  let c := o.anchor % 512
  let taken (x : SaveOp) : SaveOp := if x.id = o.id then { x with taken := true } else x
  let s := { s with saveOps := s.saveOps.map taken }
  match s.group? c Config.agentSlot with
  | none => s
  | some g =>
    if (s.ctx (s.nbhdOf g).ctx).tvec = 0 then s
    else trapOrPend s c Config.agentSlot 0 0 { cause := 0x60, info := BitVec.ofNat 64 o.anchor, addr := BitVec.ofNat 64 o.area }
/-- R372: the agent takes PREEMPT; then the neighbourhood's stores are placed, and once all else has drained it leaves its cores. -/
def execPreempt (s : State) : Out :=
  event (fun s => (savingOp s s.input.x).bind (fun o => (s.nbhd? o.nb).map (fun n =>
    if !o.taken then preemptTrap s o
    else
      let s := settleCores s o.nb
      if saveReady s o.nb o.late then saveNow s o n else s))) s

end Sys2Proof.Machine
end

