-- ==== Sys2Proof/Machine/HostEvents.lean ====
section
/-! DEFINITION. Events of the host: its accesses to the windows, the control window and the tables that its driver loads, interrupts,
stops, dumps and samples (R300, R306, R341, R362, R363, R380 to R386, R391 to R395). -/

namespace Sys2Proof.Machine
open Bits

/-! ## Accesses of the host -/

/-- The writer that a trace names for the host (Table 19-3). -/
def hostWho : Who := { agent := 5 }
/-- Whether the windows of the host answer: from step 5 of start-up on (R380). -/
def hostServed (s : State) : Bool := decide (5 ≤ s.mgmt.step)
/-- Whether n bytes lie within the HBM ranges of a partition (Table 18-1), each of them in one of the ranges and none of a counter (R356,
log 57). -/
def inRanges (s : State) (part a n : Nat) : Bool :=
  ((s.part? part).map (fun p =>
    (List.range n).all (fun k => p.desc.ranges.any (fun r => decide (r.1 ≤ a + k) && decide (a + k < r.1 + r.2))))).getD false && !meetsCounter s a n
/-- A completion to the host, and an error completion, with the tag of the access. -/
def completion (s : State) (tag : Nat) (data : List Byte) : State := answer s s.devnum.toNat 3 tag 0 data
def errorCompletion (s : State) (tag : Nat) : State := answer s s.devnum.toNat 4 tag 0 []
/-- A write of the host to its own memory, which the link does not carry. -/
def ownMemory (s : State) (a : Nat) (bs : List Byte) : Option State :=
  if Config.hostBase ≤ a ∧ a + bs.length ≤ Config.hostBase + s.hostSize then some (s.poke (cellsAt a bs)) else none
/-- An access that its home slice holds: it finds no room (R306), or waits for the region, behind those that came before it (R308). -/
def heldAtSlice (s : State) (i : Input) (kind : Nat) : State := { s with hostHeld := s.hostHeld.set i.port (kind, i) }
/-- A channel of the link among those that wait at a home slice. -/
def fromHost (port : Nat) (w : SliceParty) : Bool := w == .host port
/-- The end of a write or an atomic of the host at its home slice: `good` completes it, `bad` answers one to a shadow pool (R300). -/
def hostDone (i : Input) (kind : Nat) (good bad : State → State) : WRes → State
  | .done s => good (leavePlaces s (.host i.port))
  | .noRoom k s => heldAtSlice (exhaust (leavePlaces s (.host i.port)) k) i kind
  | .poolPage s => bad (logError s i.part 10 0 0 none (homeDie i.addr) i.addr 0)
  | .waits k s => heldAtSlice (joinPlace k (.host i.port) 0 s) i kind
/-- A posted write of the host, performed at its home (R380). -/
def hostWriteNow (s : State) (i : Input) : State :=
  hostDone i 0 id id (homeAll (fromHost i.port) hostWho (byLine (cellsAt i.addr i.bytes)) s)
/-- An atomic of the host, performed at its home slice; a compare and swap that does not match is a write of no bytes (R303). -/
def hostAtomicNow (s : State) (i : Input) : State :=
  let a := carriedAtom i.op i.y i.value.toNat
  let old := Memory.le s.mem i.addr a.n
  hostDone i 1 (fun s => completion s i.x (bytesOf a.n old)) (fun s => errorCompletion s i.x)
    (homeAt (fromHost i.port) hostWho i.addr (((atomNew a old).map (fun v => cellsAt i.addr (bytesOf a.n v))).getD []) s)
/-- A read of the memory window by the host, performed at its home; one whose check fails is answered by an error completion (R104, R110,
R111). -/
def hostReadNow (s : State) (i : Input) : State :=
  match (List.range i.len).findSome? (fun k => homeWaits (fromHost i.port) s (i.addr + k) false) with
  | some k => heldAtSlice (joinPlace k (.host i.port) 0 s) i 2
  | none =>
    let s := leavePlaces s (.host i.port)
    let us := ((List.range i.len).map (fun k => memUnit (i.addr + k))).dedup
    if (errIn s us).isSome then errorCompletion (countErrs s us) i.x
    else completion (countErrs s us) i.x (Memory.read s.mem i.addr i.len)
/-- What a home slice holds of a channel, judged again. -/
def hostAgain (s : State) (h : Nat × Input) : State :=
  let s := { s with hostHeld := s.hostHeld.erase h.2.port }
  match h.1 with
  | 0 => hostWriteNow s h.2
  | 1 => hostAtomicNow s h.2
  | _ => hostReadNow s h.2
/-- R300, R306, R380, R381: a posted write is performed at its home; one outside the ranges is dropped, counted and logged; one that
finds no room or waits is held, and its channel with it. With operation 1 the host writes its own memory; with operation 2 a home slice
judges again what it holds of a channel. -/
def execHostWrite (s : State) : Out :=
  event (fun s =>
    let i := s.input
    if i.op = 1 then ownMemory s i.addr i.bytes
    else if i.op = 2 then (s.hostHeld.get? i.port).map (hostAgain s)
    else if !hostServed s || !channelOpen s i.port then none
    else if !inRanges s i.part i.addr i.bytes.length then
      some (logError (s.updPart i.part (fun p => { p with dropped := p.dropped + 1 })) i.part 8 0 0 none (homeDie i.addr) i.addr 0)
    else some (hostWriteNow s i)) s
/-- A register of the control window that the host reads: the indices and counts of the rings, the vector table base (9), RESET (10),
1 while a reset goes on, the corrected errors of a die (16 to 23), the progress counters (32 to 39), the marks of
the trials (from 1024, each a clock and eight counters; R396) and the words of the error log (from 2^20; R384). -/
def controlRead (s : State) (part n : Nat) : Nat :=
  match s.part? part with
  | none => 0
  | some p =>
    match n with
    | 0 => p.widx
    | 1 => p.ridx
    | 2 => p.lost
    | 3 => p.dropped
    | 4 => p.bells
    | 5 => p.trace.w
    | 6 => p.trace.lost
    | 7 => p.sample.w
    | 8 => p.sample.lost
    | 9 => p.desc.ivt
    | 10 => if p.resetting then 1 else 0
    | _ => if 16 ≤ n ∧ n < 24 then (s.die (n - 16)).corrected else if 32 ≤ n ∧ n < 40 then p.progress.getD (n - 32) 0
      else if n < 1024 then 0
      else if n < 2 ^ 20 then (p.trials.flatMap (fun t => t.1 :: t.2)).getD (n - 1024) 0
      else if n - 2 ^ 20 < 4 * p.desc.logent then Memory.le s.mem (p.desc.logbase + 8 * (n - 2 ^ 20)) 8 else 0
/-- R104, R380, R381: a read of the memory window at the home slice; of the control window (1); of the boot status word (2), which
answers at any time (R388); of the doorbell window (3), the write pointer of a user queue of the partition (R362). A read passes no earlier
write of its channel. -/
def execHostRead (s : State) : Out :=
  event (fun s =>
    let i := s.input
    if i.op = 2 then some (completion s i.x (bytesOf 8 (s.mgmt.step + 256 * s.mgmt.failure)))
    else if !hostServed s then some (errorCompletion s i.x)
    else if !channelOpen s i.port then none
    else if i.op = 1 then some (completion s i.x (bytesOf 8 (controlRead s i.part i.idx)))
    else if i.op = 3 then
      (match (s.part? i.part), uqNow s (i.addr / 8) with
        | some p, some q => if p.desc.uqlo ≤ i.addr / 8 ∧ i.addr / 8 ≤ p.desc.uqhi ∧ i.addr % 8 = 0 then some (completion s i.x (bytesOf 8 q.wr))
          else some (errorCompletion (logError s i.part 8 0 0 none 0 i.addr 0) i.x)
        | _, _ => some (errorCompletion (logError s i.part 8 0 0 none 0 i.addr 0) i.x))
    else if !inRanges s i.part i.addr i.len then some (errorCompletion (logError s i.part 8 0 0 none (homeDie i.addr) i.addr 0) i.x)
    else some (hostReadNow s i)) s
/-- R300, R306, R380: an atomic of the host at the home slice; its operation is carried as a peer's is. -/
def execHostAtomic (s : State) : Out :=
  event (fun s =>
    let i := s.input
    if !hostServed s then some (errorCompletion s i.x)
    else if !channelOpen s i.port then none
    else if !inRanges s i.part i.addr (i.op / 16 % 16) then some (errorCompletion (logError s i.part 8 0 0 none (homeDie i.addr) i.addr 0) i.x)
    else some (hostAtomicNow s i)) s

/-! ## The control window, and what the driver loads -/

/-- A stage record (Table 2-6) with its tile-file record (R50) and what the driver adds: the ticket counter, the context, the extent of the
chip scratchpad and the place of the tile backing areas (log 16). -/
def stageRecord (b : List Byte) (x : List Nat) : Stage :=
  let ids (o : Nat) : List Nat := (List.range 8).map (fun k => leAt b (o + 2 * k) 2)
  { sid := leAt b 4 2, rows := leAt b 6 1, cols := leAt b 7 1, groups := leAt b 8 1, seq := bit (leAt b 9 1) 0, vregs := leAt b 10 2
    roles := leAt b 12 4, scratch := leAt b 16 4, lslice := leAt b 20 2, weight := leAt b 22 2, batch := leAt b 24 1, nin := leAt b 25 1
    nout := leAt b 26 1, linger := leAt b 28 4, sentry := BitVec.ofNat 64 (leAt b 32 8), lbase := BitVec.ofNat 64 (leAt b 40 8)
    mbase := BitVec.ofNat 64 (leAt b 48 8), trapspill := leAt b 56 4, ins := ids 64, outs := ids 80
    tileFile := x.getD 0 0 != 0, reserve := x.getD 1 0, backing := x.getD 2 0, ctr := x.getD 3 0, ctx := x.getD 4 0
    chipBase := x.getD 5 0, chipLen := x.getD 6 0, rolesOn := bit (leAt b 9 1) 1, backAt := x.getD 7 0 }
/-- What the loader asks of a stage record before the first launch: the values of Table 2-6 (R4, R49) and the checks of R55. -/
def stageFits (b : List Byte) (x : List Nat) : Bool :=
  let t := stageRecord b x
  decide (1 ≤ t.rows ∧ t.rows ≤ 6 ∧ 1 ≤ t.cols ∧ t.cols ≤ 8 ∧ t.rows * t.cols ≤ 24) && decide (1 ≤ t.groups ∧ t.groups ≤ 16) &&
  decide (leAt b 9 1 < 4 ∧ 16 ≤ t.vregs ∧ t.vregs ≤ 256) && (List.range 16).all (fun g => field t.roles (2 * g) 2 != 3) &&
  decide (1 ≤ t.batch ∧ t.batch ≤ 32 ∧ t.nin ≤ 8 ∧ t.nout ≤ 8) && decide (leAt b 0x1B 1 = 0 ∧ leAt b 0x3C 4 = 0) &&
  decide (t.scratch + t.reserve ≤ Config.spadBytes ∧ 32 * t.groups * t.lslice ≤ t.scratch)
/-- A queue-table entry: the header's address, the home device, and whether it is remote (R50, R341). -/
def queueEntry (x : List Nat) : Queue := { hdr := x.getD 0 0, dev := x.getD 1 0 % 16384, remote := x.getD 2 0 != 0 }
/-- Consecutive numbers as pairs. -/
def pairsOf : List Nat → List (Nat × Nat)
  | a :: b :: l => (a, b) :: pairsOf l
  | _ => []
/-- A change of the partition of the input. -/
def onPart (s : State) (f : Part → Part) : Option State := (s.part? s.input.part).map (fun _ => s.updPart s.input.part f)
/-- A queue control block that the driver writes (R363); it is routed to a die on which its partition owns a quad (R362). -/
def writeQcb (s : State) (u : Nat) (x : List Nat) : Option State :=
  (uqPart s u).bind (fun p =>
    let die := x.getD 5 0 % 8
    if x.getD 1 0 < 4 ∨ 16 < x.getD 1 0 ∨ 15 < x.getD 2 0 ∨ !(partDies s p.1).contains die then none
    else some { s with uqs := s.uqs.set u { rbase := x.getD 0 0, rsize := x.getD 1 0, prio := x.getD 2 0, rd := x.getD 3 0, wr := x.getD 4 0, die } })
/-- R380, R384, R394, R395, and the driver's tables (R49, R50, R102, R103, R341, R363, R390). The input's operation names the register
or the table: 0 RIDX, 1 the vector table base, 2 a watched region, 3 and 4 the trace ring and its read index, 5 and 6 the sample ring and
its read index, 7 the sample period; 16 a stage, 17 a queue, 18 the domain, 19 the export ranges, 20 an outbound weight, 21 a queue
control block, 22 a context, 24 a die's power cap, within the module's (Table 18-7). -/
def controlWrite (s : State) : Option State :=
  let i := s.input
  let n (k : Nat) : Nat := i.nums.getD k 0
  match i.op with
  | 0 => onPart s (fun p => { p with ridx := n 0 })
  | 1 => onPart s (fun p => { p with desc := { p.desc with ivt := n 0 } })
  | 2 => if n 0 % 8 ≠ 0 ∨ n 1 % 8 ≠ 0 then none
    else onPart s (fun p => { p with watch := if n 1 = 0 then p.watch.erase (i.idx % 8) else p.watch.set (i.idx % 8) (n 0, n 1, n 2 % 4) })
  | 3 => onPart s (fun p => { p with trace := { base := n 0, size := n 1 } })
  | 4 => onPart s (fun p => { p with trace := { p.trace with r := n 0 } })
  | 5 => onPart s (fun p => { p with sample := { base := n 0, size := n 1 } })
  | 6 => onPart s (fun p => { p with sample := { p.sample with r := n 0 } })
  | 7 => (s.part? i.part).map (fun p =>
    let cores := partCores p
    let s := s.updPart i.part (fun p => { p with period := n 0 % 65536, sampleStart := s.clock })
    cores.foldl (fun s c => s.updCore c (fun k => { k with samples := 0, sampleIdx := 0 })) s)
  | 16 =>
    if stageFits i.bytes i.nums then
      onPart s (fun p => { p with stages := p.stages.set (leAt i.bytes 4 2) { stageRecord i.bytes i.nums with running := ((p.stages.get? (leAt i.bytes 4 2)).map (·.running)).getD 0 } })
    else none
  | 17 => onPart s (fun p => { p with queues := p.queues.set (i.idx % 65536) (queueEntry i.nums) })
  | 18 => onPart s (fun p => { p with domain := i.nums })
  | 19 => onPart s (fun p => { p with exports := pairsOf i.nums })
  | 20 =>
    let o := outboundOf s i.part (n 0 % 16384) (i.idx % 65536)
    onPart { s with outbound := s.outbound.set (outKey i.part (n 0 % 16384) (i.idx % 65536)) { o with weight := n 1 % 65536, byDriver := true } } (fun p => p)
  | 21 => writeQcb s (i.idx % 1024) i.nums
  | 22 => onPart { s with ctxs := s.ctxs.set i.idx { s.ctx i.idx with part := i.part } } (fun p => p)
  | 24 => if s.mgmt.pcap < n 0 + (((List.range 8).filter (· != i.die % 8)).map (fun d => (s.die d).cap)).sum then none
    else some (s.updDie (i.die % 8) (fun d => { d with cap := n 0 }))
  | _ => none
def execControlWindowWrite (s : State) : Out := event (fun s => if hostServed s && channelOpen s s.input.port then controlWrite s else none) s
/-- R386: a reset begins, at the request of the host or of the management processor; of a partition that resets, the reset ends. -/
def execPartitionReset (s : State) : Out :=
  event (fun s => (s.part? s.input.part).map (fun p => if p.resetting then finishReset s s.input.part else resetPartition s s.input.part)) s

/-! ## Interrupts and host memory -/

/-- R383: a pending message goes out once its vector is enabled, none of it is in flight, and the partition's earlier writes are
accepted. -/
def execVectorPendingSend (s : State) : Out :=
  event (fun s => (s.part? s.input.part).bind (fun q =>
    let p := s.input.part
    let v := s.input.idx % 64
    let a := vectorAt s p v + 12
    let ctl := Memory.le s.mem a 4
    if bit ctl 0 && bit ctl 1 && !bit q.inflight v && !hostPending s p then
      some (sendVector (s.putOwn (cellsAt a (bytesOf 4 (setBit ctl 1 false)))) p v)
    else none)) s
/-- R121, R133, R383: host memory accepts a write of the device, and the home slice no longer holds its line dirty; a message that it accepts
is no longer in flight. -/
def execAcceptedByHostMemory (s : State) : Out :=
  event (fun s => (s.hostWrites.find? (fun h => h.1 == s.input.x)).map (fun h =>
    let s := { s with hostWrites := s.hostWrites.filter (fun x => x.1 != h.1) }
    if 10 ^ 6 ≤ h.2.1 ∧ h.2.1 < 10 ^ 6 + 1024 then
      s.updPart ((h.2.1 - 10 ^ 6) / 64) (fun p => { p with inflight := setBit p.inflight ((h.2.1 - 10 ^ 6) % 64) false })
    else if isHbm h.2.2 then s else updL2 s (h.2.2 / 256) (fun l => { l with dirty := 0 }))) s

/-! ## Stops -/

/-- R393. -/
def execDbgen (s : State) : Out := event (fun s => onPart s (fun p => { p with dbgen := bit s.input.value.toNat 0 })) s
/-- The block that a debug command names, and the blocks that it concerns: the bit NBHD takes the neighbourhood (Table 19-2). -/
def debugBlocks (s : State) : Option (List Nat) :=
  let b := s.input.core % 384 * 8 + s.input.slot % 8
  (s.block? b).bind (fun x =>
    if partOfBlock s b ≠ s.input.part then none
    else some (if s.input.ok then nbBlocks s x.nb else [b]))
/-- R392: the streams of the blocks issue no more. -/
def execDebugStop (s : State) : Out :=
  event (fun s => (debugBlocks s).map (fun l =>
    l.foldl (fun s b => s.updBlock b (fun x => if x.stopped then x else { x with stopped := true, dumped := false, cause := 0 })) s)) s
/-- R392: what a stop halted goes on. -/
def execDebugResume (s : State) : Out :=
  event (fun s => (debugBlocks s).map (fun l =>
    l.foldl (fun s b =>
      let s := s.updBlock b (fun x => { x with stopped := false, dumped := false, cause := 0 })
      ((s.block? b).map (·.groups)).getD [] |>.foldl (fun s sl => s.updGroup (b / 8) sl (fun g => { g with stepOne := false })) s) s)) s
/-- R392: the named group of a stopped block issues one instruction. -/
def execDebugStep (s : State) : Out :=
  event (fun s =>
    let b := s.input.core % 384 * 8 + s.input.slot % 8
    (s.block? b).bind (fun x =>
      if !x.stopped || partOfBlock s b ≠ s.input.part || !x.groups.contains s.input.idx then none
      else some (s.updGroup (b / 8) s.input.idx (fun g => { g with stepOne := true })))) s
/-- A group of a stopped block has issued its instruction: the block stops again, with cause STEP where DBGEN is 1 (R392, R393). -/
def stepped (s : State) (c sl : Nat) : State :=
  match s.group? c sl with
  | none => s
  | some g =>
    if !g.stepOne then s
    else
      let dbg := ((s.part? (s.nbhdOf g).part).map (·.dbgen)).getD false
      (s.setGroup c sl { g with stepOne := false }).updBlock g.block (fun b => { b with dumped := false, cause := if dbg then 0x52 else b.cause })
/-- The identity fields of a record (Table 19-1). -/
def identityBytes (s : State) (c sl b wide : Nat) : List Byte :=
  let (site, anchor, k, sid, ticket, bpc) := identity s c sl (some b)
  bytesOf 2 site ++ bytesOf 1 anchor ++ bytesOf 1 k ++ bytesOf 2 sid ++ bytesOf wide ticket ++ bytesOf 4 bpc
/-- EXPECT, COUNT and PHASE. -/
def phaseBytes (e c p : Nat) : List Byte := bytesOf 2 e ++ bytesOf 2 c ++ bytesOf 1 p
/-- The dump of a block (R392): cause, identity, each group's scalar PC with its park reason and its split entries as Table 17-6 has them, which
hold theirs, the matrix PC with its reason, the numbered barriers, and the BAR entries at which a group has arrived. -/
def dumpBytes (s : State) (b : Nat) (x : Block) : List Byte :=
  let part := partOfBlock s b
  let one (sl : Nat) : List Byte := match s.group? (b / 8) sl with
    | none => []
    | some g => bytesOf 8 g.spc.toNat ++ bytesOf 1 ((g.park.map (·.reason)).getD 11) ++
      (List.range 4).flatMap (fun k => splitBytes ((g.lb.map (fun l => l.splits.getD k {})).getD {}))
  let bar (k : Nat) : List Byte := let e := barEntry s part k; bytesOf 4 k ++ phaseBytes e.expect e.count e.phase
  bytesOf 1 x.cause ++ identityBytes s (b / 8) (x.groups.headD 0) b 8 ++ x.groups.flatMap one ++
  (match x.seq with
    | none => []
    | some q => bytesOf 4 q.pc ++ bytesOf 1 ((q.park.map (·.reason)).getD 11)) ++
  (List.range 16).flatMap (fun n => let e := x.nbs.getD n {}; phaseBytes e.expect e.count e.phase) ++ x.arrivals.flatMap bar
/-- R392: the dump is written when every block that stops has stopped, and what was in flight has completed. -/
def execStopDump (s : State) : Out :=
  event (fun s => (debugBlocks s).bind (fun l =>
    let due (b : Nat) : Bool := match s.block? b with
      | none => false
      | some x => x.stopped && !x.dumped && x.groups.all (fun sl => match s.group? (b / 8) sl with
        | none => true
        | some g => g.prod.isEmpty && !((s.core (b / 8)).loads.any (fun y => y.slot == sl))) && ((x.seq.map (fun q => q.flights.all (fun f => !f.complete))).getD true)
    if !l.all due then none
    else some (l.foldl (fun s b =>
      let x := (s.block? b).getD default
      (s.updPart s.input.part (fun p => { p with dumps := p.dumps ++ [(b, dumpBytes s b x)] })).updBlock b (fun x => { x with dumped := true })) s))) s

/-! ## Samples -/

/-- A member of a core's rotation: its groups in slot order, then the sequencers in block-slot order; numbered 0 to 46 and 48 to 55,
the agent's slot 47 between them. -/
def rotation (s : State) (c : Nat) : List Nat :=
  (s.groups.keys.filter (fun k => k / 48 == c)).map (· % 48) ++
  ((s.blocks.filter (fun b => b.1 / 8 == c && b.2.seq.isSome)).map (fun b => 48 + b.1 % 8))
/-- Whether a stream that may issue has issued in the sampled clock, of four that the number k tells apart (log 40). -/
def sampledIssue (s : State) (k : Nat) : Bool := Config.choice ((s.tick * 4 + k) * 8 + 2)
/-- What a sample reports of a stream: the first reason of Table 19-4 that holds, where it is parked, halted by a stop or a save, held by a
trial, or has issued. -/
def reasonOf (p : Option Park) (halted held issued : Bool) : Nat :=
  match p with
  | some x => if held && x.reason == 11 then 10 else x.reason
  | none => if held then 10 else if halted then 11 else if issued then 0 else 1
/-- A group's sample: PC, reason, and the byte of stream, split and mode (Table 19-5). It reports the split that issued in the clock, or the
lowest valid one, or the scalar stream where no lane block runs (R395). -/
def groupSample (s : State) (g : Group) : Nat × Nat × Nat :=
  let tm := if g.trapMode then 16 else 0
  let halted := (s.blockOf g).stopped || (s.nbhdOf g).saving
  let held (k : Nat) : Bool := decide (s.clock < g.laneHold.getD k 0)
  let valid : List (Nat × Split) := (g.lanes.map (fun b => ((List.range 4).map (fun k => (k, b.at k))).filter (fun x => x.2.valid))).getD []
  match (valid.find? (fun x => x.2.park.isNone && !halted && !held x.1 && sampledIssue s x.1)), valid.head? with
  | some (k, x), _ => (x.pc.toNat, 0, 4 * k + tm)
  | none, some (k, x) => (x.pc.toNat, reasonOf x.park halted (held k) false, 4 * k + tm)
  | none, none => (g.spc.toNat, reasonOf g.park halted (decide (s.clock < g.hold)) (sampledIssue s 0), 1 + tm)
def memberSample (s : State) (c m : Nat) : (Nat × Nat × Nat) × Nat × Nat :=
  if m < 48 then
    let g := (s.group? c m).getD default
    (groupSample s g, m, g.block)
  else
    let b := c * 8 + (m - 48)
    let x := (s.block? b).getD default
    let q := x.seq.getD {}
    ((q.pc, reasonOf q.park (x.stopped || q.stopped || ((s.nbhd? x.nb).map (·.saving)).getD false) false (sampledIssue s 0), 2), 47, b)
/-- R395: one sample of a core at each period. -/
def execStallSample (s : State) : Out :=
  event (fun s =>
    let c := s.input.core % 384
    (s.parts.findV (fun _ p => (partCores p).contains c)).bind (fun r =>
      let p := r.2
      let k := s.core c
      if p.period = 0 ∨ (s.clock - p.sampleStart) / p.period ≤ k.samples then none
      else
        let l := rotation s c
        let next := (l.find? (fun m => decide (k.sampleIdx ≤ m))).or l.head?
        match next with
        | none => some (s.updCore c (fun k => { k with samples := k.samples + 1 }))
        | some m =>
          let ((pc, reason, kind), sl, b) := memberSample s c m
          let (site, anchor, ki, sid, ticket, bpc) := identity s c sl (some b)
          let bytes := bytesOf 8 (p.sampleStart + (k.samples + 1) * p.period) ++ bytesOf 4 pc ++ bytesOf 2 sid ++ bytesOf 1 reason ++ bytesOf 1 kind ++ bytesOf 4 ticket ++
            bytesOf 4 bpc ++ bytesOf 2 site ++ bytesOf 1 anchor ++ bytesOf 1 ki ++ bytesOf 4 p.sample.lost
          let full := decide (p.sample.size ≤ p.sample.w - p.sample.r)
          let t := ringPut s p.sample bytes
          let ring := if full then t.2 else { t.2 with lost := 0 }
          some ((t.1.updPart r.1 (fun p => { p with sample := ring })).updCore c (fun k => { k with samples := k.samples + 1, sampleIdx := m + 1 })))) s

end Sys2Proof.Machine
end

