-- ==== Sys2Proof/Machine/LaneFloat.lean ====
section
/-! DEFINITION. Lane floating-point instructions (R229 to R239). -/

namespace Sys2Proof.Machine
open Bits Numbers

/-- How a lane floating result is finished. -/
def finL3 (w : L3) (e : LaneEnv) : Alu.Fin := ⟨modeNoRsr w.rm e.sp.fmtr, w.scl.toNat, w.clp.toNat⟩
def finLI (w : LI) (e : LaneEnv) : Alu.Fin := ⟨modeNoRsr w.rm e.sp.fmtr, 0, 0⟩
/-- Words of one, two and three sources of a type code, with a result of that type. -/
def lf1 (t : Nat) (op : Alu.Fin → Nat → Nat) (w : L3) (s : State) : Out :=
  laneMap 2 w.toLaneHead (Encoding.pairFmt t) [srcA w.toLaneHead (if Encoding.pairFmt t then 2 else 1)] (fun e i => op (finL3 w e) (opA e.g w.toLaneHead t i)) s
def lf2 (t : Nat) (op : Alu.Fin → Nat → Nat → Nat) (w : L3) (s : State) : Out :=
  let n := if Encoding.pairFmt t then 2 else 1
  laneMap 2 w.toLaneHead (Encoding.pairFmt t) [srcA w.toLaneHead n, srcB w.toLaneHead n]
    (fun e i => op (finL3 w e) (opA e.g w.toLaneHead t i) (opB e.g w.toLaneHead t i)) s
def lf3 (t : Nat) (op : Alu.Fin → Nat → Nat → Nat → Nat) (w : L3) (s : State) : Out :=
  let n := if Encoding.pairFmt t then 2 else 1
  laneMap 2 w.toLaneHead (Encoding.pairFmt t) [srcA w.toLaneHead n, srcB w.toLaneHead n, srcC w n]
    (fun e i => op (finL3 w e) (opA e.g w.toLaneHead t i) (opB e.g w.toLaneHead t i) (opC e.g w t i)) s
/-- The immediate of an LI word as an operand of a type: f64 takes an FP32 pattern widened exactly (R31, R239). -/
def immF (t : Nat) (w : LI) : Nat := if t = 8 then widen f32 f64 w.imm.toNat else w.imm.toNat
def lf2i (t : Nat) (op : Alu.Fin → Nat → Nat → Nat) (w : LI) (s : State) : Out :=
  laneMap 2 w.toLaneHead (Encoding.pairFmt t) [srcA w.toLaneHead (if Encoding.pairFmt t then 2 else 1)]
    (fun e i => op (finLI w e) (opA e.g w.toLaneHead t i) (immF t w)) s
def lf3i (t : Nat) (op : Alu.Fin → Nat → Nat → Nat → Nat) (w : LI) (s : State) : Out :=
  let n := if Encoding.pairFmt t then 2 else 1
  laneMap 2 w.toLaneHead (Encoding.pairFmt t) [srcA w.toLaneHead n, srcB w.toLaneHead n]
    (fun e i => op (finLI w e) (opA e.g w.toLaneHead t i) (opB e.g w.toLaneHead t i) (immF t w)) s
/-- Compares: the condition is AUX 2:0, or RM in an LI word (R228, R235). -/
def lfcmp (t : Nat) (f : Fmt) (w : L3) (s : State) : Out :=
  let n := if Encoding.pairFmt t then 2 else 1
  lanePred 2 w.toLaneHead [srcA w.toLaneHead n, srcB w.toLaneHead n]
    (fun e i => fcond (w.aux.toNat % 8) (value f (opA e.g w.toLaneHead t i)) (value f (opB e.g w.toLaneHead t i))) s
def lfcmpi (t : Nat) (f : Fmt) (w : LI) (s : State) : Out :=
  lanePred 2 w.toLaneHead [srcA w.toLaneHead (if Encoding.pairFmt t then 2 else 1)]
    (fun e i => fcond w.rm.toNat (value f (opA e.g w.toLaneHead t i)) (value f (immF t w))) s
/-- Words of the transcendental unit: one source, or two for FDIVC. -/
def lt1 (t : Nat) (op : Mode → Nat → Nat) (w : L3) (s : State) : Out :=
  laneTrans w.toLaneHead (Encoding.pairFmt t) [srcA w.toLaneHead (if Encoding.pairFmt t then 2 else 1)]
    (fun e i => op (modeNoRsr w.rm e.sp.fmtr) (opA e.g w.toLaneHead t i)) s

/-- R233. -/
def execFadd (w : L3) (s : State) : Out := lf2 5 (Alu.fadd f32) w s
/-- R233, R228. -/
def execFaddImm (w : LI) (s : State) : Out := lf2i 5 (Alu.fadd f32) w s
/-- R233. -/
def execFmul (w : L3) (s : State) : Out := lf2 5 (Alu.fmul f32) w s
/-- R233, R228. -/
def execFmulImm (w : LI) (s : State) : Out := lf2i 5 (Alu.fmul f32) w s
/-- R233. -/
def execFfma (w : L3) (s : State) : Out := lf3 5 (Alu.ffma f32) w s
/-- R233; the immediate is C (R228). -/
def execFfmaImm (w : LI) (s : State) : Out := lf3i 5 (Alu.ffma f32) w s
/-- R234. -/
def execFmin (w : L3) (s : State) : Out := lf2 5 (fun _ => minMax f32 false) w s
/-- R234, R228. -/
def execFminImm (w : LI) (s : State) : Out := lf2i 5 (fun _ => minMax f32 false) w s
/-- R234. -/
def execFmax (w : L3) (s : State) : Out := lf2 5 (fun _ => minMax f32 true) w s
/-- R234, R228. -/
def execFmaxImm (w : LI) (s : State) : Out := lf2i 5 (fun _ => minMax f32 true) w s
/-- R235. -/
def execFcmp (w : L3) (s : State) : Out := lfcmp 5 f32 w s
/-- R235, R228. -/
def execFcmpImm (w : LI) (s : State) : Out := lfcmpi 5 f32 w s
/-- R233. -/
def execDadd (w : L3) (s : State) : Out := lf2 8 (Alu.fadd f64) w s
/-- R233, R228. -/
def execDaddImm (w : LI) (s : State) : Out := lf2i 8 (Alu.fadd f64) w s
/-- R233. -/
def execDmul (w : L3) (s : State) : Out := lf2 8 (Alu.fmul f64) w s
/-- R233, R228. -/
def execDmulImm (w : LI) (s : State) : Out := lf2i 8 (Alu.fmul f64) w s
/-- R233. -/
def execDfma (w : L3) (s : State) : Out := lf3 8 (Alu.ffma f64) w s
/-- R233; the immediate is C (R228). -/
def execDfmaImm (w : LI) (s : State) : Out := lf3i 8 (Alu.ffma f64) w s
/-- R234. -/
def execDmin (w : L3) (s : State) : Out := lf2 8 (fun _ => minMax f64 false) w s
/-- R234, R228. -/
def execDminImm (w : LI) (s : State) : Out := lf2i 8 (fun _ => minMax f64 false) w s
/-- R234. -/
def execDmax (w : L3) (s : State) : Out := lf2 8 (fun _ => minMax f64 true) w s
/-- R234, R228. -/
def execDmaxImm (w : LI) (s : State) : Out := lf2i 8 (fun _ => minMax f64 true) w s
/-- R235. -/
def execDcmp (w : L3) (s : State) : Out := lfcmp 8 f64 w s
/-- R235, R228. -/
def execDcmpImm (w : LI) (s : State) : Out := lfcmpi 8 f64 w s
/-- R238. -/
def execBfadd2 (w : L3) (s : State) : Out := lf2 7 (fun o => Alu.both2 (Alu.fadd bf16 o)) w s
/-- R238. -/
def execBfadd2Imm (w : LI) (s : State) : Out := lf2i 7 (fun o => Alu.both2 (Alu.fadd bf16 o)) w s
/-- R238. -/
def execBfmul2 (w : L3) (s : State) : Out := lf2 7 (fun o => Alu.both2 (Alu.fmul bf16 o)) w s
/-- R238. -/
def execBfmul2Imm (w : LI) (s : State) : Out := lf2i 7 (fun o => Alu.both2 (Alu.fmul bf16 o)) w s
/-- R238. -/
def execBffma2 (w : L3) (s : State) : Out := lf3 7 (fun o => Alu.both3 (Alu.ffma bf16 o)) w s
/-- R238. -/
def execBffma2Imm (w : LI) (s : State) : Out := lf3i 7 (fun o => Alu.both3 (Alu.ffma bf16 o)) w s
/-- R238. -/
def execBfmin2 (w : L3) (s : State) : Out := lf2 7 (fun _ => Alu.both2 (minMax bf16 false)) w s
/-- R238. -/
def execBfmin2Imm (w : LI) (s : State) : Out := lf2i 7 (fun _ => Alu.both2 (minMax bf16 false)) w s
/-- R238. -/
def execBfmax2 (w : L3) (s : State) : Out := lf2 7 (fun _ => Alu.both2 (minMax bf16 true)) w s
/-- R238. -/
def execBfmax2Imm (w : LI) (s : State) : Out := lf2i 7 (fun _ => Alu.both2 (minMax bf16 true)) w s
/-- R236. -/
def execFrnd (w : L3) (s : State) : Out := lf1 5 (fun o => Alu.frnd f32 o.md) w s
/-- FDIVC: the transcendental unit writes it (R233, Table 10-2). -/
def execFdivc (w : L3) (s : State) : Out :=
  laneTrans w.toLaneHead false [srcA w.toLaneHead 1, srcB w.toLaneHead 1]
    (fun e i => Alu.fdiv f32 (finL3 w e) (opA e.g w.toLaneHead 5 i) (opB e.g w.toLaneHead 5 i)) s
def execFdivcImm (w : LI) (s : State) : Out :=
  laneTrans w.toLaneHead false [srcA w.toLaneHead 1]
    (fun e i => Alu.fdiv f32 (finLI w e) (opA e.g w.toLaneHead 5 i) w.imm.toNat) s
/-- R237, Table 11-5. -/
def execFrcp (w : L3) (s : State) : Out := lt1 5 (fun m => Alu.frcp f32 ⟨m, 0, 0⟩) w s
/-- R237, Table 11-5. -/
def execFrsq (w : L3) (s : State) : Out := lt1 5 (fun m => Alu.frsq f32 ⟨m, 0, 0⟩) w s
/-- R237, Table 11-5. -/
def execFsqrt (w : L3) (s : State) : Out := lt1 5 (fun m => Alu.fsqrt f32 ⟨m, 0, 0⟩) w s
/-- R237, Table 11-5. -/
def execFex2 (w : L3) (s : State) : Out := lt1 5 (Transc.ex2) w s
/-- R237, Table 11-5. -/
def execFlg2 (w : L3) (s : State) : Out := lt1 5 (Transc.lg2) w s
/-- R237, Table 11-5. -/
def execFsin (w : L3) (s : State) : Out := lt1 5 (Transc.sin) w s
/-- R237, Table 11-5. -/
def execFcos (w : L3) (s : State) : Out := lt1 5 (Transc.cos) w s
/-- R237, Table 11-5. -/
def execDrcp (w : L3) (s : State) : Out := lt1 8 (fun m => Alu.frcp f64 ⟨m, 0, 0⟩) w s
/-- R237, Table 11-5. -/
def execDrsq (w : L3) (s : State) : Out := lt1 8 (fun m => Alu.frsq f64 ⟨m, 0, 0⟩) w s
/-- R237, Table 11-5. -/
def execDsqrt (w : L3) (s : State) : Out := lt1 8 (fun m => Alu.fsqrt f64 ⟨m, 0, 0⟩) w s

end Sys2Proof.Machine
end

