-- ==== Sys2Proof/Machine/LaneInt.lean ====
section
/-! DEFINITION. Lane integer and bit instructions (R240 to R243). -/

namespace Sys2Proof.Machine
open Bits Numbers

/-- Width and signedness of a lane type code. -/
def lW (f : BitVec 4) : Nat := (Alu.intType f.toNat).1
def lSgn (f : BitVec 4) : Bool := (Alu.intType f.toNat).2
/-- The immediate of an integer LI word: sign-extended for i64, zero-extended for n64 (R228). -/
def immI (w : LI) : Nat := if w.fmt = 3 then (sext64 32 w.imm.toNat).toNat else w.imm.toNat
/-- One, two and three sources of the word's type; deny 0, so every role may issue them (Table 11-3). -/
def li1 (op : Nat → Bool → Nat → Nat) (w : L3) (s : State) : Out :=
  laneMap 0 w.toLaneHead (isPair w.fmt) [srcA w.toLaneHead (regsOf w.fmt)]
    (fun e i => op (lW w.fmt) (lSgn w.fmt) (e.g.vn (isPair w.fmt) w.sa.toNat i)) s
def li2 (op : Nat → Bool → Nat → Nat → Nat) (w : L3) (s : State) : Out :=
  laneMap 0 w.toLaneHead (isPair w.fmt) [srcA w.toLaneHead (regsOf w.fmt), srcB w.toLaneHead (regsOf w.fmt)]
    (fun e i => op (lW w.fmt) (lSgn w.fmt) (e.g.vn (isPair w.fmt) w.sa.toNat i) (e.g.vn (isPair w.fmt) w.sb.toNat i)) s
def li2i (op : Nat → Bool → Nat → Nat → Nat) (w : LI) (s : State) : Out :=
  laneMap 0 w.toLaneHead (isPair w.fmt) [srcA w.toLaneHead (regsOf w.fmt)]
    (fun e i => op (lW w.fmt) (lSgn w.fmt) (e.g.vn (isPair w.fmt) w.sa.toNat i) (immI w)) s
def li3 (op : Nat → Nat → Nat → Nat) (w : L3) (s : State) : Out :=
  laneMap 0 w.toLaneHead false [srcA w.toLaneHead 1, srcB w.toLaneHead 1, srcC w 1]
    (fun e i => op (e.g.v w.sa.toNat i).toNat (e.g.v w.sb.toNat i).toNat (e.g.v w.sc.toNat i).toNat) s
def li3i (op : Nat → Nat → Nat → Nat) (w : LI) (s : State) : Out :=
  laneMap 0 w.toLaneHead false [srcA w.toLaneHead 1, srcB w.toLaneHead 1]
    (fun e i => op (e.g.v w.sa.toNat i).toNat (e.g.v w.sb.toNat i).toNat w.imm.toNat) s
/-- Shifts: the count is a single register, or the immediate (R242). -/
def lsh (op : Nat → Nat → Nat → Nat) (w : L3) (s : State) : Out :=
  laneMap 0 w.toLaneHead (isPair w.fmt) [srcA w.toLaneHead (regsOf w.fmt), srcB w.toLaneHead 1]
    (fun e i => op (lW w.fmt) (e.g.vn (isPair w.fmt) w.sa.toNat i) ((e.g.v w.sb.toNat i).toNat % 256)) s
def lshi (op : Nat → Nat → Nat → Nat) (w : LI) (s : State) : Out :=
  laneMap 0 w.toLaneHead (isPair w.fmt) [srcA w.toLaneHead (regsOf w.fmt)]
    (fun e i => op (lW w.fmt) (e.g.vn (isPair w.fmt) w.sa.toNat i) (w.imm.toNat % 256)) s

/-- R240. -/
def execIadd (w : L3) (s : State) : Out := li2 (fun w _ => Alu.iadd w) w s
/-- R240. -/
def execIaddImm (w : LI) (s : State) : Out := li2i (fun w _ => Alu.iadd w) w s
/-- R240. -/
def execIsub (w : L3) (s : State) : Out := li2 (fun w _ => Alu.isub w) w s
/-- R240. -/
def execIsubImm (w : LI) (s : State) : Out := li2i (fun w _ => Alu.isub w) w s
/-- R240. -/
def execImul (w : L3) (s : State) : Out := li2 (fun w _ => Alu.imul w) w s
/-- R240. -/
def execImulImm (w : LI) (s : State) : Out := li2i (fun w _ => Alu.imul w) w s
/-- R240. -/
def execImulh (w : L3) (s : State) : Out := li2 (fun w g => Alu.imulh w g) w s
/-- R240. -/
def execImulhImm (w : LI) (s : State) : Out := li2i (fun w g => Alu.imulh w g) w s
/-- R240. -/
def execImin (w : L3) (s : State) : Out := li2 (fun w g => Alu.iminmax w g false) w s
/-- R240. -/
def execIminImm (w : LI) (s : State) : Out := li2i (fun w g => Alu.iminmax w g false) w s
/-- R240. -/
def execImax (w : L3) (s : State) : Out := li2 (fun w g => Alu.iminmax w g true) w s
/-- R240. -/
def execImaxImm (w : LI) (s : State) : Out := li2i (fun w g => Alu.iminmax w g true) w s
/-- R242. -/
def execLand (w : L3) (s : State) : Out := li2 (fun _ _ => Alu.band) w s
/-- R242. -/
def execLandImm (w : LI) (s : State) : Out := li2i (fun _ _ => Alu.band) w s
/-- R242. -/
def execLor (w : L3) (s : State) : Out := li2 (fun _ _ => Alu.bor) w s
/-- R242. -/
def execLorImm (w : LI) (s : State) : Out := li2i (fun _ _ => Alu.bor) w s
/-- R242. -/
def execLxor (w : L3) (s : State) : Out := li2 (fun _ _ => Alu.bxor) w s
/-- R242. -/
def execLxorImm (w : LI) (s : State) : Out := li2i (fun _ _ => Alu.bxor) w s
/-- R243. -/
def execBfe (w : L3) (s : State) : Out := li2 (fun _ g => Alu.bfe g) w s
/-- R243. -/
def execBfeImm (w : LI) (s : State) : Out := li2i (fun _ g => Alu.bfe g) w s
/-- R240. -/
def execImad (w : L3) (s : State) : Out := li3 (fun a b c => (a * b + c) % 2 ^ 32) w s
/-- R240. The immediate is C. -/
def execImadImm (w : LI) (s : State) : Out := li3i (fun a b c => (a * b + c) % 2 ^ 32) w s
/-- R243. -/
def execBfi (w : L3) (s : State) : Out := li3 (Alu.bfi) w s
/-- R243. The immediate is C. -/
def execBfiImm (w : LI) (s : State) : Out := li3i (Alu.bfi) w s
/-- R240. -/
def execIabs (w : L3) (s : State) : Out := li1 (fun w _ => Alu.iabs w) w s
/-- R240. -/
def execIneg (w : L3) (s : State) : Out := li1 (fun w _ => Alu.ineg w) w s
/-- R242. -/
def execLnot (w : L3) (s : State) : Out := li1 (fun w _ => Alu.bnot w) w s
/-- R242. -/
def execPopc (w : L3) (s : State) : Out := li1 (fun w _ => Alu.popc w) w s
/-- R242. -/
def execClz (w : L3) (s : State) : Out := li1 (fun w _ => Alu.clz w) w s
/-- R242. -/
def execBrev (w : L3) (s : State) : Out := li1 (fun w _ => Alu.brev w) w s
/-- R242. -/
def execShl (w : L3) (s : State) : Out := lsh Alu.shl w s
/-- R242. -/
def execShlImm (w : LI) (s : State) : Out := lshi Alu.shl w s
/-- R242. -/
def execShr (w : L3) (s : State) : Out := lsh Alu.shr w s
/-- R242. -/
def execShrImm (w : LI) (s : State) : Out := lshi Alu.shr w s
/-- R242. -/
def execSra (w : L3) (s : State) : Out := lsh Alu.sra w s
/-- R242. -/
def execSraImm (w : LI) (s : State) : Out := lshi Alu.sra w s
/-- ICMP (R235): AUX 2:0, or RM in the LI word, is the condition. -/
def execIcmp (w : L3) (s : State) : Out :=
  lanePred 0 w.toLaneHead [srcA w.toLaneHead (regsOf w.fmt), srcB w.toLaneHead (regsOf w.fmt)]
    (fun e i => Flags.icond (w.aux.toNat % 8) (lSgn w.fmt) (lW w.fmt) (e.g.vn (isPair w.fmt) w.sa.toNat i) (e.g.vn (isPair w.fmt) w.sb.toNat i)) s
def execIcmpImm (w : LI) (s : State) : Out :=
  lanePred 0 w.toLaneHead [srcA w.toLaneHead (regsOf w.fmt)]
    (fun e i => Flags.icond w.rm.toNat (lSgn w.fmt) (lW w.fmt) (e.g.vn (isPair w.fmt) w.sa.toNat i) (immI w)) s
/-- IADDC: sum with carry in, and the carry to PDST where it is not 0 (R241). -/
def iaddc (h : LaneHead) (cin : Nat) (srcs : List Src) (b : Group → Nat → Nat) (s : State) : Out :=
  laneRun 0 h.prd srcs [(h.dst.toNat, 1)] (fun e s =>
    let ci (i : Nat) : Nat := if cin = 0 then 0 else if (e.g.p cin).getLsbD i then 1 else 0
    let x (i : Nat) : Nat := (e.g.v h.sa.toNat i).toNat
    let m := e.exec &&& e.keep
    let co : W32 := BitVec.ofNat 32 (maskOf ((lanesOf e.exec).filter (fun i => Flags.carry 32 (x i) (b e.g i) (ci i))))
    .next (s.updGroup e.c e.sl (fun g =>
      let g := g.putLanes false h.dst.toNat m (fun i => (x i + b e.g i + ci i) % 2 ^ 32)
      if h.pdst = 0 then g else g.setP h.pdst.toNat m co))) s
def execIaddc (w : L3) (s : State) : Out :=
  iaddc w.toLaneHead (w.aux.toNat % 8) [srcA w.toLaneHead 1, srcB w.toLaneHead 1] (fun g i => (g.v w.sb.toNat i).toNat) s
def execIaddcImm (w : LI) (s : State) : Out := iaddc w.toLaneHead w.rm.toNat [srcA w.toLaneHead 1] (fun _ _ => w.imm.toNat) s

end Sys2Proof.Machine
end

