-- ==== Sys2Proof/Machine/LaneMove.lean ====
section
/-! DEFINITION. Lane moves, predicates, conversions, the format register and special values (R224 to R226, R244 to R246). -/

namespace Sys2Proof.Machine
open Bits Numbers

/-- R245: A. -/
def execMov (w : L3) (s : State) : Out :=
  laneMap 0 w.toLaneHead (isPair w.fmt) [srcA w.toLaneHead (regsOf w.fmt)] (fun e i => e.g.vn (isPair w.fmt) w.sa.toNat i) s
/-- R245: the immediate, sign-extended for i64 and zero-extended for n64. -/
def execMovi (w : LI) (s : State) : Out :=
  laneMap 0 w.toLaneHead (isPair w.fmt) [] (fun _ _ => if w.fmt = 3 then (sext64 32 w.imm.toNat).toNat else w.imm.toNat) s
/-- R245, R214: a uniform word of the lane block. -/
def execMovW (w : L3) (s : State) : Out :=
  laneMap 0 w.toLaneHead (isPair w.fmt) []
    (fun e _ =>
      let x := (((e.g.lanes.map (·.ws)).getD []).getD (w.aux.toNat % 4) 0).toNat
      if isPair w.fmt then x else x % 2 ^ 32) s
/-- R245: A where the predicate of AUX is true, else B. -/
def execSel (w : L3) (s : State) : Out :=
  laneMap 0 w.toLaneHead (isPair w.fmt) [srcA w.toLaneHead (regsOf w.fmt), srcB w.toLaneHead (regsOf w.fmt)]
    (fun e i =>
      if (e.g.p (w.aux.toNat % 8)).getLsbD i != bit w.aux.toNat 3 then e.g.vn (isPair w.fmt) w.sa.toNat i
      else e.g.vn (isPair w.fmt) w.sb.toNat i) s
/-- R245: the lane number. -/
def execLaneid (w : L3) (s : State) : Out := laneMap 0 w.toLaneHead false [] (fun _ i => i) s
/-- R246: the truth table of AUX. -/
def execPlop (w : L3) (s : State) : Out :=
  lanePred 0 w.toLaneHead []
    (fun e i =>
      let a := if (e.g.p (w.sa.toNat % 8)).getLsbD i then 2 else 0
      let b := if (e.g.p (w.sb.toNat % 8)).getLsbD i then 1 else 0
      bit w.aux.toNat (a + b)) s

/-- Elements that a CVT draws for, where it rounds by rsr (R26, R67). -/
def cvtDraws (w : L3) (fmtr : W32) : Nat :=
  let src := w.aux.toNat % 16
  if rmCode w.rm fmtr = 5 ∧ (w.fmt = 6 ∨ w.fmt = 7) ∧ Encoding.cvtClass src = 0 then (if w.fmt = 7 then 2 else 1) else 0
/-- CVT of one lane (R244) with the draws of its elements. -/
def cvtLane (w : L3) (e : LaneEnv) (i : Nat) : Nat :=
  let src := w.aux.toNat % 16
  let sat := bit w.aux.toNat 4
  let n := cvtDraws w e.sp.fmtr
  let rs := (drawsOf (e.g.rand i) n).2
  let fin (k : Nat) : Alu.Fin := ⟨if n = 0 then modeNoRsr w.rm e.sp.fmtr else modeDrawn 5 rs k, w.scl.toNat, w.clp.toNat⟩
  let a := opA e.g w.toLaneHead src i
  if w.fmt = 7 then
    let b := modOp 5 w.absb w.negb (e.g.v w.sb.toNat i).toNat
    Alu.cvt 5 6 sat (fin 0) a + 65536 * Alu.cvt 5 6 sat (fin 1) b
  else Alu.cvt src w.fmt.toNat sat (fin 0) a
/-- R244. -/
def execCvt (w : L3) (s : State) : Out :=
  let src := w.aux.toNat % 16
  let srcs := [srcA w.toLaneHead (if Encoding.pairFmt src then 2 else 1)] ++ (if w.fmt = 7 then [srcB w.toLaneHead 1] else [])
  laneRun 2 w.prd srcs [(w.dst.toNat, regsOf w.fmt)] (fun e s =>
    let m := e.exec &&& e.keep
    .next (s.updGroup e.c e.sl (fun g =>
      (g.putLanes (isPair w.fmt) w.dst.toNat m (cvtLane w e)).drawn m (cvtDraws w e.sp.fmtr)))) s

/-- R225: FMTR of the split from its lowest executing keeper. -/
def execLfmt (w : L3) (s : State) : Out :=
  laneRun 0 w.prd [srcA w.toLaneHead 1] [] (fun e s =>
    match lanesOf (e.exec &&& e.keep) with
    | [] => .next s
    | i :: _ => .next (updSplit s e.c e.sl e.k (fun x => { x with fmtr := fmtrFix (e.g.v w.sa.toNat i) }))) s

/-- A value of Table 10-6. -/
def specValue (s : State) (e : LaneEnv) (num lane : Nat) : Nat :=
  let b := s.blockOf e.g
  let n := s.nbhdOf e.g
  match num with
  | 0 => lane
  | 1 => e.g.gidx
  | 2 => e.sl
  | 3 => b.k
  | 4 => e.c
  | 5 => s.devnum.toNat
  | 6 => b.ticket.toNat % 2 ^ 32
  | 7 => b.ticket.toNat / 2 ^ 32
  | 8 => if ((e.g.lanes).bind (·.wide)).isSome then 2 ^ 32 - 1 else e.sp.mask.toNat
  | 9 => e.sp.fmtr.toNat
  | 10 => if e.g.trapMode then e.g.tssp else e.sp.ssp
  | 11 => n.stage.vregs
  | 12 => n.stage.lslice
  | 13 => n.stage.sid
  | 14 => s.clock % 2 ^ 32
  | _ => s.clock / 2 ^ 32 % 2 ^ 32
/-- R226. -/
def execRdspec (w : L3) (s : State) : Out :=
  laneMap 0 w.toLaneHead false [] (fun e i => specValue s e (w.aux.toNat % 16) i) s

end Sys2Proof.Machine
end

