-- ==== Sys2Proof/Machine/Management.lean ====
section
/-! DEFINITION. Events of the management processor: partition descriptors, start-up, attestation, power and temperature (R382, R386 to
R390, Tables 18-2, 18-6 and 18-7). -/

namespace Sys2Proof.Machine
open Bits

/-! ## Partition descriptors -/

/-- A descriptor read from its 128 bytes (Table 18-2). -/
def descOf (b : List Byte) : PartDesc :=
  { quads := leAt b 0 12, slots := leAt b 12 4, uqlo := leAt b 16 2, uqhi := leAt b 18 2, qhbm := leAt b 20 1, qnet := leAt b 21 1
    qfab := leAt b 22 1, ivt := leAt b 24 8, logbase := leAt b 32 8, logent := leAt b 40 4
    ranges := ((List.range 4).map (fun k => (leAt b (48 + 16 * k) 8, leAt b (56 + 16 * k) 8))).filter (fun r => r.2 != 0)
    caldera := leAt b 112 8 }
/-- Whether the 64 entries of a vector table lie in host memory. -/
def hostTable (s : State) (a : Nat) : Bool := decide (Config.hostBase ≤ a) && decide (a + 1024 ≤ Config.hostBase + s.hostSize)
/-- Whether a descriptor breaks a value of the table: Caldera is local HBM (R343). -/
def descBad (s : State) (part : Nat) (b : List Byte) : Bool :=
  let d := descOf b
  b.length != 128 || decide (d.uqhi < d.uqlo) || decide (1023 < d.uqhi) || d.qhbm == 0 || d.qnet == 0 || d.qfab == 0 ||
  leAt b 23 1 != 0 || leAt b 44 4 != 0 || leAt b 120 8 != 0 || d.ivt % 1024 != 0 || !hostTable s d.ivt ||
  d.logbase % 4096 != 0 || decide (Config.hbmBytes < d.logbase + 32 * d.logent) || !isHbm d.caldera ||
  !((List.range 17).any (fun k => decide (6 ≤ k) && d.logent == 2 ^ k)) ||
  d.ranges.any (fun r => r.1 % 2 ^ 21 != 0 || r.2 % 2 ^ 21 != 0 || decide (Config.hbmBytes < r.1 + r.2)) ||
  s.parts.any (fun p => p.1 != part && p.2.desc.quads &&& d.quads != 0)
/-- Whether a block of a partition runs; its firmware agents are no blocks. -/
def partRuns (s : State) (part : Nat) : Bool := s.nbhds.any (fun n => n.2.part == part && !n.2.agent)
/-- R382: accepted once start-up is complete; the agents of the partition's cores begin. -/
def execPartitionDescriptorWrite (s : State) : Out :=
  event (fun s =>
    let p := s.input.part
    if s.mgmt.step < 6 ∨ s.mgmt.parts ≤ p ∨ partRuns s p ∨ ((s.part? p).map (·.resetting)).getD false ∨ descBad s p s.input.bytes then none
    else
      let s := (s.nbhds.keep (fun _ n => n.part == p && n.agent)).keys.foldl removeNb s
      let q : Part := match s.part? p with
        | some q => { q with desc := descOf s.input.bytes }
        | none => { desc := descOf s.input.bytes }
      some (startAgents { s with parts := s.parts.set p q } p)) s

/-! ## Start-up -/

/-- A step of start-up completed, or failed with a code; what is verified is measured (R388). -/
def startFails (s : State) (code : Nat) : State := { s with mgmt := { s.mgmt with failure := code } }
def stepDone (s : State) (n : Nat) : State := { s with mgmt := { s.mgmt with step := n } }
def measured (s : State) (b : List Byte) : State := { s with mgmt := { s.mgmt with measures := s.mgmt.measures ++ [Config.digest b] } }
/-- The last n bytes of a list, and the bytes before them. -/
def splitEnd (n : Nat) (b : List Byte) : List Byte × List Byte := (b.take (b.length - n), b.drop (b.length - n))
/-- Step 1: the processor's firmware, followed by its signature. -/
def startFirmware (s : State) (b : List Byte) : State :=
  let (body, sig) := splitEnd 2420 b
  if Config.verifies none (Config.digest body) sig then measured (stepDone s 1) body else startFails s 1
/-- Whether a blob breaks a value of Table 18-6; LEN counts the bytes up to SIG. -/
def blobBad (b : List Byte) : Bool :=
  leAt b 0 4 != 0x4B484342 || leAt b 4 2 != 1 || leAt b 6 2 != 0x90 || decide (2 ^ 14 ≤ leAt b 16 2) || leAt b 0x12 6 != 0 ||
  (List.range 8).any (fun d => decide (2 ^ 48 ≤ leAt b (0x18 + 8 * d) 8)) || decide (2 ^ 31 ≤ leAt b 0x58 4) || leAt b 0x5C 4 != 0 ||
  decide (5200 < leAt b 0x80 4) || leAt b 0x84 4 == 0 || decide (16 < leAt b 0x84 4) || leAt b 0x8C 4 != 2420
/-- Step 2: the configuration blob (R387, Table 18-6). One that breaks a value of the table fails as one whose signature does not verify
(log 41). -/
def startBlob (s : State) (b : List Byte) : State :=
  let seq := leAt b 8 8
  if blobBad b || !Config.verifies (some (leAt b 0x88 4)) (Config.digest (b.take 0x88)) ((b.drop 0x90).take 2420) then startFails s 1
  else if seq < s.mgmt.floor then startFails s 2
  else
    let s := measured (stepDone s 2) b
    let cap := leAt b 0x80 4
    let s := (List.range 8).foldl (fun s d => s.updDie d (fun x => { x with cap := cap / 8 })) s
    { s with
      devnum := BitVec.ofNat 14 (leAt b 16 2)
      mgmt := { s.mgmt with
        floor := seq, cdis := (List.range 8).map (fun d => (d, leAt b (0x18 + 8 * d) 8)), llmap := leAt b 0x58 4
        gpmap := leAt b 0x60 32, pcap := cap, parts := leAt b 0x84 4 } }
/-- The ALLOC sections of a firmware image, in section-header order: the place of each and its contents. The numbers are a place and a size
for each section (log 15). -/
def imageSections : List Nat → List Byte → List (Nat × List Byte)
  | a :: n :: l, b => (a, b.take n) :: imageSections l (b.drop n)
  | _, _ => []
/-- Step 4: a firmware image and its `.fwsig` (R51). Its first 96 bytes are the agent's stage record, the contents of its ALLOC sections
follow; an image that verifies is loaded. DESIGN CHOICE: the checks of R49 and R55 are a loader's, and R388 has no step and no failure code
for them here: the record's values are taken as they stand (log 15). -/
def startImage (s : State) (b : List Byte) (x : List Nat) (final : Bool) : State :=
  let (body, fw) := splitEnd 2464 b
  let l := imageSections (x.drop 8) (body.drop 96)
  let signed := l.flatMap (fun y => bytesOf 8 y.2.length ++ y.2)
  if leAt fw 0 4 = 1 ∧ (fw.drop 8).take 32 = Config.digest signed ∧ leAt fw 40 2 = 2420 ∧
      Config.verifies (some (leAt fw 4 4)) (Config.digest signed) ((fw.drop 44).take 2420) = true then
    let s := (measured s signed).poke (l.flatMap (fun y => cellsAt y.1 y.2))
    if final then stepDone { s with mgmt := { s.mgmt with agent := some (stageRecord body x) } } 4 else s
  else startFails s 1
/-- A link trained with the flits of its round trip: it stays down where the headroom exceeds half the port buffer (R96). -/
def trainLink (port trip : Nat) : Link :=
  let headroom := trip + 64
  { up := decide (headroom ≤ (if port < 32 then 2048 else 8192)), headroom }
/-- Step 5: the links that the blob enables are trained (R96, R387). -/
def startLinks (s : State) (trips : List Nat) (host : Nat) : State :=
  let ports := (bitsOf 31 s.mgmt.llmap) ++ (bitsOf 256 s.mgmt.gpmap).map (· + 32)
  stepDone { s with hostSize := host, links := ports.map (fun k => (k, trainLink k (trips.getD k 0))) } 5
/-- R388: the next step of start-up, with what it verifies or trains. A failed step stops it there. -/
def execPowerOn (s : State) : Out :=
  event (fun s =>
    let i := s.input
    if s.mgmt.failure ≠ 0 then none
    else match s.mgmt.step with
      | 0 => some (startFirmware s i.bytes)
      | 1 => some (startBlob s i.bytes)
      | 2 => some (if i.ok then stepDone { s with tags := [] } 3 else startFails s (if i.op = 0 then 3 else 4))
      | 3 => some (startImage s i.bytes i.nums (i.idx == 0))
      | 4 => some (if i.ok then startLinks s i.nums i.len else startFails s 3)
      | 5 => some (stepDone { s with mgmt := { s.mgmt with tree := treeOf i.nums } } 6)
      | _ => none) s

/-! ## Attestation -/

/-- A response of the device on the management channel: the request that it answers, and its data. -/
def respond (s : State) (kind : Nat) (data : List Byte) : State := answer s s.devnum.toNat 5 kind 0 data
/-- A request that a session which has not ended answers (R389). -/
def spdm (f : State → State) (s : State) : Out := event (fun s => if s.mgmt.spdm = 4 then none else some (f s)) s
def setSpdm (s : State) (n : Nat) : State := { s with mgmt := { s.mgmt with spdm := n } }
/-- R389: SPDM 1.3; the request begins a session. -/
def execSpdmGetVersion (s : State) : Out := event (fun s => some (respond (setSpdm s 1) 1 [0x13])) s
/-- R389. -/
def execSpdmGetCapabilities (s : State) : Out := spdm (fun s => respond (setSpdm s 2) 2 []) s
/-- R389: the input says whether the requester offers ML-DSA-44 (bit 0) and SHA3-256 (bit 1); with neither the session ends. -/
def execSpdmNegotiateAlgorithms (s : State) : Out :=
  spdm (fun s => if s.input.op % 4 = 0 then setSpdm s 4 else respond (setSpdm s 3) 3 (bytesOf 1 (s.input.op % 4))) s
/-- R389. -/
def execSpdmGetDigests (s : State) : Out := spdm (fun s => respond s 4 (Config.digest Config.certificate)) s
/-- R389: the part of the certificate that the request names. -/
def execSpdmGetCertificate (s : State) : Out := spdm (fun s => respond s 5 ((Config.certificate.drop s.input.x).take s.input.len)) s
/-- R389: the nonce and the measurements, signed. -/
def execSpdmChallenge (s : State) : Out :=
  spdm (fun s =>
    let m := Config.digest Config.certificate ++ s.input.bytes ++ Config.digest s.mgmt.measures.flatten
    respond s 6 (m ++ Config.signed m)) s
/-- R389: measurement 1 is the processor's firmware, 2 the blob, 3 upward the firmware images; index 0 asks for their number. -/
def execSpdmGetMeasurements (s : State) : Out :=
  spdm (fun s =>
    let m := if s.input.idx = 0 then bytesOf 1 s.mgmt.measures.length else (s.mgmt.measures[s.input.idx - 1]?).getD []
    respond s 7 (if s.input.ok then m ++ Config.signed m else m)) s
/-- R389: ERROR UnsupportedRequest. -/
def execSpdmUnsupportedRequest (s : State) : Out := spdm (fun s => respond s 8 []) s

/-! ## Power and temperature -/

/-- The duty of a die after a measurement: it falls a step above its cap, and rises a step at 5 % below it (R390). -/
def Die.dutyFor (d : Die) (w : Nat) : Nat := if d.cap < w then d.duty - 1 else if 100 * w ≤ 95 * d.cap ∧ d.duty < 16 then d.duty + 1 else d.duty
/-- R390: the measurement of a die, every 1 ms. -/
def execPowerMeasurement (s : State) : Out :=
  event (fun s =>
    let d := s.input.die % 8
    if s.clock < (s.die d).powerAt + 1200000 then none
    else some (s.updDie d (fun d => { d with duty := d.dutyFor s.input.x, powerAt := s.clock }))) s
/-- R390: every partition halts as steps 1 and 2 of R386 do; KIND 9 is logged and vector 4 raised. -/
def execThermalTrip (s : State) : Out :=
  event (fun s => some (s.parts.foldl (fun s p =>
    raiseVector (logError ((haltPartition s p.1 p.2).updPart p.1 (fun q => { q with halted := true })) p.1 9 0 0 none (s.input.die % 8) 0 0) p.1 4) s)) s

end Sys2Proof.Machine
end

