-- ==== Sys2Proof/Machine/ScalarArith.lean ====
section
/-! DEFINITION. Scalar integer, move and immediate instructions (R252, R253, R255, R256). -/

namespace Sys2Proof.Machine
open Bits Numbers

/-- Width, signedness and result of a scalar type code (R252): 0 i64, 1 n64, 2 i32, 3 n32, 4 b32. -/
def sW (f : BitVec 3) : Nat := if f.toNat < 2 then 64 else 32
def sSgn (f : BitVec 3) : Bool := f == 0 || f == 2
def sRes (f : BitVec 3) (x : Nat) : W64 := if f = 2 then sext64 32 x else BitVec.ofNat 64 x
/-- A two-source and a one-source integer instruction at the width of its type. -/
def sBin (op : Nat → Bool → Nat → Nat → Nat) (d a b : BitVec 6) (f : BitVec 3) (s : State) : Out :=
  scalarPure 4 d.toNat [a.toNat, b.toNat] (fun g => sRes f (op (sW f) (sSgn f) (g.field a % 2 ^ sW f) (g.field b % 2 ^ sW f))) s
def sUn (op : Nat → Nat → Nat) (d a : BitVec 6) (f : BitVec 3) (s : State) : Out :=
  scalarPure 4 d.toNat [a.toNat] (fun g => sRes f (op (sW f) (g.field a % 2 ^ sW f))) s
/-- An S-I instruction: 64 bits, the immediate sign-extended (R255). -/
def sImm (op : Nat → Nat → Nat) (d a : BitVec 6) (i : BitVec 13) (s : State) : Out :=
  scalarPure 4 d.toNat [a.toNat] (fun g => BitVec.ofNat 64 (op (g.field a) (sext64 13 i.toNat).toNat)) s
def sShift (op : Nat → Nat → Nat → Nat) (d a n : BitVec 6) (s : State) : Out :=
  scalarPure 4 d.toNat [a.toNat] (fun g => BitVec.ofNat 64 (op 64 (g.field a) n.toNat)) s

/-- A + B (R252). -/
def execSadd (d a b : BitVec 6) (f : BitVec 3) (s : State) : Out := sBin (fun w _ => Alu.iadd w) d a b f s
/-- A − B (R252). -/
def execSsub (d a b : BitVec 6) (f : BitVec 3) (s : State) : Out := sBin (fun w _ => Alu.isub w) d a b f s
/-- A × B (R252). -/
def execSmul (d a b : BitVec 6) (f : BitVec 3) (s : State) : Out := sBin (fun w _ => Alu.imul w) d a b f s
/-- The high half of A × B (R252). -/
def execSmulh (d a b : BitVec 6) (f : BitVec 3) (s : State) : Out := sBin (fun w sg => Alu.imulh w sg) d a b f s
/-- min (R252). -/
def execSmin (d a b : BitVec 6) (f : BitVec 3) (s : State) : Out := sBin (fun w sg => Alu.iminmax w sg false) d a b f s
/-- max (R252). -/
def execSmax (d a b : BitVec 6) (f : BitVec 3) (s : State) : Out := sBin (fun w sg => Alu.iminmax w sg true) d a b f s
/-- The carry of A + B (R252). -/
def execSaddc (d a b : BitVec 6) (f : BitVec 3) (s : State) : Out := sBin (fun w _ x y => if Flags.carry w x y 0 then 1 else 0) d a b f s
/-- A AND B (R252). -/
def execSand (d a b : BitVec 6) (f : BitVec 3) (s : State) : Out := sBin (fun _ _ => Alu.band) d a b f s
/-- A OR B (R252). -/
def execSor (d a b : BitVec 6) (f : BitVec 3) (s : State) : Out := sBin (fun _ _ => Alu.bor) d a b f s
/-- A XOR B (R252). -/
def execSxor (d a b : BitVec 6) (f : BitVec 3) (s : State) : Out := sBin (fun _ _ => Alu.bxor) d a b f s
/-- A shifted left by B bits 7:0 (R252). -/
def execSshl (d a b : BitVec 6) (f : BitVec 3) (s : State) : Out := sBin (fun w _ x y => Alu.shl w x (y % 256)) d a b f s
/-- A shifted right (R252). -/
def execSshr (d a b : BitVec 6) (f : BitVec 3) (s : State) : Out := sBin (fun w _ x y => Alu.shr w x (y % 256)) d a b f s
/-- A shifted right with its sign (R252). -/
def execSsra (d a b : BitVec 6) (f : BitVec 3) (s : State) : Out := sBin (fun w _ x y => Alu.sra w x (y % 256)) d a b f s
/-- |A| (R252): an unsigned value is its own. -/
def execSabs (d a : BitVec 6) (f : BitVec 3) (s : State) : Out := sUn (fun w x => if sSgn f then Alu.iabs w x else x) d a f s
/-- −A (R252). -/
def execSneg (d a : BitVec 6) (f : BitVec 3) (s : State) : Out := sUn (Alu.ineg) d a f s
/-- NOT A (R252). -/
def execSnot (d a : BitVec 6) (f : BitVec 3) (s : State) : Out := sUn (Alu.bnot) d a f s
/-- Set bits (R252). -/
def execSpopc (d a : BitVec 6) (f : BitVec 3) (s : State) : Out := sUn (Alu.popc) d a f s
/-- Leading zeros (R252). -/
def execSclz (d a : BitVec 6) (f : BitVec 3) (s : State) : Out := sUn (Alu.clz) d a f s
/-- Bits reversed (R252). -/
def execSbrev (d a : BitVec 6) (f : BitVec 3) (s : State) : Out := sUn (Alu.brev) d a f s
/-- A (R252). -/
def execSmov (d a : BitVec 6) (f : BitVec 3) (s : State) : Out := sUn (fun _ x => x) d a f s
/-- SCMP: 1 where the condition of Table 11-4 holds, else 0 (R253). -/
def execScmp (d a b : BitVec 6) (c : BitVec 5) (f : BitVec 3) (s : State) : Out :=
  scalarPure 4 d.toNat [a.toNat, b.toNat] (fun g =>
    if Flags.icond c.toNat (sSgn f) (sW f) (g.field a % 2 ^ sW f) (g.field b % 2 ^ sW f) then 1 else 0) s
/-- Immediate form at 64 bits (R255). -/
def execSaddImm (d a : BitVec 6) (i : BitVec 13) (s : State) : Out := sImm (Alu.iadd 64) d a i s
/-- Immediate form at 64 bits (R255). -/
def execSmulImm (d a : BitVec 6) (i : BitVec 13) (s : State) : Out := sImm (Alu.imul 64) d a i s
/-- Immediate form at 64 bits (R255). -/
def execSandImm (d a : BitVec 6) (i : BitVec 13) (s : State) : Out := sImm (Alu.band) d a i s
/-- Immediate form at 64 bits (R255). -/
def execSorImm (d a : BitVec 6) (i : BitVec 13) (s : State) : Out := sImm (Alu.bor) d a i s
/-- Immediate form at 64 bits (R255). -/
def execSxorImm (d a : BitVec 6) (i : BitVec 13) (s : State) : Out := sImm (Alu.bxor) d a i s
/-- Shift by an immediate count (R255). -/
def execSshlImm (d a n : BitVec 6) (s : State) : Out := sShift Alu.shl d a n s
/-- Shift by an immediate count (R255). -/
def execSshrImm (d a n : BitVec 6) (s : State) : Out := sShift Alu.shr d a n s
/-- Shift by an immediate count (R255). -/
def execSsraImm (d a n : BitVec 6) (s : State) : Out := sShift Alu.sra d a n s
/-- SBFE: a field of S[a], zero-extended (R255). -/
def execSbfe (d a : BitVec 6) (l : BitVec 7) (p : BitVec 6) (s : State) : Out :=
  scalarPure 4 d.toNat [a.toNat] (fun g => BitVec.ofNat 64 (field (g.field a) p.toNat l.toNat)) s
/-- SBFI: the low bits of S[a] into a field of S[d] (R255). -/
def execSbfi (d a : BitVec 6) (l : BitVec 7) (p : BitVec 6) (s : State) : Out :=
  scalarPure 4 d.toNat [a.toNat] (fun g =>
    let m := (2 ^ l.toNat - 1) * 2 ^ p.toNat
    BitVec.ofNat 64 (andNot (g.field d) m ||| (g.field a % 2 ^ l.toNat * 2 ^ p.toNat))) s
/-- SLI (R256). -/
def execSli (d : BitVec 6) (i : BitVec 32) (s : State) : Out := scalarPure 8 d.toNat [] (fun _ => sext64 32 i.toNat) s
/-- SLIH: bits 63:32 (R256). -/
def execSlih (d : BitVec 6) (i : BitVec 32) (s : State) : Out :=
  scalarPure 8 d.toNat [] (fun g => BitVec.ofNat 64 (i.toNat * 2 ^ 32 + g.field d % 2 ^ 32)) s
/-- SLEA: S[a] + (S[b] << n) + immediate (R256). -/
def execSlea (d a b n : BitVec 6) (i : BitVec 32) (s : State) : Out :=
  scalarPure 8 d.toNat [a.toNat, b.toNat] (fun g =>
    BitVec.ofNat 64 (g.field a) + BitVec.ofNat 64 (g.field b) <<< n.toNat + sext64 32 i.toNat) s
/-- SSEL: S[a] if S[c] ≠ 0, else S[b] (R256). -/
def execSsel (d a b c : BitVec 6) (s : State) : Out :=
  scalarPure 8 d.toNat [a.toNat, b.toNat, c.toNat] (fun g => BitVec.ofNat 64 (if g.field c ≠ 0 then g.field a else g.field b)) s

end Sys2Proof.Machine
end

