-- ==== Sys2Proof/Machine/ScalarFloat.lean ====
section
/-! DEFINITION. Scalar floating-point instructions (R254). -/

namespace Sys2Proof.Machine
open Bits Numbers

/-- The floating format of a scalar type code (5 f32, 6 f64), and plain rne. -/
def sFmt (f : BitVec 3) : Fmt := if f = 6 then f64 else f32
def rne : Alu.Fin := ⟨.rne, 0, 0⟩
def sfBin (op : Fmt → Nat → Nat → Nat) (d a b : BitVec 6) (f : BitVec 3) (s : State) : Out :=
  scalarPure 4 d.toNat [a.toNat, b.toNat] (fun g =>
    BitVec.ofNat 64 (op (sFmt f) (g.field a % 2 ^ (sFmt f).width) (g.field b % 2 ^ (sFmt f).width))) s
/-- R254. -/
def execSfadd (d a b : BitVec 6) (f : BitVec 3) (s : State) : Out := sfBin (fun t => Alu.fadd t rne) d a b f s
/-- R254. -/
def execSfmul (d a b : BitVec 6) (f : BitVec 3) (s : State) : Out := sfBin (fun t => Alu.fmul t rne) d a b f s
/-- R254. -/
def execSfmin (d a b : BitVec 6) (f : BitVec 3) (s : State) : Out := sfBin (fun t => minMax t false) d a b f s
/-- R254. -/
def execSfmax (d a b : BitVec 6) (f : BitVec 3) (s : State) : Out := sfBin (fun t => minMax t true) d a b f s
/-- SFCMP (R254, Table 11-4). -/
def execSfcmp (d a b : BitVec 6) (c : BitVec 5) (f : BitVec 3) (s : State) : Out :=
  sfBin (fun t x y => if fcond c.toNat (value t x) (value t y) then 1 else 0) d a b f s
/-- The number a scalar register holds in a scalar type (R254). -/
def sValue (t : BitVec 3) (x : Nat) : Number :=
  match t.toNat with
  | 0 => ofInteger (toInt 64 x)
  | 1 => ofInteger x
  | 2 => ofInteger (toInt 32 (x % 2 ^ 32))
  | 5 => value f32 (x % 2 ^ 32)
  | 6 => value f64 x
  | _ => ofInteger (x % 2 ^ 32 : Nat)
/-- SCVT (R254). -/
def execScvt (d a : BitVec 6) (t f : BitVec 3) (s : State) : Out :=
  scalarPure 4 d.toNat [a.toNat] (fun g => BitVec.ofNat 64 (round (sFmt f) .rne false (sValue t (g.field a)))) s

end Sys2Proof.Machine
end

