-- ==== Sys2Proof/Machine/Dispatch.lean ====
section
/-! DEFINITION. The meaning of every instruction, one arm per constructor. -/

namespace Sys2Proof.Machine

def exec (i : Instr) (s : State) : Host.Outcome State Fault Refusal :=
  match i with
  | .sadd d a b f => Sys2Proof.Machine.execSadd d a b f s
  | .ssub d a b f => Sys2Proof.Machine.execSsub d a b f s
  | .smul d a b f => Sys2Proof.Machine.execSmul d a b f s
  | .smulh d a b f => Sys2Proof.Machine.execSmulh d a b f s
  | .smin d a b f => Sys2Proof.Machine.execSmin d a b f s
  | .smax d a b f => Sys2Proof.Machine.execSmax d a b f s
  | .sabs d a f => Sys2Proof.Machine.execSabs d a f s
  | .sneg d a f => Sys2Proof.Machine.execSneg d a f s
  | .saddc d a b f => Sys2Proof.Machine.execSaddc d a b f s
  | .sand d a b f => Sys2Proof.Machine.execSand d a b f s
  | .sor d a b f => Sys2Proof.Machine.execSor d a b f s
  | .sxor d a b f => Sys2Proof.Machine.execSxor d a b f s
  | .snot d a f => Sys2Proof.Machine.execSnot d a f s
  | .sshl d a b f => Sys2Proof.Machine.execSshl d a b f s
  | .sshr d a b f => Sys2Proof.Machine.execSshr d a b f s
  | .ssra d a b f => Sys2Proof.Machine.execSsra d a b f s
  | .spopc d a f => Sys2Proof.Machine.execSpopc d a f s
  | .sclz d a f => Sys2Proof.Machine.execSclz d a f s
  | .sbrev d a f => Sys2Proof.Machine.execSbrev d a f s
  | .smov d a f => Sys2Proof.Machine.execSmov d a f s
  | .scmp d a b c f => Sys2Proof.Machine.execScmp d a b c f s
  | .sfadd d a b f => Sys2Proof.Machine.execSfadd d a b f s
  | .sfmul d a b f => Sys2Proof.Machine.execSfmul d a b f s
  | .sfmin d a b f => Sys2Proof.Machine.execSfmin d a b f s
  | .sfmax d a b f => Sys2Proof.Machine.execSfmax d a b f s
  | .scvt d a t f => Sys2Proof.Machine.execScvt d a t f s
  | .sfcmp d a b c f => Sys2Proof.Machine.execSfcmp d a b c f s
  | .saddImm d a im => Sys2Proof.Machine.execSaddImm d a im s
  | .smulImm d a im => Sys2Proof.Machine.execSmulImm d a im s
  | .sandImm d a im => Sys2Proof.Machine.execSandImm d a im s
  | .sorImm d a im => Sys2Proof.Machine.execSorImm d a im s
  | .sxorImm d a im => Sys2Proof.Machine.execSxorImm d a im s
  | .sshlImm d a n => Sys2Proof.Machine.execSshlImm d a n s
  | .sshrImm d a n => Sys2Proof.Machine.execSshrImm d a n s
  | .ssraImm d a n => Sys2Proof.Machine.execSsraImm d a n s
  | .sbfe d a l p => Sys2Proof.Machine.execSbfe d a l p s
  | .sbfi d a l p => Sys2Proof.Machine.execSbfi d a l p s
  | .sld d a im => Sys2Proof.Machine.execSld d a im s
  | .sst d a im => Sys2Proof.Machine.execSst d a im s
  | .cpy a b e m => Sys2Proof.Machine.execCpy a b e m s
  | .cpyg a b e x => Sys2Proof.Machine.execCpyg a b e x s
  | .cseal d => Sys2Proof.Machine.execCseal d s
  | .cwait a => Sys2Proof.Machine.execCwait a s
  | .cpoll d a => Sys2Proof.Machine.execCpoll d a s
  | .omap a k => Sys2Proof.Machine.execOmap a k s
  | .ostat d k => Sys2Proof.Machine.execOstat d k s
  | .tdef a b => Sys2Proof.Machine.execTdef a b s
  | .trds a b => Sys2Proof.Machine.execTrds a b s
  | .tkill a => Sys2Proof.Machine.execTkill a s
  | .tqry d a => Sys2Proof.Machine.execTqry d a s
  | .snapdef a b => Sys2Proof.Machine.execSnapdef a b s
  | .snap a => Sys2Proof.Machine.execSnap a s
  | .sacc a => Sys2Proof.Machine.execSacc a s
  | .srej a o => Sys2Proof.Machine.execSrej a o s
  | .sqry d a => Sys2Proof.Machine.execSqry d a s
  | .ssweep a => Sys2Proof.Machine.execSsweep a s
  | .bar d sc => Sys2Proof.Machine.execBar d sc s
  | .nbinit n a => Sys2Proof.Machine.execNbinit n a s
  | .nbarr n => Sys2Proof.Machine.execNbarr n s
  | .nbwait n a => Sys2Proof.Machine.execNbwait n a s
  | .ctradd a b o => Sys2Proof.Machine.execCtradd a b o s
  | .ctrwait a b o => Sys2Proof.Machine.execCtrwait a b o s
  | .ticket d a b => Sys2Proof.Machine.execTicket d a b s
  | .diffmax d a b => Sys2Proof.Machine.execDiffmax d a b s
  | .launch d a b => Sys2Proof.Machine.execLaunch d a b s
  | .launchDirect d a b => Sys2Proof.Machine.execLaunchDirect d a b s
  | .rmput a b e => Sys2Proof.Machine.execRmput a b e s
  | .rmget a b e => Sys2Proof.Machine.execRmget a b e s
  | .rmatom d a b w op => Sys2Proof.Machine.execRmatom d a b w op s
  | .rmatomCas d a b w => Sys2Proof.Machine.execRmatomCas d a b w s
  | .rmflush a => Sys2Proof.Machine.execRmflush a s
  | .keyset d a b r => Sys2Proof.Machine.execKeyset d a b r s
  | .keyrev a => Sys2Proof.Machine.execKeyrev a s
  | .flushp a => Sys2Proof.Machine.execFlushp a s
  | .fence o => Sys2Proof.Machine.execFence o s
  | .linv a b => Sys2Proof.Machine.execLinv a b s
  | .lwb a b => Sys2Proof.Machine.execLwb a b s
  | .saper d a => Sys2Proof.Machine.execSaper d a s
  | .pprobe d a k => Sys2Proof.Machine.execPprobe d a k s
  | .tlbiRange a b => Sys2Proof.Machine.execTlbiRange a b s
  | .tlbiSset a => Sys2Proof.Machine.execTlbiSset a s
  | .sfmt a => Sys2Proof.Machine.execSfmt a s
  | .trialon a b => Sys2Proof.Machine.execTrialon a b s
  | .trialoff d => Sys2Proof.Machine.execTrialoff d s
  | .prog c => Sys2Proof.Machine.execProg c s
  | .bkpt c => Sys2Proof.Machine.execBkpt c s
  | .trap a c => Sys2Proof.Machine.execTrap a c s
  | .sysr d n => Sys2Proof.Machine.execSysr d n s
  | .sysw a n => Sys2Proof.Machine.execSysw a n s
  | .preq d a b => Sys2Proof.Machine.execPreq d a b s
  | .preqRst d a b => Sys2Proof.Machine.execPreqRst d a b s
  | .halt d a => Sys2Proof.Machine.execHalt d a s
  | .sret a => Sys2Proof.Machine.execSret a s
  | .spause a => Sys2Proof.Machine.execSpause a s
  | .sbrZ a o => Sys2Proof.Machine.execSbrZ a o s
  | .sbrNz a o => Sys2Proof.Machine.execSbrNz a o s
  | .sjmp o => Sys2Proof.Machine.execSjmp o s
  | .scall a o => Sys2Proof.Machine.execScall a o s
  | .lissue w0 w1 w2 w3 t => Sys2Proof.Machine.execLissue w0 w1 w2 w3 t s
  | .sli d im => Sys2Proof.Machine.execSli d im s
  | .slih d im => Sys2Proof.Machine.execSlih d im s
  | .slea d a b n im => Sys2Proof.Machine.execSlea d a b n im s
  | .ssel d a b c => Sys2Proof.Machine.execSsel d a b c s
  | .sldX d a x => Sys2Proof.Machine.execSldX d a x s
  | .sstX d a x => Sys2Proof.Machine.execSstX d a x s
  | .satom d a b op x => Sys2Proof.Machine.execSatom d a b op x s
  | .scas d a b n x => Sys2Proof.Machine.execScas d a b n x s
  | .fadd w => Sys2Proof.Machine.execFadd w s
  | .fmul w => Sys2Proof.Machine.execFmul w s
  | .ffma w => Sys2Proof.Machine.execFfma w s
  | .fmin w => Sys2Proof.Machine.execFmin w s
  | .fmax w => Sys2Proof.Machine.execFmax w s
  | .frnd w => Sys2Proof.Machine.execFrnd w s
  | .fcmp w => Sys2Proof.Machine.execFcmp w s
  | .fdivc w => Sys2Proof.Machine.execFdivc w s
  | .frcp w => Sys2Proof.Machine.execFrcp w s
  | .frsq w => Sys2Proof.Machine.execFrsq w s
  | .fsqrt w => Sys2Proof.Machine.execFsqrt w s
  | .fex2 w => Sys2Proof.Machine.execFex2 w s
  | .flg2 w => Sys2Proof.Machine.execFlg2 w s
  | .fsin w => Sys2Proof.Machine.execFsin w s
  | .fcos w => Sys2Proof.Machine.execFcos w s
  | .bfadd2 w => Sys2Proof.Machine.execBfadd2 w s
  | .bfmul2 w => Sys2Proof.Machine.execBfmul2 w s
  | .bffma2 w => Sys2Proof.Machine.execBffma2 w s
  | .bfmin2 w => Sys2Proof.Machine.execBfmin2 w s
  | .bfmax2 w => Sys2Proof.Machine.execBfmax2 w s
  | .dadd w => Sys2Proof.Machine.execDadd w s
  | .dmul w => Sys2Proof.Machine.execDmul w s
  | .dfma w => Sys2Proof.Machine.execDfma w s
  | .dmin w => Sys2Proof.Machine.execDmin w s
  | .dmax w => Sys2Proof.Machine.execDmax w s
  | .dcmp w => Sys2Proof.Machine.execDcmp w s
  | .drcp w => Sys2Proof.Machine.execDrcp w s
  | .drsq w => Sys2Proof.Machine.execDrsq w s
  | .dsqrt w => Sys2Proof.Machine.execDsqrt w s
  | .iadd w => Sys2Proof.Machine.execIadd w s
  | .isub w => Sys2Proof.Machine.execIsub w s
  | .imul w => Sys2Proof.Machine.execImul w s
  | .imulh w => Sys2Proof.Machine.execImulh w s
  | .imad w => Sys2Proof.Machine.execImad w s
  | .imin w => Sys2Proof.Machine.execImin w s
  | .imax w => Sys2Proof.Machine.execImax w s
  | .iabs w => Sys2Proof.Machine.execIabs w s
  | .ineg w => Sys2Proof.Machine.execIneg w s
  | .iaddc w => Sys2Proof.Machine.execIaddc w s
  | .icmp w => Sys2Proof.Machine.execIcmp w s
  | .land w => Sys2Proof.Machine.execLand w s
  | .lor w => Sys2Proof.Machine.execLor w s
  | .lxor w => Sys2Proof.Machine.execLxor w s
  | .lnot w => Sys2Proof.Machine.execLnot w s
  | .shl w => Sys2Proof.Machine.execShl w s
  | .shr w => Sys2Proof.Machine.execShr w s
  | .sra w => Sys2Proof.Machine.execSra w s
  | .bfe w => Sys2Proof.Machine.execBfe w s
  | .bfi w => Sys2Proof.Machine.execBfi w s
  | .popc w => Sys2Proof.Machine.execPopc w s
  | .clz w => Sys2Proof.Machine.execClz w s
  | .brev w => Sys2Proof.Machine.execBrev w s
  | .cvt w => Sys2Proof.Machine.execCvt w s
  | .mov w => Sys2Proof.Machine.execMov w s
  | .sel w => Sys2Proof.Machine.execSel w s
  | .plop w => Sys2Proof.Machine.execPlop w s
  | .movW w => Sys2Proof.Machine.execMovW w s
  | .laneid w => Sys2Proof.Machine.execLaneid w s
  | .movi w => Sys2Proof.Machine.execMovi w s
  | .faddImm w => Sys2Proof.Machine.execFaddImm w s
  | .fmulImm w => Sys2Proof.Machine.execFmulImm w s
  | .ffmaImm w => Sys2Proof.Machine.execFfmaImm w s
  | .fminImm w => Sys2Proof.Machine.execFminImm w s
  | .fmaxImm w => Sys2Proof.Machine.execFmaxImm w s
  | .fcmpImm w => Sys2Proof.Machine.execFcmpImm w s
  | .fdivcImm w => Sys2Proof.Machine.execFdivcImm w s
  | .bfadd2Imm w => Sys2Proof.Machine.execBfadd2Imm w s
  | .bfmul2Imm w => Sys2Proof.Machine.execBfmul2Imm w s
  | .bffma2Imm w => Sys2Proof.Machine.execBffma2Imm w s
  | .bfmin2Imm w => Sys2Proof.Machine.execBfmin2Imm w s
  | .bfmax2Imm w => Sys2Proof.Machine.execBfmax2Imm w s
  | .daddImm w => Sys2Proof.Machine.execDaddImm w s
  | .dmulImm w => Sys2Proof.Machine.execDmulImm w s
  | .dfmaImm w => Sys2Proof.Machine.execDfmaImm w s
  | .dminImm w => Sys2Proof.Machine.execDminImm w s
  | .dmaxImm w => Sys2Proof.Machine.execDmaxImm w s
  | .dcmpImm w => Sys2Proof.Machine.execDcmpImm w s
  | .iaddImm w => Sys2Proof.Machine.execIaddImm w s
  | .isubImm w => Sys2Proof.Machine.execIsubImm w s
  | .imulImm w => Sys2Proof.Machine.execImulImm w s
  | .imulhImm w => Sys2Proof.Machine.execImulhImm w s
  | .imadImm w => Sys2Proof.Machine.execImadImm w s
  | .iminImm w => Sys2Proof.Machine.execIminImm w s
  | .imaxImm w => Sys2Proof.Machine.execImaxImm w s
  | .iaddcImm w => Sys2Proof.Machine.execIaddcImm w s
  | .icmpImm w => Sys2Proof.Machine.execIcmpImm w s
  | .landImm w => Sys2Proof.Machine.execLandImm w s
  | .lorImm w => Sys2Proof.Machine.execLorImm w s
  | .lxorImm w => Sys2Proof.Machine.execLxorImm w s
  | .shlImm w => Sys2Proof.Machine.execShlImm w s
  | .shrImm w => Sys2Proof.Machine.execShrImm w s
  | .sraImm w => Sys2Proof.Machine.execSraImm w s
  | .bfeImm w => Sys2Proof.Machine.execBfeImm w s
  | .bfiImm w => Sys2Proof.Machine.execBfiImm w s
  | .shfl w => Sys2Proof.Machine.execShfl w s
  | .shflImm w => Sys2Proof.Machine.execShflImm w s
  | .vote w => Sys2Proof.Machine.execVote w s
  | .gred w => Sys2Proof.Machine.execGred w s
  | .gscan w => Sys2Proof.Machine.execGscan w s
  | .ld w => Sys2Proof.Machine.execLd w s
  | .st w => Sys2Proof.Machine.execSt w s
  | .atom w => Sys2Proof.Machine.execAtom w s
  | .cas w => Sys2Proof.Machine.execCas w s
  | .pref w => Sys2Proof.Machine.execPref w s
  | .ldImm w => Sys2Proof.Machine.execLdImm w s
  | .stImm w => Sys2Proof.Machine.execStImm w s
  | .prefImm w => Sys2Proof.Machine.execPrefImm w s
  | .fez w => Sys2Proof.Machine.execFez w s
  | .feset w => Sys2Proof.Machine.execFeset w s
  | .feq w => Sys2Proof.Machine.execFeq w s
  | .lcpy w => Sys2Proof.Machine.execLcpy w s
  | .tdefv w => Sys2Proof.Machine.execTdefv w s
  | .trd w => Sys2Proof.Machine.execTrd w s
  | .pushm w => Sys2Proof.Machine.execPushm w s
  | .popm w => Sys2Proof.Machine.execPopm w s
  | .lfmt w => Sys2Proof.Machine.execLfmt w s
  | .rdspec w => Sys2Proof.Machine.execRdspec w s
  | .enq w => Sys2Proof.Machine.execEnq w s
  | .enqd w => Sys2Proof.Machine.execEnqd w s
  | .laneFence w => Sys2Proof.Machine.execLaneFence w s
  | .bra w => Sys2Proof.Machine.execBra w s
  | .lcall w => Sys2Proof.Machine.execLcall w s
  | .lexit w => Sys2Proof.Machine.execLexit w s
  | .laneBkpt w => Sys2Proof.Machine.execLaneBkpt w s
  | .laneProg w => Sys2Proof.Machine.execLaneProg w s
  | .laneTrap w => Sys2Proof.Machine.execLaneTrap w s
  | .mma w => Sys2Proof.Machine.execMma w s
  | .mmaq w => Sys2Proof.Machine.execMmaq w s
  | .mzero w => Sys2Proof.Machine.execMzero w s
  | .mlda w => Sys2Proof.Machine.execMlda w s
  | .msta w => Sys2Proof.Machine.execMsta w s
  | .madda w => Sys2Proof.Machine.execMadda w s
  | .mprdCnt w => Sys2Proof.Machine.execMprdCnt w s
  | .mprdQ w => Sys2Proof.Machine.execMprdQ w s
  | .msclSet w => Sys2Proof.Machine.execMsclSet w s
  | .msclClr w => Sys2Proof.Machine.execMsclClr w s
  | .tlbiCtx => Sys2Proof.Machine.execTlbiCtx s
  | .rft => Sys2Proof.Machine.execRft s
  | .rftSkip => Sys2Proof.Machine.execRftSkip s
  | .sexit => Sys2Proof.Machine.execSexit s
  | .lsync => Sys2Proof.Machine.execLsync s
  | .shint => Sys2Proof.Machine.execShint s
  | .lend => Sys2Proof.Machine.execLend s
  | .wide => Sys2Proof.Machine.execWide s
  | .endw => Sys2Proof.Machine.execEndw s
  | .lret => Sys2Proof.Machine.execLret s
  | .hint => Sys2Proof.Machine.execHint s
  | .mnba => Sys2Proof.Machine.execMnba s
  | .mnbw => Sys2Proof.Machine.execMnbw s
  | .mwaits => Sys2Proof.Machine.execMwaits s
  | .mloop => Sys2Proof.Machine.execMloop s
  | .mend => Sys2Proof.Machine.execMend s
  | .mjmp => Sys2Proof.Machine.execMjmp s
  | .msafe => Sys2Proof.Machine.execMsafe s
  | .mexit => Sys2Proof.Machine.execMexit s
  | .mhint => Sys2Proof.Machine.execMhint s
  | .srseedWrite => Sys2Proof.Machine.execSrseedWrite s
  | .rlwaysWrite => Sys2Proof.Machine.execRlwaysWrite s
  | .parkResume => Sys2Proof.Machine.execParkResume s
  | .producerWrite => Sys2Proof.Machine.execProducerWrite s
  | .laneBlockStart => Sys2Proof.Machine.execLaneBlockStart s
  | .requestTableGrant => Sys2Proof.Machine.execRequestTableGrant s
  | .faultResolved => Sys2Proof.Machine.execFaultResolved s
  | .faultFatal => Sys2Proof.Machine.execFaultFatal s
  | .maskedWriteback => Sys2Proof.Machine.execMaskedWriteback s
  | .fillReturn => Sys2Proof.Machine.execFillReturn s
  | .remoteLineAgeExpiry => Sys2Proof.Machine.execRemoteLineAgeExpiry s
  | .waitlistResend => Sys2Proof.Machine.execWaitlistResend s
  | .copyStart => Sys2Proof.Machine.execCopyStart s
  | .copyUnitWrite => Sys2Proof.Machine.execCopyUnitWrite s
  | .copyComplete => Sys2Proof.Machine.execCopyComplete s
  | .fetcherDeliver => Sys2Proof.Machine.execFetcherDeliver s
  | .matrixUnitComplete => Sys2Proof.Machine.execMatrixUnitComplete s
  | .sequencerSaveTimeout => Sys2Proof.Machine.execSequencerSaveTimeout s
  | .tileOpAccept => Sys2Proof.Machine.execTileOpAccept s
  | .tileDefined => Sys2Proof.Machine.execTileDefined s
  | .tileDefineFail => Sys2Proof.Machine.execTileDefineFail s
  | .tileReadComplete => Sys2Proof.Machine.execTileReadComplete s
  | .tileKillEffect => Sys2Proof.Machine.execTileKillEffect s
  | .tilePlacementMove => Sys2Proof.Machine.execTilePlacementMove s
  | .tileDeadlock => Sys2Proof.Machine.execTileDeadlock s
  | .runAppend => Sys2Proof.Machine.execRunAppend s
  | .remoteRecordArrival => Sys2Proof.Machine.execRemoteRecordArrival s
  | .refillMove => Sys2Proof.Machine.execRefillMove s
  | .portForward => Sys2Proof.Machine.execPortForward s
  | .flitReceive => Sys2Proof.Machine.execFlitReceive s
  | .escapeTreeRebuild => Sys2Proof.Machine.execEscapeTreeRebuild s
  | .xoff => Sys2Proof.Machine.execXoff s
  | .xon => Sys2Proof.Machine.execXon s
  | .portXoff => Sys2Proof.Machine.execPortXoff s
  | .progressTimerExpiry => Sys2Proof.Machine.execProgressTimerExpiry s
  | .remoteLoadRequest => Sys2Proof.Machine.execRemoteLoadRequest s
  | .remoteStoreArrival => Sys2Proof.Machine.execRemoteStoreArrival s
  | .remoteAtomicRequest => Sys2Proof.Machine.execRemoteAtomicRequest s
  | .rmaSegmentArrival => Sys2Proof.Machine.execRmaSegmentArrival s
  | .rmaChannelClose => Sys2Proof.Machine.execRmaChannelClose s
  | .ackReceive => Sys2Proof.Machine.execAckReceive s
  | .nackReceive => Sys2Proof.Machine.execNackReceive s
  | .retryReceive => Sys2Proof.Machine.execRetryReceive s
  | .resendTimerExpiry => Sys2Proof.Machine.execResendTimerExpiry s
  | .summarySend => Sys2Proof.Machine.execSummarySend s
  | .summaryReceive => Sys2Proof.Machine.execSummaryReceive s
  | .terminationRound => Sys2Proof.Machine.execTerminationRound s
  | .sinterMergeDone => Sys2Proof.Machine.execSinterMergeDone s
  | .sinterRestoreDone => Sys2Proof.Machine.execSinterRestoreDone s
  | .sinterGrowDone => Sys2Proof.Machine.execSinterGrowDone s
  | .sinterSweepDone => Sys2Proof.Machine.execSinterSweepDone s
  | .snapdefTagsDone => Sys2Proof.Machine.execSnapdefTagsDone s
  | .preempt => Sys2Proof.Machine.execPreempt s
  | .hostWrite => Sys2Proof.Machine.execHostWrite s
  | .hostRead => Sys2Proof.Machine.execHostRead s
  | .hostAtomic => Sys2Proof.Machine.execHostAtomic s
  | .doorbell => Sys2Proof.Machine.execDoorbell s
  | .controlWindowWrite => Sys2Proof.Machine.execControlWindowWrite s
  | .partitionReset => Sys2Proof.Machine.execPartitionReset s
  | .dbgen => Sys2Proof.Machine.execDbgen s
  | .debugStop => Sys2Proof.Machine.execDebugStop s
  | .stopDump => Sys2Proof.Machine.execStopDump s
  | .debugResume => Sys2Proof.Machine.execDebugResume s
  | .debugStep => Sys2Proof.Machine.execDebugStep s
  | .commandStart => Sys2Proof.Machine.execCommandStart s
  | .commandComplete => Sys2Proof.Machine.execCommandComplete s
  | .geyserAgeingStep => Sys2Proof.Machine.execGeyserAgeingStep s
  | .stealReqSend => Sys2Proof.Machine.execStealReqSend s
  | .stealReq => Sys2Proof.Machine.execStealReq s
  | .stealGrant => Sys2Proof.Machine.execStealGrant s
  | .vectorPendingSend => Sys2Proof.Machine.execVectorPendingSend s
  | .partitionDescriptorWrite => Sys2Proof.Machine.execPartitionDescriptorWrite s
  | .powerOn => Sys2Proof.Machine.execPowerOn s
  | .spdmGetVersion => Sys2Proof.Machine.execSpdmGetVersion s
  | .spdmGetCapabilities => Sys2Proof.Machine.execSpdmGetCapabilities s
  | .spdmNegotiateAlgorithms => Sys2Proof.Machine.execSpdmNegotiateAlgorithms s
  | .spdmGetDigests => Sys2Proof.Machine.execSpdmGetDigests s
  | .spdmGetCertificate => Sys2Proof.Machine.execSpdmGetCertificate s
  | .spdmChallenge => Sys2Proof.Machine.execSpdmChallenge s
  | .spdmGetMeasurements => Sys2Proof.Machine.execSpdmGetMeasurements s
  | .spdmUnsupportedRequest => Sys2Proof.Machine.execSpdmUnsupportedRequest s
  | .powerMeasurement => Sys2Proof.Machine.execPowerMeasurement s
  | .thermalTrip => Sys2Proof.Machine.execThermalTrip s
  | .stallSample => Sys2Proof.Machine.execStallSample s
  | .acceptedByHostMemory => Sys2Proof.Machine.execAcceptedByHostMemory s

end Sys2Proof.Machine
end

