-- ==== Sys2Proof/Machine/Turn.lean ====
section
/-! DEFINITION. What the party in turn does in a step (R14, R33, R318, R325, R366, R367, R372, R392, R396), what passes between two
steps, and how a word is put where a powered-on module fetches next. -/

namespace Sys2Proof.Machine
open Bits

/-- An outcome whose next state is changed further. -/
def onNext (f : State → State) : Out → Out
  | .next s => .next (f s)
  | .fault r => .fault r
  | .refused r => .refused r

/-! ## Holds -/

/-- The clocks that a trial adds after an instruction at a PC outside its range (R396). -/
def trialDelay (s : State) (nb : Nat) (scalar : Bool) (pc : Nat) : Nat :=
  match (s.nbhd? nb).bind (·.trial) with
  | some t => if t.scalar = scalar ∧ (pc < t.lo ∨ t.hi < pc) then t.delay else 0
  | none => 0
/-- A scalar stream, or a split, that a trial holds for d clocks (R396). -/
def holdScalar (c sl d : Nat) (s : State) : State :=
  if d = 0 then s else s.updGroup c sl (fun g => { g with hold := s.clock + d })
def holdSplit (c sl k d : Nat) (s : State) : State :=
  if d = 0 then s else s.updGroup c sl (fun g => { g with laneHold := g.laneHold.set k (s.clock + d) })
/-- Whether a stream has still to take up a tile operation that its home has accepted: its word goes on to its end before a save (R203,
R372). -/
def takesTile (s : State) (g : Group) (st : StreamId) : Bool :=
  (s.nbhdOf g).ops.any (fun o => o.strm == st && o.copy.isNone && o.st == 2 && decide (o.tag < 8) && (o.tag % 2 == 1) == g.trapMode)
/-- Whether the group of a stopped block, or a stream of a neighbourhood that is being saved, does not issue (R372, R392). -/
def groupStopped (s : State) (g : Group) (st : StreamId) : Bool :=
  ((s.blockOf g).stopped && !g.stepOne) || ((s.nbhdOf g).saving && !takesTile s g st)
/-- A group of which only one split may issue: the others are held for this clock (R203, R372). -/
def holdOthers (clock k : Nat) (g : Group) : Group :=
  { g with laneHold := ((List.range 4).filter (· != k)).foldl (fun m j => m.set j (max (m.getD j 0) (clock + 1))) g.laneHold }
/-- The state from which the lane stream of a group issues, if it does: while its neighbourhood is saved, only the split that takes up a tile
operation. -/
def laneTurn (s : State) (c sl : Nat) (g : Group) : Option State :=
  if (s.blockOf g).stopped && !g.stepOne then none
  else if !(s.nbhdOf g).saving then some s
  else ((List.range 4).find? (fun k => takesTile s g (.split c sl k) && readySplit s.clock g ((g.lanes).getD default) k)).map (fun k => s.setGroup c sl (holdOthers s.clock k g))
/-- Whether a trap of the interrupted context comes before any further instruction (R367). -/
def trapWaits (g : Group) : Bool := !g.trapMode && !g.pendTrap.isEmpty
/-- Whether a sequencer dispatches no further word: stopped by a debugger, a trap, a wait, its end, a save or a restore (R259, R372, R373,
R392). -/
def seqHeld (s : State) (b : Nat) (x : Block) (q : Seq) : Bool :=
  x.stopped || q.exited || q.stopped || q.pend.isSome || q.park.isSome || q.safe.isSome ||
  s.saveOps.any (fun o => o.nb == x.nb && (o.restore || (o.late.contains b && !o.done)))

/-! ## Turns -/

/-- Whether a stream waits at the word that it came to: the word has not issued, and comes again (R14). A split that waits for others has
issued its word. -/
def Park.atWord (p : Park) : Bool := match p.cond with
  | .splits _ => false
  | _ => true
def scalarWaits (t : State) (c sl : Nat) : Bool := (((t.group? c sl).bind (·.park)).map Park.atWord).getD false
def laneWaits (t : State) (c sl k : Nat) (tm : Bool) : Bool :=
  (((t.group? c sl).bind (fun g => (if tm then g.tlb else g.lb).bind (fun b => (b.at k).park))).map Park.atWord).getD false
/-- What follows the issue of a scalar word, and of a lane word: the hold of a trial, and the end of a debugger's step. -/
def issuedScalar (s : State) (c sl : Nat) (g : Group) (t : State) : State :=
  if scalarWaits t c sl then t
  else stepped (holdScalar c sl (trialDelay s (s.blockOf g).nb true (g.spc.toNat % 2 ^ 32)) t) c sl
def issuedLane (s : State) (c sl k : Nat) (g : Group) (pc : W32) (t : State) : State :=
  if laneWaits t c sl k g.trapMode then t
  else stepped (holdSplit c sl k (trialDelay s (s.blockOf g).nb false pc.toNat) t) c sl
/-- The trap or the wait of a lane fetch names the lanes of its split. -/
def withMask (m : W32) : Res → Res
  | .trap s t => .trap s { t with mask := m }
  | r => r
/-- The turn of a scalar stream (R318): a word that fails a decode check traps before anything else (R33). -/
def runScalar (c sl : Nat) (s : State) : Out :=
  match s.group? c sl with
  | none => .next s
  | some g =>
    if groupStopped s g (.scalar c sl) then .next s
    else if trapWaits g then .next (takePending s c sl)
    else if g.park.isSome || decide (s.clock < g.hold) then .next s
    else match fetchScalar (scalarFetcher s c sl g) g.spc s with
      | .stop r => .next (endS c sl 0 r)
      | .word t _ _ (.error sub) => .next (stepped (endS c sl 0 (.trap t (illegal sub))) c sl)
      | .word t bits _ (.ok i) => onNext (issuedScalar s c sl g) (exec i { t with word := bits })
/-- The turn of a lane stream: the split that R325 picks issues. -/
def runLane (c sl : Nat) (s : State) : Out :=
  match s.group? c sl with
  | none => .next s
  | some g => match laneTurn s c sl g with
  | none => .next s
  | some s =>
    let g := (s.group? c sl).getD g
    if trapWaits g then .next (takePending s c sl)
    else match pickSplit s.clock g, g.lanes with
      | some k, some b =>
        let f := laneFetcher s c sl k g
        match fetchLane f f.p.nb.stage.vregs (b.at k).pc s with
        | .stop r => .next (endL c sl k g.trapMode (withMask f.mask r))
        | .word t _ _ (.error sub) => .next (stepped (endL c sl k g.trapMode (withMask f.mask (.trap t (illegal sub)))) c sl)
        | .word t bits _ (.ok i) => onNext (issuedLane s c sl k g (b.at k).pc) (exec i { t with word := bits })
      | _, _ => .next s
/-- The turn of a matrix sequencer. -/
def runSeq (b : Nat) (s : State) : Out :=
  match s.block? b with
  | none => .next s
  | some x =>
    match x.seq with
    | none => .next s
    | some q =>
      if seqHeld s b x q then .next s
      else match fetchMatrix b q.pc s with
        | .stop (.trap t i) => .next (stopSeq t b i)
        | .stop (.park t r w) => .next (parkM b t r w)
        | .stop _ => .next s
        | .word t _ _ (.error sub) => .next (stopSeq t b (illegal sub))
        | .word t bits _ (.ok i) => exec i { t with word := bits }
/-- The step of the party in turn. A turn that names no stream, no event and no port of the module does nothing. -/
def runTurn (s : State) : Out :=
  match s.turn with
  | .scalar c sl => if c < Config.cores ∧ sl < Config.slots then runScalar c sl s else .next s
  | .lane c sl => if c < Config.cores ∧ sl < Config.slots then runLane c sl s else .next s
  | .seq c b => if c < Config.cores ∧ b < Config.blockSlots then runSeq (c * 8 + b) s else .next s
  | .event i => if wordKind i = .event then exec i s else .next s
  | .egress p => .next (egress s p)
  | .idle => .next s

/-! ## Between two steps -/

/-- A stream of the module. -/
def boundStream : StreamId → StreamId
  | .scalar c sl => .scalar (c % 384) (sl % 48)
  | .split c sl k => .split (c % 384) (sl % 48) (k % 16)
  | .seq c b => .seq (c % 384) (b % 8)
/-- What an event brings names a core, a slot and a die of the module. -/
def boundInput (i : Input) : Input :=
  { i with stream := boundStream i.stream, core := i.core % 384, slot := i.slot % 48, die := i.die % 8 }
/-- Whether the instruction that made a write is still under way: a stream of its kind is parked at it (R393). -/
def Who.writing (s : State) (w : Who) (x : Block) : Bool :=
  if w.agent = 2 then (x.seq.map (fun q => q.park.isSome && q.pc == w.pc)).getD false
  else ((s.group? w.core w.slot).map (fun g =>
    if w.agent = 1 then g.park.isSome && g.spc.toNat == w.pc
    else (g.lanes.map (fun b => (List.range 4).any (fun k => (b.at k).valid && (b.at k).park.isSome && (b.at k).pc.toNat == w.pc))).getD false)).getD false
/-- Blocks that wrote to a watched region that has STOP set, and whose writing instructions have completed, stop (R393). -/
def settleWatch (s : State) : State :=
  let due (x : Block) : Bool := (x.watch.map (fun w => !w.writing s x)).getD false
  if s.blocks.any (fun b => due b.2) then
    { s with blocks := s.blocks.mapV (fun _ x => if due x then { x with stopped := true, dumped := false, cause := 0x51, watch := none } else x) }
  else s
/-- Clocks pass, watched writes stop their blocks, kills that are due take effect, failures reach their groups, lines beyond the room of a
cache leave it, requests to peers get their ports, and the next party comes. -/
def advance (s : State) : State :=
  let d := Config.clocks s.tick
  let s := serveSelfAll (routeAll (trimCaches (settlePlaces (settleFailed (settleBad (settleKills (settleWatch (stuckClocks { s with clock := s.clock + d } d))))))))
  { s with tick := s.tick + 1, input := boundInput (Config.input s.tick), turn := Config.turn s.tick }

/-! ## A word in place -/

/-- The stage of the loaded program: one block of one group, whose code of every stream begins at 0x4000. -/
def bootStage : Stage :=
  { sid := 0, rows := 1, cols := 1, groups := 1, seq := true, vregs := 256, roles := 0, scratch := 1024, lslice := 0, weight := 0
    batch := 0, nin := 0, nout := 0, linger := 0, sentry := 0x4000, lbase := 0x4000, mbase := 0x4000, trapspill := 0, ins := [], outs := [] }
/-- The neighbourhood, block and group of the program: slot 47 of core 0, the firmware agent's (Table 0-1). -/
def bootNbhd : Nbhd := { die := 0, row := 0, col := 0, stage := bootStage, part := 0, ctx := 0, left := 1, agent := true, handle := 2 ^ 16 }
def bootBlock (matrix : Bool) : Block :=
  { nb := 0, k := 0, ticket := 0, groups := [47], base := 0, seq := if matrix then some {} else none }
def bootGroup (lane : Bool) : Group :=
  { block := 0, gidx := 0, spc := 0x4000, ssp := 0, live := BitVec.allOnes 32
    lb := if lane then some (freshBlock 0 (BitVec.allOnes 32) Config.fmtrReset 0 [0, 0, 0, 0]) else none }
/-- Tables that map the first GiB to itself with every right: the root at 0x10000 and one table at 0x20000 (Table 4-3). -/
def bootTables : List (Nat × Byte) := cellsAt 0x10000 (bytesOf 8 0x20001) ++ cellsAt 0x20000 (bytesOf 8 0xFA)
/-- The partition of the program: every core. -/
def bootPart : Part :=
  { desc := { quads := 2 ^ 96 - 1, slots := 0, uqlo := 0, uqhi := 0, qhbm := 0, qnet := 0, qfab := 0, ivt := 0, logbase := 0, logent := 0
              ranges := [], caldera := 0 } }
/-- A powered-on module whose next step fetches the word w of nbits bits, in the stream that has words of that length. -/
def placeWord (s : State) (nbits w : Nat) : State :=
  let lane := nbits == 96
  let matrix := nbits == 64
  { s with
    turn := if lane then .lane 0 47 else if matrix then .seq 0 0 else .scalar 0 47
    mem := Memory.write s.mem (bootTables ++ cellsAt 0x4000 (bytesOf 12 (w % 2 ^ nbits)))
    groups := s.groups.set 47 (bootGroup lane), blocks := s.blocks.set 0 (bootBlock matrix), nbhds := s.nbhds.set 0 bootNbhd
    ctxs := s.ctxs.set 0 { part := 0, ptroot := 0x10000 }, parts := s.parts.set 0 bootPart
    cores := s.cores.set 0 {}, dies := s.dies.set 0 {}, pageMap := [], saveOps := [] }

end Sys2Proof.Machine
end

