-- ==== Sys2Proof/Machine/Step.lean ====
section
/-! DEFINITION. One step of the module, and the state in which a given word is the next to run. -/

namespace Sys2Proof.Machine

/-- One step: the party in turn does what it does, and then clocks pass and the next party comes. -/
def step (s : State) : Host.Outcome State Fault Refusal := onNext advance (runTurn s)

/-- The state with a word where the next step fetches: a powered-on module with a program loaded (log 8). -/
def State.withFetchWord (s : State) (nbits w : Nat) : State := placeWord s nbits w

end Sys2Proof.Machine
end

