-- ==== Sys2Proof/Safety.lean ====
section
/-! DEFINITION. What claims are stated in: the canonical form of the state's memories, runs, the streams that are ready to issue
a word, what a complete word leaves, and the results of the integer words in the arithmetic of bit vectors. -/

namespace Sys2Proof.Machine
open Bits

/-- The memory, the chip scratchpads and the core scratchpads are in canonical form. -/
def State.canonical (s : State) : Bool := Memory.wf s.mem && Memory.wf s.chip && Memory.wf s.spad
/-- A run of n steps that meets no fault and no refusal. -/
def runs : Nat → State → Prop
  | 0, _ => True
  | n + 1, s => ∃ t, step s = .next t ∧ runs n t

/-! ## The scalar stream -/

/-- The scalar stream of the group g in slot sl of core c is in turn; no register of its word is pending (R144), its role is none of a
mask of denied roles (R5), and where the word is privileged it is the firmware agent's (R366). -/
abbrev ScalarTurn (s : State) (c sl : Nat) (g : Group) (priv : Bool) (deny : Nat) (regs : List Nat) : Prop :=
  s.turn = .scalar c sl ∧ s.group? c sl = some g ∧ (priv = true → sl = Config.agentSlot) ∧ bit deny (roleOf s g) = false ∧
  (∀ r ∈ regs, g.sname r ∉ g.pendS)
/-- A scalar word of len bytes is complete in a state: the PC has moved past it (R14, R17). -/
abbrev doneScalar (s : State) (c sl len : Nat) : State := doneS s c sl (fun pc => pc + BitVec.ofNat 64 len)
/-- A complete scalar word of len bytes that wrote v to register d and nothing else. -/
def wroteScalar (s : State) (c sl len : Nat) (d : BitVec 6) (v : W64) : State :=
  s.updGroup c sl (fun g => { g.setS (g.sname d.toNat) v with spc := g.spc + BitVec.ofNat 64 len, park := none, arrived := none })
/-- Nothing is on its way to the group g of a slot: no load, no qualified load sent to a peer, and no lane read of a tile (R366). -/
abbrev NothingOnWay (s : State) (c sl : Nat) (g : Group) : Prop :=
  (∀ l ∈ (s.core c).loads, l.slot ≠ sl) ∧
  (∀ r ∈ s.requests, r.kind = 0 → r.strong = true → r.core = c → r.slot = sl → r.st ≠ 0) ∧
  (∀ n, s.nbhd? (s.blockOf g).nb = some n → ∀ o ∈ n.ops, o.st = 4 → ∀ k, o.strm ≠ .split c sl k)
/-- A register field as the group's mode reads it. -/
def Group.reg (g : Group) (r : BitVec 6) : W64 := g.s (g.sname r.toNat)
/-- A 32-bit result in a 64-bit register: sign-extended for i32 (code 2), else zero-extended (R252). -/
def widen32 (f : BitVec 3) (x : W32) : W64 := if f = 2 then x.signExtend 64 else x.setWidth 64
/-- An operator at 64 bits for i64 and n64, at 32 bits for the other types (R252). -/
def byWidth1 (f : BitVec 3) (wide : W64 → W64) (narrow : W32 → W32) (x : W64) : W64 :=
  if f.toNat < 2 then wide x else widen32 f (narrow (x.setWidth 32))
def byWidth2 (f : BitVec 3) (wide : W64 → W64 → W64) (narrow : W32 → W32 → W32) (x y : W64) : W64 :=
  if f.toNat < 2 then wide x y else widen32 f (narrow (x.setWidth 32) (y.setWidth 32))
/-- Whether a scalar type is signed: i64 and i32 (R252). -/
def signedType (f : BitVec 3) : Bool := f == 0 || f == 2
/-- The high half of a product, the lesser and the greater operand, the carry of a sum, and |x|, at any width. -/
def highHalf {w : Nat} (sgn : Bool) (x y : BitVec w) : BitVec w :=
  if sgn then BitVec.ofInt w (x.toInt * y.toInt / 2 ^ w) else BitVec.ofNat w (x.toNat * y.toNat / 2 ^ w)
def below {w : Nat} (sgn : Bool) (x y : BitVec w) : Bool := if sgn then x.slt y else x.ult y
def lesser {w : Nat} (sgn : Bool) (x y : BitVec w) : BitVec w := if below sgn x y then x else y
def greater {w : Nat} (sgn : Bool) (x y : BitVec w) : BitVec w := if below sgn x y then y else x
def carryOut {w : Nat} (x y : BitVec w) : BitVec w := if 2 ^ w ≤ x.toNat + y.toNat then 1 else 0
def magnitude {w : Nat} (x : BitVec w) : BitVec w := if x.msb then -x else x
/-- Set bits, and leading zeros. -/
def onesIn {w : Nat} (x : BitVec w) : BitVec w := BitVec.ofNat w ((List.range w).countP x.getLsbD)
def zerosAbove {w : Nat} (x : BitVec w) : BitVec w := BitVec.ofNat w (((List.range w).reverse.takeWhile (fun i => !x.getLsbD i)).length)
/-- A condition of Table 11-4 on integers: 0 eq, 1 ne, 2 lt, 3 le, 4 gt, 5 ge. -/
def holdsInt {w : Nat} (c : BitVec 5) (sgn : Bool) (x y : BitVec w) : Bool := match c.toNat with
  | 0 => x == y
  | 1 => x != y
  | 2 => below sgn x y
  | 3 => !below sgn y x
  | 4 => below sgn y x
  | _ => !below sgn x y

/-! ## The lane stream -/

/-- The group as its lane stream issues split k: the other ready splits count, and a change of split drops the latches (R218, R325). -/
def atIssue (s : State) (g : Group) (b : LaneBlock) (k : Nat) : Group := (g.setLanes (some (passOver s.clock g b k))).issuing k
/-- The executing lanes of a word (R21, R85). -/
def executing (g : Group) (b : LaneBlock) (k : Nat) (prd : BitVec 4) : W32 :=
  (b.at k).mask &&& guardMask g prd &&& (b.at k).unfinished.getD (BitVec.allOnes 32)
/-- Split k of the lane block b of the group g is the one that issues; its role is none of a mask of denied roles, and where no part of
its word is done already, no source and no destination of it is EMPTY in an executing lane (R216, R217, R325). -/
abbrev LaneTurn (s : State) (c sl k : Nat) (g : Group) (b : LaneBlock) (deny : Nat) (prd : BitVec 4) (srcs : List Src) (dsts : List (Nat × Nat)) : Prop :=
  s.turn = .lane c sl ∧ s.group? c sl = some g ∧ pickSplit s.clock g = some k ∧ g.lanes = some b ∧ bit deny (roleOf s g) = false ∧
  ((b.at k).unfinished.isSome = true ∨ regCheck (atIssue s g b k) (executing g b k prd) (keepers b) srcs dsts = none)
/-- The group with the latches that the sources of a word leave, where a lane executes (R218). -/
def latched (m : W32) (srcs : List Src) (g : Group) : Group := if m = 0 then g else srcs.foldl (Group.latch (g.reading srcs)) g
/-- What the word finds: its sources read their latches where these are tagged with them, and else the bank (R218). -/
def laneEnv (s : State) (c sl k : Nat) (g : Group) (b : LaneBlock) (prd : BitVec 4) (srcs : List Src) : LaneEnv :=
  { c, sl, k, sp := b.at k, exec := executing g b k prd, keep := keepers b, never := prd == 8#4
    g := { latched (executing g b k prd) srcs (atIssue s g b k) with vregs := ((atIssue s g b k).reading srcs).vregs }
    bank := (atIssue s g b k).vregs }
/-- The state that the word starts from. -/
def laneStart (s : State) (e : LaneEnv) : State := s.setGroup e.c e.sl { e.g with vregs := e.bank }
/-- A lane word is complete in a state: the PC of its split has moved past it, and joins and merges follow (R327, R328). -/
def doneLane (s : State) (c sl k : Nat) : State :=
  settleLanes (updSplit s c sl k (fun x => { x with pc := x.pc + 1, park := none, unfinished := none, rel := false })) c sl
/-- A complete lane word that wrote a value to a register, or a pair, in its executing lanes. -/
def wroteLanes (s : State) (e : LaneEnv) (pair : Bool) (d : BitVec 8) (f : Nat → Nat) : State :=
  doneLane ((laneStart s e).updGroup e.c e.sl (fun g => g.putLanes pair d.toNat (e.exec &&& e.keep) f)) e.c e.sl e.k
/-- A complete lane word that wrote a predicate in its executing lanes. -/
def wrotePred (s : State) (e : LaneEnv) (p : BitVec 3) (f : Nat → Bool) : State :=
  doneLane ((laneStart s e).updGroup e.c e.sl (fun g =>
    g.setP p.toNat (e.exec &&& e.keep) (BitVec.ofNat 32 (maskOf ((lanesOf e.exec).filter f))))) e.c e.sl e.k
/-- A complete lane word whose destinations a producer writes later (R215). -/
def producesLanes (s : State) (e : LaneEnv) (pair : Bool) (d : BitVec 8) (f : Nat → Nat) : State :=
  doneLane ((laneStart s e).updGroup e.c e.sl (fun g => g.producing (e.exec &&& e.keep) ((List.range (if pair then 2 else 1)).map (· + d.toNat))
    (fun i => regWords pair d.toNat (f i)))) e.c e.sl e.k
/-- Split k is the only split of a lane block that has no join open: nothing merges, joins or clashes when it moves on. -/
def LaneBlock.lone (b : LaneBlock) (k : Nat) : Prop := b.joins = [] ∧ ∀ j < 4, j ≠ k → (b.at j).valid = false
/-- An operator at 64 bits for the types of pairs, at 32 bits for the others (R22, R240). -/
def laneOp1 (f : BitVec 4) (wide : W64 → W64) (narrow : W32 → W32) (x : Nat) : Nat :=
  if isPair f then (wide (BitVec.ofNat 64 x)).toNat else (narrow (BitVec.ofNat 32 x)).toNat
def laneOp2 (f : BitVec 4) (wide : W64 → W64 → W64) (narrow : W32 → W32 → W32) (x y : Nat) : Nat :=
  if isPair f then (wide (BitVec.ofNat 64 x) (BitVec.ofNat 64 y)).toNat else (narrow (BitVec.ofNat 32 x) (BitVec.ofNat 32 y)).toNat
/-- Whether a lane type is signed: i32 and i64 (R240). -/
def signedLane (f : BitVec 4) : Bool := f == 1 || f == 3

/-! ## The matrix sequencer -/

/-- The sequencer q of the block x with key b is in turn, and no earlier MMA is in flight (R258). -/
abbrev SeqTurn (s : State) (b : Nat) (x : Block) (q : Seq) : Prop :=
  s.turn = .seq (b / 8) (b % 8) ∧ s.block? b = some x ∧ x.seq = some q ∧ q.flights = []
/-- A matrix word is complete in a state: the PC has moved past it. -/
def doneSeq (s : State) (b : Nat) : State := updSeq s b (fun q => { q with pc := q.pc + 1, park := none, prog := 0, buf := [], omap := none, disp := none })
/-- The patterns that elements of a direct map read as, one after another, and the state after the reads; none where one of them does
not read. -/
def readsTo (b : Nat) (m : OMap) : List Nat → State → Option (List Nat × State)
  | [], s => some ([], s)
  | j :: js, s => match readElem s (seqIssuer s b 8) 0 m j with
    | .ok s e => (readsTo b m js s).map (fun r => (e.pat :: r.1, r.2))
    | _ => none

/-- What a unit of an MSTA finds before its homes take it: its places' leaves are kept, the die has let go of its peer lines, and its core
of the local ones; the second component says that the core could. -/
def unitStart (s : State) (b : Nat) (hops : List Hop) (u : StaUnit) : State :=
  (byPeer (peerCells (hops.zip (u.cells.map (·.2))))).foldl (fun s y => dropPeerLine s (b / 8) y.1 (farAddr y)) (keepLeaves s (partyOfBlock s b) hops)
def unitLines (hops : List Hop) (u : StaUnit) : List (Nat × Byte) := lineCells (hops.zip (u.cells.map (·.2)))
def unitFreed (s : State) (b : Nat) (hops : List Hop) (u : StaUnit) : Bool × State :=
  let v := unitStart s b hops u
  dropLines (b / 8) (lines64 (unitLines hops u)) (leaveQueue v (b / 8) fetcherTable (seqIssuer v b 8).engMark)
/-- A unit of an MSTA translates, with the bytes that are checked with it, and lies in no pool page; no line of it waits for an earlier store,
there is room in the request table, the core's own copies are dropped, and its homes take it, which leaves the state t (R88, R124, R274). -/
abbrev UnitReady (s : State) (b : Nat) (u : StaUnit) (hops : List Hop) (t : State) : Prop :=
  let p := partyOfBlock s b
  let v := unitStart s b hops u
  let far := byPeer (peerCells (hops.zip (u.cells.map (·.2))))
  (∃ all, route s p .write ((u.cells.head?.map (·.1)).getD 0) (u.cells.length + u.ahead) = .ok all ∧ hops = all.take u.cells.length) ∧
  snapFault s p.nb.ctx hops = none ∧ far.findSome? (fun y => remoteBlock v (b / 8) (56 + b % 8) y.1 (farAddr y)) = none ∧
  tableRoom v (b / 8) fetcherTable (seqIssuer v b 8).engMark far.length = true ∧ (unitFreed s b hops u).1 = true ∧
  homeAll (· == .stream (.seq (b / 8) (b % 8)) false)
    { agent := 2, core := b / 8, slot := 47, pc := (p.blk.seq.map (·.pc)).getD 0, block := some b } (byLine (unitLines hops u))
    (unitFreed s b hops u).2 = .done t
/-- The unit written: host writes posted, scratchpads written, and a posted store for each peer line (R103, R157, R274). -/
def unitStored (s : State) (b : Nat) (hops : List Hop) (u : StaUnit) (t : State) : State :=
  let x := hops.zip (u.cells.map (·.2))
  let t := writeSpad (toHost (addLines t (b / 8) (48 + b % 8) (lines64 (unitLines hops u))) (10000000 + b) (unitLines hops u)) (partyOfBlock s b).nb.ctx true (spadCells x)
  (byPeer (peerCells x)).foldl (fun s y => postUnit b y.1 y.2 s) { t with chip := Memory.write t.chip (chipCells x) }
/-- The units of an MSTA are written one after another, from the n-th, which leads from the state s to t; each counts in the progress, and its
elements draw (R68, R274). -/
def unitsWritten (b : Nat) (draws : StaUnit → Nat) : Nat → List StaUnit → State → State → Prop
  | _, [], s, t => t = s
  | n, u :: us, s, t => ∃ hops v, UnitReady s b u hops v ∧
    unitsWritten b draws (n + 1) us (updSeq (unitStored s b hops u v) b (fun q => { q with prog := n + 1, rng := drawn (draws u) q.rng })) t

/-! ## Accesses -/

/-- The lanes of an access are aligned and each lies in one accepted aperture, every byte translates, no write meets a pool page, and the
request table has room, and no home holds an earlier load of the thread (R77, R88, R137, R138, R288, R300). -/
abbrev AccessReady (s : State) (i : Issuer) (kind : Access) (align accept : Nat) (l : List Acc) : Prop :=
  misaligned i align l = none ∧ outside i accept l = none ∧ (routes s i kind l).2 = [] ∧
  (kind = .read ∨ snapFault s i.p.nb.ctx ((routes s i kind l).1.flatMap (·.2)) = none) ∧
  tableRoom s i.c i.sl i.tag (entriesOf ((routes s i kind l).1.flatMap (·.2))) = true ∧ (routes s i kind l).1.findSome? (heldLane s i) = none
/-- Whether two places are one byte of a core scratchpad, of a chip scratchpad, or of a line that the caches know by its key. -/
def sameByte : Spot → Spot → Bool
  | .spad _ a, .spad _ b => a == b
  | .chip a, .chip b => a == b
  | x, y => x.key.isSome && x.key == y.key && x.off == y.off
/-- The bytes that an access stores, with their places. -/
def storedCells (s : State) (i : Issuer) (l : List Acc) : List (Hop × Byte) :=
  (routes s i .write l).1.flatMap (fun x => x.2.zip x.1.data)
/-- Every lane performed in order, or none where one of them waits or finds no room. -/
def performAll (f : Acc → List Hop → State → SRes) : List (Acc × List Hop) → State → Option State
  | [], s => some s
  | x :: xs, s => match f x.1 x.2 s with
    | .done s => performAll f xs s
    | _ => none
/-- The state after every lane of an access is performed. -/
def performed (s : State) (i : Issuer) (kind : Access) (l : List Acc) (f : Acc → List Hop → State → SRes) : Option State :=
  performAll f (routes s i kind l).1 (accessStart s i (routes s i kind l).1)
/-- A strong access before its remote lanes are asked: its release noted, and its lines among those its writer wrote (R129, R133). -/
def strongBegun (i : Issuer) (what : Nat) (rel : Bool) (x : List (Acc × List Hop)) (s : State) : State :=
  let s := if rel then noteRel s i else s
  if what = 0 then s else addLines s i.c i.sl (localLines (x.flatMap (·.2)))
/-- A strong access is performed: it is ready; the steps of its release are done, now or before, which leaves the state r; the remote lanes of a
load or an atomic are answered, at v; own copies of what a load reads are dropped, at p; and every lane is performed, at t (R133 to R135). -/
abbrev StrongSteps (s : State) (i : Issuer) (what : Nat) (acq rel : Bool) (obs align accept : Nat) (l : List Acc) (r v p t : State) : Prop :=
  let x := (routes s i (strongKind what) l).1
  let u := strongBegun i what rel x r
  AccessReady s i (strongKind what) align accept l ∧ l ≠ [] ∧
  (if rel && !relDone (accessStart s i x) i then releaseSteps (accessStart s i x) i.c i.sl obs = .ok r else r = accessStart s i x) ∧
  (if what = 1 then v = u else performAll (askLane i (what == 0) (if rel then some (u.core i.c).sig else none)) x u = some v) ∧
  strongFails v i l = [] ∧ (if what = 0 then readsReady i (x.flatMap (·.2)) v = .done p else p = v) ∧
  performAll (strongLane i what rel) x (if acq then (l.filterMap (strongOf p i)).foldl (noteGens i) p else p) = some t
/-- The end of a strong access: the writer has released, and the lines that its acquire received are invalid (R133, R134). -/
def strongEnd (s : State) (i : Issuer) (what : Nat) (acq rel : Bool) (obs : Nat) (l : List Acc) (p t : State) : State :=
  let t := if rel then released t i.c i.sl else t
  if acq then acquire t i.c i.sl obs (localLines ((routes s i (strongKind what) l).1.flatMap (·.2))) (farSigs p i l) else t
/-- A complete lane word whose split kept, while it ran, that no lane of it is unfinished. -/
def doneAccess (s : State) (c sl k : Nat) : State := doneLane (updSplit s c sl k (fun x => { x with unfinished := some 0 })) c sl k

end Sys2Proof.Machine
end

