-- ==== Sys2Proof/Certificates/Slice0/Obligations.lean ====
section
/-! DEFINITION. What is claimed of the machine. -/

open Sys2Proof Sys2Proof.Machine Sys2Proof.Bits

/-! ## Scalar arithmetic (R252 to R256) -/

/-- The two-source integer words at the width of their type: sums, differences, products and their high halves, minima, maxima, carries,
bitwise operators and shifts by bits 7:0 of the second source, and nothing else changes (R252). The one-source integer words: |A|, which
is A for an unsigned type, −A, NOT A, set bits, leading zeros, bits reversed and A (R252). -/
def Obligations.ScalarIntegerWords : Prop :=
  (∀ (s : State) (c sl : Nat) (g : Group) (d a b : BitVec 6) (f : BitVec 3),
     ScalarTurn s c sl g false 0 [d.toNat, a.toNat, b.toNat] →
     let put (wide : W64 → W64 → W64) (narrow : W32 → W32 → W32) : Host.Outcome State Fault Refusal :=
       .next (wroteScalar s c sl 4 d (byWidth2 f wide narrow (g.reg a) (g.reg b)))
     exec (.sadd d a b f) s = put (· + ·) (· + ·) ∧
     exec (.ssub d a b f) s = put (· - ·) (· - ·) ∧
     exec (.smul d a b f) s = put (· * ·) (· * ·) ∧
     exec (.smulh d a b f) s = put (highHalf (signedType f)) (highHalf (signedType f)) ∧
     exec (.smin d a b f) s = put (lesser (signedType f)) (lesser (signedType f)) ∧
     exec (.smax d a b f) s = put (greater (signedType f)) (greater (signedType f)) ∧
     exec (.saddc d a b f) s = put carryOut carryOut ∧
     exec (.sand d a b f) s = put (· &&& ·) (· &&& ·) ∧
     exec (.sor d a b f) s = put (· ||| ·) (· ||| ·) ∧
     exec (.sxor d a b f) s = put (· ^^^ ·) (· ^^^ ·) ∧
     exec (.sshl d a b f) s = put (fun x y => x <<< (y.toNat % 256)) (fun x y => x <<< (y.toNat % 256)) ∧
     exec (.sshr d a b f) s = put (fun x y => x >>> (y.toNat % 256)) (fun x y => x >>> (y.toNat % 256)) ∧
     exec (.ssra d a b f) s = put (fun x y => x.sshiftRight (y.toNat % 256)) (fun x y => x.sshiftRight (y.toNat % 256))) ∧
  (∀ (s : State) (c sl : Nat) (g : Group) (d a : BitVec 6) (f : BitVec 3),
     ScalarTurn s c sl g false 0 [d.toNat, a.toNat] →
     let put (wide : W64 → W64) (narrow : W32 → W32) : Host.Outcome State Fault Refusal :=
       .next (wroteScalar s c sl 4 d (byWidth1 f wide narrow (g.reg a)))
     exec (.sabs d a f) s = put (fun x => if signedType f then magnitude x else x) (fun x => if signedType f then magnitude x else x) ∧
     exec (.sneg d a f) s = put (fun x => -x) (fun x => -x) ∧
     exec (.snot d a f) s = put (fun x => ~~~x) (fun x => ~~~x) ∧
     exec (.spopc d a f) s = put onesIn onesIn ∧
     exec (.sclz d a f) s = put zerosAbove zerosAbove ∧
     exec (.sbrev d a f) s = put (fun x => x.reverse) (fun x => x.reverse) ∧
     exec (.smov d a f) s = put (fun x => x) (fun x => x))

/-- SCMP writes 1 where the condition of Table 11-4 that its SUB selects, 0 to 5, holds at the width of its type, and 0 otherwise; a word of
its cell with a SUB of 6 to 31 is refused at decode with the subcode 2, and the step traps ILLEGAL_ENCODING there (R253). -/
def Obligations.ScalarCompare : Prop :=
  (∀ (s : State) (c sl : Nat) (g : Group) (d a b : BitVec 6) (cnd : BitVec 5) (f : BitVec 3),
    ScalarTurn s c sl g false 0 [d.toNat, a.toNat, b.toNat] → cnd.toNat ≤ 5 →
    exec (.scmp d a b cnd f) s = .next (wroteScalar s c sl 4 d
      (if (if f.toNat < 2 then holdsInt cnd (signedType f) (g.reg a) (g.reg b)
        else holdsInt cnd (signedType f) ((g.reg a).setWidth 32) ((g.reg b).setWidth 32)) = true then 1 else 0))) ∧
  (∀ (d a b : BitVec 6) (sub : BitVec 5) (f : BitVec 3) (imm : BitVec 32),
    (sub.toNat ≤ 5 → f.toNat < 5 → decodeScalar (0x01#6 ++ d ++ a ++ b ++ sub ++ f) imm = .ok (.scmp d a b sub f)) ∧
    (6 ≤ sub.toNat → decodeScalar (0x01#6 ++ d ++ a ++ b ++ sub ++ f) imm = .error 2)) ∧
  (∀ (s t : State) (c sl : Nat) (g : Group) (bits : BitVec 96) (len : Nat),
    s.turn = .scalar c sl → s.group? c sl = some g → c < Config.cores → sl < Config.slots → groupStopped s g (.scalar c sl) = false → trapWaits g = false →
    g.park = none → g.hold ≤ s.clock → fetchScalar (scalarFetcher s c sl g) g.spc s = .word t bits len (.error 2) →
    step s = .next (advance (stepped (raise t c sl 0 0 true { cause := 1, info := 2 }) c sl)))

/-- The words with an immediate: 64-bit arithmetic with the sign-extended 13-bit immediate, shifts by a 6-bit count, bit fields, the 32-bit
immediates of SLI, SLIH and SLEA, and the choice of SSEL; each is complete. At decode a bit field of no bits, or one that reaches past bit
63, gets the subcode 4, and a field of SLI, SLIH or SSEL that must be zero the subcode 3 (R29, R255, R256). -/
def Obligations.ScalarImmediates : Prop :=
  (∀ (s : State) (c sl : Nat) (g : Group) (d a b n : BitVec 6) (i : BitVec 13) (l : BitVec 7) (j : BitVec 32),
     ScalarTurn s c sl g false 0 [d.toNat, a.toNat, b.toNat, n.toNat] →
     let x := g.reg a
     exec (.saddImm d a i) s = .next (wroteScalar s c sl 4 d (x + i.signExtend 64)) ∧
     exec (.smulImm d a i) s = .next (wroteScalar s c sl 4 d (x * i.signExtend 64)) ∧
     exec (.sandImm d a i) s = .next (wroteScalar s c sl 4 d (x &&& i.signExtend 64)) ∧
     exec (.sorImm d a i) s = .next (wroteScalar s c sl 4 d (x ||| i.signExtend 64)) ∧
     exec (.sxorImm d a i) s = .next (wroteScalar s c sl 4 d (x ^^^ i.signExtend 64)) ∧
     exec (.sshlImm d a n) s = .next (wroteScalar s c sl 4 d (x <<< n.toNat)) ∧
     exec (.sshrImm d a n) s = .next (wroteScalar s c sl 4 d (x >>> n.toNat)) ∧
     exec (.ssraImm d a n) s = .next (wroteScalar s c sl 4 d (x.sshiftRight n.toNat)) ∧
     exec (.sbfe d a l n) s = .next (wroteScalar s c sl 4 d (BitVec.ofNat 64 ((x >>> n.toNat).toNat % 2 ^ l.toNat))) ∧
     exec (.sbfi d a l n) s = .next (wroteScalar s c sl 4 d
       ((g.reg d &&& ~~~(BitVec.ofNat 64 (2 ^ l.toNat - 1) <<< n.toNat)) ||| (BitVec.ofNat 64 (x.toNat % 2 ^ l.toNat) <<< n.toNat))) ∧
     exec (.sli d j) s = .next (wroteScalar s c sl 8 d (j.signExtend 64)) ∧
     exec (.slih d j) s = .next (wroteScalar s c sl 8 d (j ++ (g.reg d).setWidth 32)) ∧
     exec (.slea d a b n j) s = .next (wroteScalar s c sl 8 d (x + g.reg b <<< n.toNat + j.signExtend 64)) ∧
     exec (.ssel d a b n) s = .next (wroteScalar s c sl 8 d (if g.reg n = 0 then g.reg b else x))) ∧
  (∀ (d a b c : BitVec 6) (l : BitVec 7) (n : BitVec 6) (imm : BitVec 32),
     let bad : Prop := l = 0 ∨ 64 < n.toNat + l.toNat
     decodeScalar (0x18#6 ++ d ++ a ++ l ++ n ++ 0#1) imm = (if bad then .error 4 else .ok (.sbfe d a l n)) ∧
     decodeScalar (0x19#6 ++ d ++ a ++ l ++ n ++ 0#1) imm = (if bad then .error 4 else .ok (.sbfi d a l n)) ∧
     decodeScalar (0x38#6 ++ d ++ a ++ b ++ c ++ 0#2) imm = (if a = 0 ∧ b = 0 ∧ c = 0 then .ok (.sli d imm) else .error 3) ∧
     decodeScalar (0x39#6 ++ d ++ a ++ b ++ c ++ 0#2) imm = (if a = 0 ∧ b = 0 ∧ c = 0 then .ok (.slih d imm) else .error 3) ∧
     decodeScalar (0x3A#6 ++ d ++ a ++ b ++ c ++ 0#2) imm = .ok (.slea d a b c imm) ∧
     decodeScalar (0x3B#6 ++ d ++ a ++ b ++ c ++ 0#2) imm = (if imm = 0 then .ok (.ssel d a b c) else .error 3))

/-- The scalar floating-point words round once, to nearest even, and write an f32 result with bits 63:32 zero (R254). -/
def Obligations.ScalarFloat : Prop :=
  ∀ (s : State) (c sl : Nat) (g : Group) (d a b : BitVec 6) (cnd : BitVec 5) (t f : BitVec 3),
    ScalarTurn s c sl g false 0 [d.toNat, a.toNat, b.toNat] →
    let fm := sFmt f
    let x := (g.reg a).toNat % 2 ^ fm.width
    let y := (g.reg b).toNat % 2 ^ fm.width
    let put (v : Nat) : Host.Outcome State Fault Refusal := .next (wroteScalar s c sl 4 d (BitVec.ofNat 64 v))
    exec (.sfadd d a b f) s = put (Alu.fadd fm ⟨.rne, 0, 0⟩ x y) ∧
    exec (.sfmul d a b f) s = put (Alu.fmul fm ⟨.rne, 0, 0⟩ x y) ∧
    exec (.sfmin d a b f) s = put (Numbers.minMax fm false x y) ∧
    exec (.sfmax d a b f) s = put (Numbers.minMax fm true x y) ∧
    exec (.sfcmp d a b cnd f) s = put (if Numbers.fcond cnd.toNat (Numbers.value fm x) (Numbers.value fm y) then 1 else 0) ∧
    exec (.scvt d a t f) s = put (Numbers.round fm .rne false (sValue t (g.reg a).toNat))

/-! ## Scalar control flow and the block barrier words (R317 to R323, R337, R340) -/

/-- A scalar branch goes to PC + 4 × OFF, or to the next word where its condition fails; SCALL links PC + 4; SRET goes to the address in its
register where that is a multiple of 4 (R340). SRET to an address that is not a multiple of 4 traps MISALIGNED with the PC unchanged
(R340). LISSUE appends a target, its four uniforms and the captured FMTR to the decision queue while fewer than 16 entries stand in it
(R319); in trap mode it starts the trap lane block of all lanes where none runs (R370). LSYNC goes on once the lane stream has drained
(R321); what follows either is ordered after the loads of the other stream that are in flight (R287); SPAUSE of 0, and one that has
waited, goes on, and another waits min(S[a], 65535) clocks (R322). That a wait is held as a park with its code and condition is the
model's form (log 9). -/
def Obligations.ScalarControl : Prop :=
  ((∀ (s : State) (c sl : Nat) (g : Group) (a : BitVec 6) (o : BitVec 20),
      ScalarTurn s c sl g false 0 [a.toNat] →
      let goes (pc : W64) : State := doneS s c sl (fun _ => pc)
      exec (.sjmp o) s = .next (goes (g.spc + 4 * o.signExtend 64)) ∧
      exec (.sbrZ a o) s = .next (if g.reg a = 0 then goes (g.spc + 4 * o.signExtend 64) else doneScalar s c sl 4) ∧
      exec (.sbrNz a o) s = .next (if g.reg a = 0 then doneScalar s c sl 4 else goes (g.spc + 4 * o.signExtend 64)) ∧
      exec (.scall a o) s = .next (s.updGroup c sl (fun h =>
        { h.setS (h.sname a.toNat) (g.spc + 4) with spc := g.spc + 4 * o.signExtend 64, park := none, arrived := none })) ∧
      ((g.reg a).toNat % 4 = 0 → exec (.sret a) s = .next (goes (g.reg a)))) ∧
   (∀ (s : State) (c sl : Nat) (g : Group) (a : BitVec 6),
      ScalarTurn s c sl g false 0 [a.toNat] → (g.reg a).toNat % 4 ≠ 0 →
      exec (.sret a) s = .next (raise s c sl 0 0 true { cause := 5, addr := g.reg a }))) ∧
  (∀ (s : State) (c sl : Nat) (g : Group) (a w1 w2 w3 : BitVec 6) (t : BitVec 32),
     ScalarTurn s c sl g false 0 [a.toNat, w1.toNat, w2.toNat, w3.toNat] →
     (g.trapMode = false → g.dq.length < 16 →
       exec (.lissue a w1 w2 w3 t) s = .next (doneScalar ((orderLoads s c sl true).updGroup c sl (fun h =>
         { h with dq := h.dq ++ [{ target := t, ws := [g.reg a, g.reg w1, g.reg w2, g.reg w3], fmtr := h.sfmt }] })) c sl 8)) ∧
     (g.trapMode = true → g.tlb = none →
       exec (.lissue a w1 w2 w3 t) s = .next (doneScalar ((orderLoads s c sl true).updGroup c sl (fun h =>
         { h with tlb := some (freshBlock t (BitVec.allOnes 32) Config.fmtrReset h.ssp [g.reg a, g.reg w1, g.reg w2, g.reg w3]) })) c sl 8)) ∧
     (g.drained = true → exec .lsync s = .next (doneScalar (orderLoads s c sl false) c sl 4)) ∧
     (g.reg a = 0 ∨ g.arrived.isSome → exec (.spause a) s = .next (doneScalar s c sl 4)) ∧
     (g.reg a ≠ 0 → g.arrived = none → exec (.spause a) s = .next (s.updGroup c sl (fun h =>
       { h with arrived := some 0, park := some ⟨11, .clock (s.clock + min (g.reg a).toNat 65535)⟩ }))))

/-- SFMT sets the value that the scalar stream captures, S[a] bits 31:0 with the reserved bits dropped, an SCM of 3 and an RM of 0, 6 or 7
replaced, and changes nothing else of the group: neither the running lane block nor a queued entry. LISSUE captures that value with its
entry, and SFMT takes no trap (R224). -/
def Obligations.CapturedFormats : Prop :=
  (∀ (s : State) (c sl : Nat) (g : Group) (a w1 w2 w3 : BitVec 6) (t : BitVec 32),
    ScalarTurn s c sl g false 0 [a.toNat, w1.toNat, w2.toNat, w3.toNat] →
    (∃ u h, exec (.sfmt a) s = .next u ∧ u.group? c sl = some h ∧ h.sfmt = fmtrFix ((g.reg a).setWidth 32) ∧
      { h with sfmt := g.sfmt, spc := g.spc, park := g.park, arrived := g.arrived } = g ∧ { u with groups := s.groups } = s) ∧
    (g.trapMode = false → g.dq.length < 16 →
      ∃ u h e, exec (.lissue a w1 w2 w3 t) s = .next u ∧ u.group? c sl = some h ∧ h.dq = g.dq ++ [e] ∧ e.fmtr = g.sfmt)) ∧
  (∀ v : BitVec 32, (fmtrFix v).extractLsb' 20 12 = v.extractLsb' 20 12 ∧ (fmtrFix v).extractLsb' 14 1 = v.extractLsb' 14 1 ∧
    (fmtrFix v).extractLsb' 0 14 = 0 ∧
    (fmtrFix v).extractLsb' 18 2 = (if v.extractLsb' 18 2 = 3 then 0 else v.extractLsb' 18 2) ∧
    (fmtrFix v).extractLsb' 15 3 = (if (v.extractLsb' 15 3).toNat ∈ [0, 6, 7] then 1 else v.extractLsb' 15 3))

/-- A word of a hint cell, scalar 0x35, lane 0x7E or matrix 0x3F, decodes whatever stands in its other fields. It goes on to the next word
and has no other effect, with no condition on a register or a full/empty bit, and takes no trap (R34). -/
def Obligations.HintWords : Prop :=
  ((∀ (x : BitVec 26) (imm : BitVec 32), decodeScalar (0x35#6 ++ x) imm = .ok .shint) ∧
    (∀ (vregs : Nat) (x : BitVec 89), decodeLane vregs (0x7E#7 ++ x) = .ok .hint) ∧
    (∀ x : BitVec 58, decodeMatrix (0x3F#6 ++ x) = .ok .mhint)) ∧
  (∀ (s : State) (c sl : Nat) (g : Group), s.turn = .scalar c sl → s.group? c sl = some g →
    exec .shint s = .next (doneScalar s c sl 4)) ∧
  (∀ (s : State) (c sl k : Nat) (g : Group) (b : LaneBlock),
    s.turn = .lane c sl → s.group? c sl = some g → pickSplit s.clock g = some k → g.lanes = some b →
    exec .hint s = .next (doneLane (s.setGroup c sl (atIssue s g b k)) c sl k)) ∧
  (∀ (s : State) (c sl : Nat) (x : Block) (q : Seq), s.turn = .seq c sl → s.block? (c * 8 + sl) = some x → x.seq = some q →
    exec .mhint s = .next (doneSeq s (c * 8 + sl)))

/-- SEXIT frees its slot once the lane stream has drained, the copies are complete and the loads have returned, and, for the last group of
its block, once the sequencer has executed MEXIT; a block's last group takes its block with it (R322, R323). -/
def Obligations.GroupEnds : Prop :=
  ∀ (s : State) (c sl : Nat) (g : Group),
    ScalarTurn s c sl g false 0 [] → g.drained = true → g.copied = true → returned s c sl g = true → reportCopy g = none →
    (seqRuns (s.blockOf g) = true → (liveGroups s g.block).length ≠ 1) →
    exec .sexit s = .next (endGroup s c sl g) ∧ (endGroup s c sl g).group? c sl = none

/-- NBINIT sets EXPECT where no party has arrived, NBARR arrives once the lane stream has drained, no home slice holds an earlier load of
the group, which is performed before, and none waits for a peer (R292), and NBWAIT goes on once PHASE differs
from bit 0 of its register (R337). The arrival that completes the phase of a core's barrier: BAR goes on at once, the phase turns and the
count returns to 0; one that does not complete it counts and parks (R336). That a wait is held as a park with its code and condition is the
model's form (log 9). -/
def Obligations.BarrierWords : Prop :=
  (∀ (s : State) (c sl : Nat) (g : Group) (n : BitVec 4) (a : BitVec 6),
     ScalarTurn s c sl g false 0 [a.toNat] →
     let x := (s.blockOf g).nbs.getD n.toNat {}
     (1 ≤ (g.reg a).toNat → (g.reg a).toNat ≤ 4095 → x.count = 0 →
       exec (.nbinit n a) s = .next (doneScalar (s.updBlock g.block (fun b => { b with nbs := b.nbs.set n.toNat { x with expect := (g.reg a).toNat } })) c sl 4)) ∧
     (g.drained = true → heldGroup s c sl = none → farLoads s c sl = false →
       exec (.nbarr n) s = .next (doneScalar ((bindGroup s c sl).updBlock g.block (fun b => b.nbArrive n.toNat (carriedSig s c sl) false)) c sl 4)) ∧
     (x.phase ≠ (g.reg a).toNat % 2 → exec (.nbwait n a) s = .next (doneScalar (takeCarried s c sl x.lastSig) c sl 4)) ∧
     (x.phase = (g.reg a).toNat % 2 →
       exec (.nbwait n a) s = .next (s.updGroup c sl (fun h => { h with park := some ⟨3, .nb n.toNat ((g.reg a).toNat % 2)⟩ })))) ∧
  (∀ (s : State) (c sl : Nat) (g : Group) (d : BitVec 6),
     ScalarTurn s c sl g false 0 [] → g.arrived = none → g.drained = true → heldGroup s c sl = none → farLoads s c sl = false →
     let part := (s.nbhdOf g).part
     let key := barKey 0 c d.toNat
     let e := barEntry s part key
     let v := carriedSig (bindGroup s c sl) c sl
     let noted := (bindGroup s c sl).updBlock g.block (fun b => if b.arrivals.contains key then b else { b with arrivals := b.arrivals ++ [key] })
     let after := barArrive noted part key v
     (s.part? part).isSome → 1 ≤ e.expect →
     (e.count + 1 = e.expect → e.phase ≤ 1 →
       exec (.bar d 0) s = .next (doneScalar (takeCarried after c sl (e.carried ||| v)) c sl 4)) ∧
     (e.count + 1 ≠ e.expect →
       exec (.bar d 0) s = .next (after.updGroup c sl (fun h => { h with arrived := some e.phase, park := some ⟨3, .bar part key e.phase⟩ }))))

/-! ## Copies and operand maps (R170 to R186) -/

/-- CPY whose record reads as bs, whose shape is in its ranges, whose two sides each lie in one accepted aperture and whose engine has room
enters the engine's queue and the open batch (R170, R173). CPYG whose record reads as bs, with a row of 1 to 4,096 bytes, a count of 1 to
2^20, an aligned index list and both sides in one accepted aperture, enters its engine's queue (R171). How a record is read is log 27. -/
def Obligations.CopyWords : Prop :=
  (∀ (s u : State) (c sl : Nat) (g : Group) (a b : BitVec 6) (e : BitVec 1) (bs : List Byte),
     ScalarTurn s c sl g false 4 [a.toNat, b.toNat] →
     let i := scalarIssuer s c sl g
     let n := (g.reg b).toNat
     engineUsed u c e.toNat < 32 →
     let box (n1 n2 : Nat) : Prop := 1 ≤ n % 2 ^ 24 ∧ 1 ≤ n1 ∧ 1 ≤ n2 ∧
       spanOutside i.p apScalar (wordAt bs 0) (n % 2 ^ 24) n1 n2 (wordAt bs 16) (wordAt bs 32) = none ∧
       spanOutside i.p apScalar (wordAt bs 8) (n % 2 ^ 24) n1 n2 (wordAt bs 24) (wordAt bs 40) = none
     let boxed (n1 n2 : Nat) : Copy :=
       { id := 0, eng := e.toNat, slot := sl, batch := 0, kind := 1,
         src := wordAt bs 0, dst := wordAt bs 8, sst1 := wordAt bs 16, dst1 := wordAt bs 24, sst2 := wordAt bs 32, dst2 := wordAt bs 40,
         rowb := n % 2 ^ 24, n1, n2, pc := g.spc }
     (readRecord i (g.reg a).toNat 16 16 s = .ok u bs → 1 ≤ n → n ≤ 2 ^ 32 →
       i.p.outside apScalar (leAt bs 0 8) n = none → i.p.outside apScalar (leAt bs 8 8) n = none →
       exec (.cpy a b e 0) s = .next (doneScalar (addCopy u c sl
         { id := 0, eng := e.toNat, slot := sl, batch := 0, kind := 1,
           src := wordAt bs 0, dst := wordAt bs 8, sst1 := wordAt bs 16, dst1 := wordAt bs 24, sst2 := wordAt bs 32, dst2 := wordAt bs 40,
           rowb := n, pc := g.spc }) c sl 4)) ∧
     (readRecord i (g.reg a).toNat 32 16 s = .ok u bs → n < 2 ^ 44 → box (n / 2 ^ 24 % 2 ^ 20) 1 →
       exec (.cpy a b e 1) s = .next (doneScalar (addCopy u c sl (boxed (n / 2 ^ 24 % 2 ^ 20) 1)) c sl 4)) ∧
     (readRecord i (g.reg a).toNat 48 16 s = .ok u bs → box (n / 2 ^ 24 % 2 ^ 20) (n / 2 ^ 44) →
       exec (.cpy a b e 2) s = .next (doneScalar (addCopy u c sl (boxed (n / 2 ^ 24 % 2 ^ 20) (n / 2 ^ 44))) c sl 4))) ∧
  (∀ (s u : State) (c sl : Nat) (g : Group) (a b : BitVec 6) (e x : BitVec 1) (bs : List Byte),
     ScalarTurn s c sl g false 4 [a.toNat, b.toNat] →
     let i := scalarIssuer s c sl g
     let iwid := if x = 1 then 8 else 4
     let elemb := leAt bs 16 4
     let count := leAt bs 20 4
     readRecord i (g.reg a).toNat 32 16 s = .ok u bs → engineUsed u c e.toNat < 32 →
     1 ≤ elemb → elemb ≤ 4096 → 1 ≤ count → count ≤ 2 ^ 20 → leAt bs 28 4 = 0 → (g.reg b).toNat % iwid = 0 →
     i.p.outside apScalar (g.reg b).toNat (iwid * count) = none → i.p.outside apScalar (wordAt bs 8).toNat (elemb * count) = none →
     exec (.cpyg a b e x) s = .next (doneScalar (addCopy u c sl
       { id := 0, eng := e.toNat, slot := sl, batch := 0, kind := 2,
         src := wordAt bs 0, dst := wordAt bs 8, dst1 := BitVec.ofNat 64 elemb, rowb := elemb, n1 := count, index := g.reg b, iwid,
         iscale := leAt bs 24 4, pc := g.spc }) c sl 4))

/-- CSEAL seals the open batch and writes its number once the lane stream has drained and the batch of 64 seals before is complete (R173);
CWAIT goes on once the batches it covers are complete and none of them has a failure to report (R175); CPOLL and OSTAT write a status and
wait for nothing (R176, R186). OMAP in a block with a sequencer, whose record reads as bs and is within Tables 8-5 and 8-6, and whose slot
is in no feed queue, takes the map (R180, R182). How a record is read is log 27. -/
def Obligations.BatchAndMapWords : Prop :=
  (∀ (s : State) (c sl : Nat) (g : Group) (d a : BitVec 6) (k : BitVec 3),
     ScalarTurn s c sl g false 0 [d.toNat, a.toNat] →
     let n := nextBatch g.bn
     (g.drained = true → (∀ x ∈ g.batches, x.num = sealedLong n → x.sealed = true → x.left = 0) →
       exec (.cseal d) s = .next (doneScalar (putS (s.updGroup c sl (fun h =>
         { h with bn := n, batches := tidy (h.batches.map (fun x => if x.num = n then { x with sealed := true } else x)) })) c sl d n) c sl 4)) ∧
     ((∀ x ∈ g.batches, covers g ((g.reg a).toNat % 2 ^ 32) x = true → x.left = 0 ∧ x.fail = none) →
       exec (.cwait a) s = .next (doneScalar s c sl 4)) ∧
     exec (.cpoll d a) s = .next (wroteScalar s c sl 4 d (BitVec.ofNat 64 (batchStatus g ((g.reg a).toNat % 2 ^ 32)))) ∧
     exec (.ostat d k) s = .next (wroteScalar s c sl 4 d (BitVec.ofNat 64 (((s.blockOf g).streams.getD k.toNat {}).status (tileParked s g.block k.toNat))))) ∧
  (∀ (s u : State) (c sl : Nat) (g : Group) (a : BitVec 6) (k : BitVec 4) (bs : List Byte),
     ScalarTurn s c sl g false 4 [a.toNat] → (s.blockOf g).seq.isSome →
     readRecord (scalarIssuer s c sl g) (g.reg a).toNat 32 32 s = .ok u bs →
     (omapOf (pack 256 bs)).bad (scalarIssuer s c sl g).p = false → feeding (u.blockOf g) k.toNat = false →
     exec (.omap a k) s = .next (doneScalar (u.updBlock g.block (fun b => b.takeMap k.toNat (pack 256 bs))) c sl 4))

/-! ## The tile file: scalar words (R204 to R207) -/

/-- TDEF and TRDS whose operation the home has accepted, with room in the engines, add their copy; TKILL that is accepted goes on; TQRY
writes the directory entry (R204 to R207). A TDEF of a legal shape whose rows lie in one accepted aperture, a TRDS whose target does, and a
TKILL that find their operation not yet sent send it and park with reason 5; a refused operation is the word's trap (R191, R192). That a wait
is held as a park with its code and condition is the model's form (log 9). The engine of TDEF and TRDS is log 26. -/
def Obligations.TileScalarWords : Prop :=
  (∀ (s : State) (c sl : Nat) (g : Group) (d a b : BitVec 6) (x : TileOp),
     ScalarTurn s c sl g false 0 [d.toNat, a.toNat, b.toNat] →
     let nb := (s.blockOf g).nb
     let tag := if g.trapMode then 1 else 0
     let w := (g.reg a).toNat % 2 ^ 32
     let pitch := (g.reg a).toNat / 2 ^ 32
     ((s.core c).copies.length < 64 → tileOf s nb (.scalar c sl) tag = some x → x.st = 2 →
       exec (.tdef a b) s = .next (doneScalar (addCopy (dropTileOp s nb x.id) c sl
         { id := 0, eng := freeEngine s c, slot := sl, batch := 0,
           kind := 3, src := g.reg b, dst := 0, sst1 := BitVec.ofNat 64 (if pitch = 0 then rowBytes w else pitch), rowb := rowBytes w,
           n1 := tileRows w, tile := w, waiting := 1, pc := g.spc }) c sl 4)) ∧
     ((s.core c).copies.length < 64 → tileOf s nb (.scalar c sl) (tag + 2) = some x → x.st = 1 ∨ x.st = 2 →
       exec (.trds a b) s = .next (doneScalar (setTileOp (addCopy s c sl
         { id := 0, eng := freeEngine s c, slot := sl, batch := 0,
           kind := 4, src := 0, dst := g.reg b, dst1 := BitVec.ofNat 64 pitch, rowb := 1, tile := w, pc := g.spc }) nb
         { x with copy := some s.nextId }) c sl 4)) ∧
     (tileOf s nb (.scalar c sl) tag = some x → x.st = 2 → exec (.tkill a) s = .next (doneScalar (dropTileOp s nb x.id) c sl 4)) ∧
     exec (.tqry d a) s = .next (wroteScalar s c sl 4 d (BitVec.ofNat 64 (tileQuery (s.nbhdOf g) ((g.reg a).toNat % 4096))))) ∧
  (∀ (s : State) (c sl : Nat) (g : Group) (a : BitVec 6) (x : TileOp),
     ScalarTurn s c sl g false 0 [a.toNat] →
     let nb := (s.blockOf g).nb
     let w := (g.reg a).toNat % 2 ^ 32
     let tag := if g.trapMode then 1 else 0
     (tileOf s nb (.scalar c sl) tag = none →
       exec (.tkill a) s = .next ((sendTileOp s nb { id := 0, strm := .scalar c sl, tag, kind := 2, word := w }).updGroup c sl
         (fun h => { h with park := some ⟨5, .tile nb (w % 4096)⟩ }))) ∧
     (tileOf s nb (.scalar c sl) tag = some x → x.st = 3 → exec (.tkill a) s = .next (raise (dropTileOp s nb x.id) c sl 0 0 true x.trap))) ∧
  (∀ (s : State) (c sl : Nat) (g : Group) (a b : BitVec 6) (x : TileOp),
     ScalarTurn s c sl g false 0 [a.toNat, b.toNat] →
     let nb := (s.blockOf g).nb
     let w := (g.reg a).toNat % 2 ^ 32
     let pitch := (g.reg a).toNat / 2 ^ 32
     let tag := if g.trapMode then 1 else 0
     let i := scalarIssuer s c sl g
     let parks (o : TileOp) : Host.Outcome State Fault Refusal :=
       .next ((sendTileOp s nb o).updGroup c sl (fun h => { h with park := some ⟨5, .tile nb (w % 4096)⟩ }))
     let refused : Host.Outcome State Fault Refusal := .next (raise (dropTileOp s nb x.id) c sl 0 0 true x.trap)
     ((s.core c).copies.length < 64 → tileOf s nb (.scalar c sl) tag = none → shapeBad w = false →
       rowsOutside i.p apScalar w (g.reg b).toNat pitch = none →
       exec (.tdef a b) s = parks { id := 0, strm := .scalar c sl, tag, kind := 1, word := w }) ∧
     (tileOf s nb (.scalar c sl) tag = some x → x.st = 3 → exec (.tdef a b) s = refused) ∧
     ((s.core c).copies.length < 64 → tileOf s nb (.scalar c sl) (tag + 2) = none → i.p.outside apGranule (g.reg b).toNat 1 = none →
       exec (.trds a b) s = parks { id := 0, strm := .scalar c sl, tag := tag + 2, kind := 0, word := w, dst := (g.reg b).toNat, pitch }) ∧
     (tileOf s nb (.scalar c sl) (tag + 2) = some x → x.st = 3 → exec (.trds a b) s = refused))

/-! ## Snapshot regions (R301 to R316) -/

/-- SNAP of an idle region below depth 7 opens a level with the next epoch; SACC at depth 1 empties the pool; SQRY writes the region's
record; a SNAPDEF of no lines removes an idle region of depth 0 (R302, R307, R311, R315). SACC of a nested level, SREJ and SSWEEP put the
region in the state of their operation and park until the engine has ended it; the word that runs again after that end is complete (R307,
R308, R311, R313). All but SQRY do so when they are the first that have reached the region's record, and leave its line (R312). That a wait is
held as a park with its code and condition is the model's form (log 9). -/
def Obligations.SnapshotWords : Prop :=
  (∀ (s u : State) (c sl : Nat) (g : Group) (d a b : BitVec 6) (slot : Nat) (r : Region) (bs : List Byte),
     ScalarTurn s c sl g false 0 [d.toNat, a.toNat, b.toNat] →
     exec (.sqry d a) s = .next (wroteScalar s c sl 4 d
       (BitVec.ofNat 64 (((findRegion s (s.nbhdOf g).ctx ((g.reg a).toNat % 64)).map (fun x => x.2.query)).getD 0))) ∧
     (findRegion s (s.nbhdOf g).ctx ((g.reg a).toNat % 64) = some (slot, r) → g.arrived = none → r.st = 0 →
       let me := recordPlace c sl g
       let v := leaveRegion s slot me
       (firstAtRecord s r me = true → g.drained = true → (flushL1 c v).1 = true → r.depth < 7 → r.e ≠ 0xFFFF →
         exec (.snap a) s = .next (doneScalar ((flushL1 c v).2.updRegion slot
           (fun r => { r with e := r.e + 1, depth := r.depth + 1, levels := r.levels ++ [(r.e + 1, r.n)] })) c sl 4)) ∧
       (firstAtRecord s r me = true → r.depth = 1 →
         exec (.sacc a) s = .next (doneScalar (v.updRegion slot (fun r => { r with n := 0, depth := 0, levels := [], exhausted := false })) c sl 4)) ∧
       (readRecord (scalarIssuer s c sl g) (g.reg b).toNat 32 32 s = .ok u bs → firstAtRecord (keepRec bs c sl u) r me = true →
         leAt bs 8 4 = 0 → leAt bs 24 8 = 0 → r.depth = 0 →
         exec (.snapdef a b) s = .next (doneScalar (removeRegion (leaveRegion (keepRec bs c sl u) slot me) slot) c sl 4)))) ∧
  (∀ (s u : State) (c sl : Nat) (g : Group) (a : BitVec 6) (o : BitVec 5) (slot : Nat) (r : Region),
     ScalarTurn s c sl g false 0 [a.toNat] →
     findRegion s (s.nbhdOf g).ctx ((g.reg a).toNat % 64) = some (slot, r) →
     let me := (c * 48 + sl, if g.trapMode then 1 else 0)
     let started (s : State) (st : Nat) : State :=
       ((s.updRegion slot (fun r => { r with st, issuer := some me })).updGroup c sl (fun h => { h with arrived := some 2 })).updGroup
         c sl (fun h => { h with park := some ⟨11, ownRegion slot⟩ })
     let v := leaveRegion s slot (recordPlace c sl g)
     let inside (line : Nat) : Bool := match regionAt u (line * 64) with
       | some (k, false, _) => k == slot
       | _ => false
     (g.arrived = some 2 → r.issuer ≠ some me →
       exec (.sacc a) s = .next (doneScalar s c sl 4) ∧ exec (.srej a o) s = .next (doneScalar s c sl 4) ∧
       exec (.ssweep a) s = .next (doneScalar s c sl 4)) ∧
     (g.arrived = none → r.st = 0 → firstAtRecord s r (recordPlace c sl g) = true →
       (2 ≤ r.depth → exec (.sacc a) s = .next (started v 2)) ∧
       (r.depth = 0 → exec (.ssweep a) s = .next (started v 3)) ∧
       (1 ≤ r.depth → g.drained = true → releaseSteps v c sl (if o = 0 then 0b11110 else o.toNat) = .ok u →
         exec (.srej a o) s = .next (started (u.updCore c (fun k => { k with l1 := k.l1.keep (fun l _ => !inside l) })) 1))))

/-! ## Traps and system words (R366, R371 to R379) -/

/-- Entry into trap mode by a word of the scalar stream of a group that is no firmware agent, with TVEC set and no load or tile read on its
way: the trap registers, the producers that land, the PC at TVEC, and everything else of the group as it was (R366). TRAP takes SOFTWARE
with its code in TINFO and S[a] in TADDR (R376). The wait for loads and the spill area are logs 10 and 25. -/
def Obligations.TrapEntry : Prop :=
  (∀ (s : State) (c sl : Nat) (g : Group) (t : TrapInfo),
     s.group? c sl = some g → sl ≠ Config.agentSlot → g.trapMode = false → NothingOnWay s c sl g →
     (s.ctx (s.nbhdOf g).ctx).tvec ≠ 0 →
     let u := raise s c sl 0 0 true t
     let p := g.prod.foldl Group.produce { g with prod := [] }
     u = s.setGroup c sl
       { p with
         trapMode := true, tcause := BitVec.ofNat 64 t.cause, tpc := g.spc, tinfo := t.info, taddr := t.addr, tmask := t.mask.setWidth 64,
         tstat := BitVec.ofNat 64 (16 + (if replayable t.cause then 32 else 0)), tssp := (s.nbhdOf g).stage.trapspill / 32,
         latchA := none, latchB := none, latchC := none, ispc := g.spc, ipark := none, iarrived := none, arrived := none,
         spc := (s.ctx (s.nbhdOf g).ctx).tvec, park := none, tlb := none, ts := [] } ∧
     p.sregs = g.sregs ∧ p.preds = g.preds ∧ p.lb = g.lb ∧ p.dq = g.dq ∧ u.mem = s.mem ∧ u.chip = s.chip ∧ u.spad = s.spad) ∧
  (∀ (s : State) (c sl : Nat) (g : Group) (a : BitVec 6) (k : BitVec 5),
     ScalarTurn s c sl g false 0 [a.toNat] → sl ≠ Config.agentSlot → g.trapMode = false → NothingOnWay s c sl g →
     (s.ctx (s.nbhdOf g).ctx).tvec ≠ 0 →
     ∃ t h, exec (.trap a k) s = .next t ∧ t.group? c sl = some h ∧ h.trapMode = true ∧ h.tcause = 0x7F ∧ h.tinfo = k.setWidth 64 ∧
       h.taddr = g.reg a ∧ h.tpc = g.spc ∧ h.spc = (s.ctx (s.nbhdOf g).ctx).tvec ∧ h.sregs = g.sregs)

/-- RFT and RFT.skip return a scalar trap: the PC becomes TPC, or TPC and the length of the word there, TS0 to TS7 are dropped, and every
other register is as it was; a lane trap that replays goes on with the lanes in TMASK (R371, Table 17-3). A split that stands at its join
after the return arrives, and splits that meet merge (R327, R328). RFT outside trap mode traps
ILLEGAL_ENCODING 0x04 (R377). The spill area is log 25. -/
def Obligations.ReturnFromTrap : Prop :=
  (∀ (s : State) (c sl : Nat) (g : Group),
     ScalarTurn s c sl g false 0 [] → g.trapMode = true → g.tlb = none →
     exec .rft s = .next (settleLanes (returnTrap s c sl false (scalarLength s c sl g g.tpc)) c sl) ∧
     exec .rftSkip s = .next (settleLanes (returnTrap s c sl true (scalarLength s c sl g g.tpc)) c sl) ∧
     (g.tstat.toNat % 4 = 0 → ∀ skip len, returnTrap s c sl skip len = s.setGroup c sl
       { g with
         trapMode := false, ts := [], tssp := 0, tspill := [], tlb := none, latchA := none, latchB := none, latchC := none,
         spc := if skip then g.tpc + BitVec.ofNat 64 len else g.tpc, park := none, ipark := none, arrived := g.iarrived, iarrived := none,
         tstat := g.tstat &&& ~~~0x10 }) ∧
     (g.tstat.toNat % 4 = 1 → g.tstat.getLsbD 5 = true → ∀ b len, g.lb = some b → ∃ h b', (returnTrap s c sl false len).group? c sl = some h ∧
       h.lb = some b' ∧ h.spc = g.ispc ∧ h.trapMode = false ∧ b' = b.set (g.tstat.toNat / 4 % 4)
         { b.at (g.tstat.toNat / 4 % 4) with
           pc := g.tpc.setWidth 32, unfinished := some (g.tmask.setWidth 32), park := none })) ∧
  (∀ (s : State) (c sl : Nat) (g : Group), ScalarTurn s c sl g false 0 [] → g.trapMode = false →
     exec .rft s = .next (raise s c sl 0 0 true { cause := 1, info := 4 }) ∧
     exec .rftSkip s = .next (raise s c sl 0 0 true { cause := 1, info := 4 }))

/-- SYSR writes the register of a number that its group may read, and SYSW a register it may write (R375, Table 17-8). A number that Table
17-8 does not list, a write to a read-only register, an access to a trap register outside trap mode, and a privileged access of another
group than the firmware agent: the first three trap ILLEGAL_ENCODING 0x04, the last PRIVILEGE (R375). A privileged word outside the firmware
agent's slot traps PRIVILEGE, whatever its operands (R33, R366, Table 17-2). A write of RLWAYS whose removed lines are placed, or sent and
then placed, is complete; until then it parks (R125), which the model holds as log 9 says. Values that the spec does not give at reset are
log 3, and none is claimed. -/
def Obligations.SystemRegisters : Prop :=
  (∀ (s : State) (c sl : Nat) (g : Group) (r : BitVec 6) (n : BitVec 11),
     ScalarTurn s c sl g false 0 [r.toNat] →
     (sysTrap n.toNat sl g.trapMode false = none →
       exec (.sysr r n) s = .next (wroteScalar s c sl 4 r (BitVec.ofNat 64 (sysValue s c g n.toNat)))) ∧
     (sysTrap n.toNat sl g.trapMode true = none → g.arrived = none → n ≠ 0x043 →
       exec (.sysw r n) s = .next (doneScalar (sysWrite s c sl g n.toNat (g.reg r)) c sl 4)) ∧
     (sl = Config.agentSlot →
       let t := sysWrite s c sl g 0x043 (g.reg r)
       let away := t.requests.any (fun q => q.kind == 2 && q.st == 0 && q.slot == 48 && dieOf q.core == dieOf c)
       (g.arrived ≠ some 1 → away = false → exec (.sysw r 0x043) s = .next (doneScalar t c sl 4)) ∧
       (g.arrived ≠ some 1 → away = true → exec (.sysw r 0x043) s = .next
         ((t.updGroup c sl (fun h => { h with arrived := some 1 })).updGroup c sl (fun h => { h with park := some ⟨11, .invalidation c true⟩ }))) ∧
       (g.arrived = some 1 → exec (.sysw r 0x043) s = .next (doneScalar s c sl 4)))) ∧
  (∀ (s : State) (c sl : Nat) (g : Group) (r : BitVec 6) (n : BitVec 11),
     ScalarTurn s c sl g false 0 [r.toNat] →
     let bad : Host.Outcome State Fault Refusal := .next (raise s c sl 0 0 true { cause := 1, info := 4 })
     let priv : Host.Outcome State Fault Refusal := .next (raise s c sl 0 0 true { cause := 3 })
     (sysKind n.toNat = none → exec (.sysr r n) s = bad ∧ exec (.sysw r n) s = bad) ∧
     (n = 0x021 → exec (.sysw r n) s = bad) ∧
     (n = 0x000 ∨ n = 0x005 → exec (.sysw r n) s = bad) ∧
     (n.toNat < 16 → g.trapMode = false → exec (.sysr r n) s = bad ∧ exec (.sysw r n) s = bad) ∧
     (n = 0x010 ∨ n = 0x030 ∨ n = 0x044 ∨ n = 0x045 → sl ≠ Config.agentSlot → exec (.sysw r n) s = priv) ∧
     (n = 0x040 ∨ n = 0x041 ∨ n = 0x042 ∨ n = 0x043 → sl ≠ Config.agentSlot → exec (.sysr r n) s = priv ∧ exec (.sysw r n) s = priv)) ∧
  (∀ (s : State) (c sl : Nat) (g : Group) (d a b : BitVec 6),
     s.turn = .scalar c sl → s.group? c sl = some g → sl ≠ Config.agentSlot →
     let priv : Host.Outcome State Fault Refusal := .next (raise s c sl 0 0 true { cause := 3 })
     exec (.diffmax d a b) s = priv ∧ exec (.launch d a b) s = priv ∧ exec (.launchDirect d a b) s = priv ∧
     exec (.tlbiRange a b) s = priv ∧ exec (.tlbiSset a) s = priv ∧ exec .tlbiCtx s = priv ∧
     exec (.halt d a) s = priv ∧ exec (.preq d a b) s = priv ∧ exec (.preqRst d a b) s = priv)

/-- PREQ whose save is done writes its bytes and status, and one that names an anchor it may save starts the save and parks; a status
refuses it otherwise. PREQ.rst of an aligned area that no loaded stage matches writes 4, and one that finds no room for the rectangle 1; with
room the area is restored, and the word writes 0 once the invalidation has ended. HALT ends the neighbourhood that its anchor word names and
writes 0 (R373, R378, R379). That a wait is held as a park with its code and condition is the model's form (log 9). The area and the anchor
word are logs 13, 21, 36 and 54. -/
def Obligations.PreemptionWords : Prop :=
  ∀ (s : State) (c sl : Nat) (g : Group) (d a b : BitVec 6) (o : SaveOp) (nb st : Nat),
    ScalarTurn s c sl g true 0 [d.toNat, a.toNat, b.toNat] →
    (ownSave s c sl = some o → o.done = true → exec (.preq d a b) s =
      .next (doneScalar (putS (dropSave s o.id) c sl d (2 ^ 32 * o.bytes + (if o.full then 256 else 0))) c sl 4)) ∧
    (ownSave s c sl = some o → restoring s o.nb = false → exec (.preqRst d a b) s =
      .next (doneScalar (putS ((dropSave s o.id).updNbhd o.nb (fun n => { n with saving := false })) c sl d 0) c sl 4)) ∧
    (ownSave s c sl = none → anchorBad (g.reg a).toNat = false → (g.reg b).toNat % 256 = 0 →
      (anchorNb s (g.reg a).toNat = .error st → exec (.preq d a b) s = .next (wroteScalar s c sl 4 d (BitVec.ofNat 64 st))) ∧
      (anchorNb s (g.reg a).toNat = .ok nb → nbStopped s nb = false → g.arrived = none →
        let o : SaveOp := { id := s.newId.1, core := c, slot := sl, nb, anchor := (g.reg a).toNat, area := (g.reg b).toNat, since := s.clock }
        let u := s.newId.2.updNbhd nb (fun n => { n with saving := true })
        exec (.preq d a b) s = .next ({ u with saveOps := s.saveOps ++ [o] }.updGroup c sl
          (fun h => { h with park := some ⟨11, .save o.id⟩ })))) ∧
    (ownSave s c sl = none → (g.reg b).toNat % 256 = 0 →
      let part := (s.nbhdOf g).part
      (areaStage s part (g.reg b).toNat = none → exec (.preqRst d a b) s = .next (wroteScalar s c sl 4 d 4)) ∧
      (∀ t, areaStage s part (g.reg b).toNat = some t →
        (rectRoom s part c ((g.reg a).toNat % 512) t = none → exec (.preqRst d a b) s = .next (wroteScalar s c sl 4 d 1)) ∧
        (∀ cores, rectRoom s part c ((g.reg a).toNat % 512) t = some cores →
          let r := restoreArea s part (g.reg b).toNat t ((g.reg a).toNat % 512) cores
          let o : SaveOp := { id := r.2.newId.1, core := c, slot := sl, nb := r.1, anchor := (g.reg a).toNat, area := (g.reg b).toNat,
                              since := s.clock, restore := true }
          let u := { r.2.newId.2 with saveOps := r.2.newId.2.saveOps ++ [o] }
          exec (.preqRst d a b) s = .next (u.updGroup c sl (fun h => { h with park := some ⟨11, .save o.id⟩ }))))) ∧
    (anchorBad (g.reg a).toNat = false →
      (anchorNb s (g.reg a).toNat = .ok nb → exec (.halt d a) s = .next (doneScalar (putS (removeNb s nb) c sl d 0) c sl 4)) ∧
      (anchorNb s (g.reg a).toNat = .error st → exec (.halt d a) s = .next (wroteScalar s c sl 4 d (BitVec.ofNat 64 st))))

/-! ## Probes and TLBI (R90 to R92) -/

/-- SAPER writes the aperture word; PPROBE writes its status and, for the firmware agent, the physical address, and 0 in both for an address
outside the apertures; neither touches memory or a cache (R90, R91). The three forms of TLBI drop the cached translations they name, and are
complete once no access of the contexts they concern is on its way; a range of no bytes drops none (R92). The choice of a cached translation
and the wait of TLBI are logs 12 and 34, and the order of the flags in the word log 58. -/
def Obligations.TranslationWords : Prop :=
  (∀ (s : State) (c sl : Nat) (g : Group) (d a : BitVec 6) (k : BitVec 2),
     ScalarTurn s c sl g false 0 [d.toNat, d.toNat + 1, a.toNat] →
     let va := (g.reg a).toNat
     let x := probe s (s.nbhdOf g).ctx (probeKind k.toNat) (sl == Config.agentSlot) va
     exec (.saper d a) s = .next (wroteScalar s c sl 4 d (BitVec.ofNat 64 (apertureWord (partyOf s c sl g) va))) ∧
     (va < 2 ^ 52 → exec (.pprobe d a k) s = .next (doneScalar (putS (putS s c sl d (probeWord va x)) c sl (d + 1)
       (match x with
         | (none, _, some p) => if sl = Config.agentSlot then p.pa else 0
         | _ => 0)) c sl 4)) ∧
     (2 ^ 52 ≤ va → exec (.pprobe d a k) s = .next (doneScalar (putS (putS s c sl d 0) c sl (d + 1) 0) c sl 4))) ∧
  (∀ (s : State) (c sl : Nat) (g : Group) (a b : BitVec 6),
     ScalarTurn s c sl g true 0 [a.toNat, b.toNat] →
     let ctx := (s.nbhdOf g).ctx
     let va := (g.reg a).toNat
     let n := (g.reg b).toNat
     let done (s : State) : Host.Outcome State Fault Refusal := .next (doneScalar (flushAll s).2 c sl 4)
     let ranged := dropLeaves s (fun l => l.ctx == ctx && l.meets va n) (stripedLine s ctx va n)
     let whole := dropLeaves s (fun l => l.ctx == ctx) (fun _ => false)
     let striped := dropLeaves s (fun l => (s.ctx l.ctx).sstbase == (s.ctx ctx).sstbase && l.entry.toNat % 8 == 4 &&
       field l.entry.toNat 12 12 == va % 4096) (fun _ => false)
     (g.arrived = none → n = 0 → exec (.tlbiRange a b) s = .next (doneScalar s c sl 4)) ∧
     (g.arrived = none → n ≠ 0 → accessing (flushAll ranged).2 ctx = false → exec (.tlbiRange a b) s = done ranged) ∧
     (g.arrived = none → accessing (flushAll whole).2 ctx = false → exec .tlbiCtx s = done whole) ∧
     (g.arrived = none → accessing (flushAll striped).2 (ctx + 2 ^ 32) = false → exec (.tlbiSset a) s = done striped) ∧
     (g.arrived = some 1 → accessing (flushAll s).2 ctx = false → exec .tlbiCtx s = done s))

/-! ## Counters, scheduling and launches (R353 to R361) -/

/-- CTRADD and TICKET add to a counter that exists, saturating, and TICKET writes what the counter held; of a counter in a shadow pool both
trap SNAP_REGION 0x08 and add nothing (R300); CTRWAIT goes on once the counter has reached its threshold, and else parks (R356, R359,
R360). That a wait is held as a park with its code and condition is the model's form (log 9). -/
def Obligations.CounterWords : Prop :=
  ∀ (s u : State) (c sl : Nat) (g : Group) (d a b : BitVec 6) (o : BitVec 5) (x : Nat),
    ScalarTurn s c sl g false 0 [d.toNat, a.toNat, b.toNat] → counterAt s (s.nbhdOf g).part ((g.reg a).toNat % 2 ^ 32) = some x →
    let who := (scalarIssuer s c sl g).who 255
    let n := (g.reg b).toNat
    (inPool s x = false → exec (.ctradd a b 0) s = .next (doneScalar (counterAdd s who x n) c sl 4)) ∧
    (inPool s x = true →
      exec (.ctradd a b o) s = .next (raise s c sl 0 0 true { cause := 0x3B, info := 8 }) ∧
      (1 ≤ n → n ≤ 65536 → exec (.ticket d a b) s = .next (raise s c sl 0 0 true { cause := 0x3B, info := 8 }))) ∧
    (inPool s x = false → o ≠ 0 → releaseSteps s c sl o.toNat = .ok u →
      exec (.ctradd a b o) s = .next (doneScalar (released (deposit (counterAdd u who x n) x (u.core c).sig) c sl) c sl 4)) ∧
    (inPool s x = false → 1 ≤ n → n ≤ 65536 →
      exec (.ticket d a b) s = .next (doneScalar (putS (counterAdd s who x n) c sl d (tableWord s x)) c sl 4)) ∧
    (g.arrived = none → n ≤ tableWord s x → exec (.ctrwait a b 0) s = .next (doneScalar s c sl 4)) ∧
    (g.arrived = none → tableWord s x < n → exec (.ctrwait a b o) s = .next (s.updGroup c sl (fun h =>
      { h with park := some ⟨11, .counter (s.nbhdOf g).part ((g.reg a).toNat % 2 ^ 32) n⟩ })))

/-- DIFFMAX writes bit 63, the differential and the index of the eligible stage with the largest positive differential, or 0 (R354, R360).
LAUNCH of a loaded stage whose rectangle is free, at the home of a queue whose ring holds the records it wants, takes them, places the
blocks and writes their number in bits 63:8 with status 0; with no record it writes status 2; an unknown stage writes 3 and a rectangle that
is not free 1. LAUNCH.direct places the blocks of its launch record and writes 0 (R352, R355, R361). The choice of free slots is log 29, a
missing summary log 30, the ticket log 19. -/
def Obligations.LaunchWords : Prop :=
  (∀ (s : State) (c sl : Nat) (g : Group) (d a b : BitVec 6),
     ScalarTurn s c sl g true 0 [d.toNat, a.toNat, b.toNat] →
     exec (.diffmax d a b) s = .next (wroteScalar s c sl 4 d (BitVec.ofNat 64
       (match bestStage s (s.nbhdOf g).part c ((g.reg a).toNat % 65536) ((g.reg b).toNat % 65536) with
         | none => 0
         | some (x, i) => 2 ^ 63 + x.toNat % 2 ^ 40 * 65536 + i)))) ∧
  (∀ (s u : State) (c sl : Nat) (g : Group) (d a b : BitVec 6) (t : Stage) (q : Queue) (qid : Nat) (cores : List (Nat × List Nat)) (bs : List Byte),
     ScalarTurn s c sl g true 0 [d.toNat, a.toNat, b.toNat] →
     let part := (s.nbhdOf g).part
     let sid := (g.reg a).toNat % 65536
     let stage := (s.part? part).bind (fun p => p.stages.get? sid)
     let answers (s : State) (v : Nat) : Host.Outcome State Fault Refusal := .next (doneScalar (putS s c sl d v) c sl 4)
     (stage = none → exec (.launch d a b) s = answers s 3 ∧ exec (.launchDirect d a b) s = answers s 3) ∧
     (stage = some t →
       (rectRoom s part c c t = none → exec (.launch d a b) s = answers (freePlace s part c) 1) ∧
       (rectRoom s part c c t = some cores → (waitsAt s part c).or (pickQueue s (dieOf c) part t) = some qid → queueOf s part qid = some q →
         dequeueReady s q c t = true →
         let n := wanted s q.hdr t
         let v := freePlace s part c
         let r := dequeue ((scalarIssuer s c sl g).who 255) v q.hdr n
         (n = 0 → exec (.launch d a b) s = answers v 2) ∧
         (n ≠ 0 → exec (.launch d a b) s = answers (place r.2 part c t
           { direct := false, ticket := (g.reg b).toNat, recs := r.1.map (·.1), qid,
             head := (qhdr v q.hdr).head, acq := some (q.hdr / 64, if r.1.any (fun x => Nat.testBit x.2 63) then 0b11110 else 0b11100) } cores none)
           (256 * n))) ∧
       (readRecord (scalarIssuer s c sl g) (g.reg b).toNat 72 1 s = .ok u bs →
         (rectRoom u part c c t = none → exec (.launchDirect d a b) s = answers u 1) ∧
         (rectRoom u part c c t = some cores → servedRequest u (dieOf c) part sid (pack 512 (bs.drop 8)) = none →
           exec (.launchDirect d a b) s = answers (place (u.updDie (dieOf c) (fun x => x)) part c t
             { direct := true, ticket := leAt bs 0 8, arg := pack 512 (bs.drop 8) } cores none) 0))))

/-! ## Keyed remote access (R105 to R119) -/

/-- RMPUT and RMGET whose descriptor reads as bs with its reserved fields zero, with 1 to 2^24 bytes, a near side in one accepted aperture
and room in the engine, join the open batch; RMPUT holds its channel (R107, R114). An RMATOM that has been answered writes the old word, and
one that has failed traps with its failure (R115). RMFLUSH of another module goes on once the group's puts to it are placed or failed, with
its channels given up, where no failure waits; of a module that is not present it traps REMOTE_NACK with subcode 2; FLUSHP goes on once its
posted stores are placed (R116, R119). KEYSET of an aligned range whose pages are page leaves of local HBM with the rights it asks for
allocates the lowest free entry of the partition's key table and writes the key, or 0 where none is free; KEYREV of the context's own key
revokes it and closes its channels (R105, R109, R117, R118). The tag counter and what is sequenced are log 32. -/
def Obligations.RemoteWords : Prop :=
  (∀ (s u : State) (c sl : Nat) (g : Group) (a b : BitVec 6) (e : BitVec 1) (bs : List Byte),
     ScalarTurn s c sl g false 4 [a.toNat, b.toNat] →
     let i := scalarIssuer s c sl g
     let n := (g.reg b).toNat
     let x := rmaOf bs
     1 ≤ n → n ≤ 2 ^ 24 → readRecord i (g.reg a).toNat 32 32 s = .ok u bs → x.bad = false →
     i.p.outside apScalar x.laddr n = none → engineUsed u c e.toNat < 32 →
     exec (.rmput a b e) s = .next (doneScalar (addCopy (holdChan u (chanKey x.dev x.key) (c * 48 + sl)) c sl
       (rmaCopy 6 sl e.toNat n g.spc x)) c sl 4) ∧
     exec (.rmget a b e) s = .next (doneScalar (addCopy u c sl (rmaCopy 7 sl e.toNat n g.spc x)) c sl 4)) ∧
  (∀ (s : State) (c sl : Nat) (g : Group) (d a b : BitVec 6) (w : BitVec 1) (op : BitVec 3) (r : Request),
     ScalarTurn s c sl g false 0 [d.toNat, a.toNat, b.toNat] → rmatomOf s (scalarIssuer s c sl g) = some r →
     let u : State := { s with requests := s.requests.filter (fun q => q.id != r.id) }
     (r.st = 1 → ∀ i ∈ [Instr.rmatom d a b w op, Instr.rmatomCas d a b w],
       exec i s = .next (doneScalar (putS u c sl d (ofBytes (r.data.take (if w = 1 then 8 else 4)))) c sl 4)) ∧
     (r.st = 2 → ∀ i ∈ [Instr.rmatom d a b w op, Instr.rmatomCas d a b w], exec i s = .next (raise u c sl 0 0 true r.fail))) ∧
  (∀ (s : State) (c sl : Nat) (g : Group) (a : BitVec 6),
     ScalarTurn s c sl g false 0 [a.toNat] →
     let dev := (g.reg a).toNat % 16384
     let sent := sendContrib s c (some dev)
     (dev ≠ s.devnum.toNat → rmaPending s c sl dev = false → (∀ f ∈ g.rmaFail, f.1 ≠ dev) →
       exec (.rmflush a) s = .next (if absent dev then raise s c sl 0 0 true { cause := 0x20, info := 2 } else doneScalar (endHolds s dev (c * 48 + sl)) c sl 4)) ∧
     (g.drained = true → postedPending sent c sl (some dev) = false → takePosted sent c sl (some dev) = none →
       exec (.flushp a) s = .next (doneScalar sent c sl 4))) ∧
  (∀ (s : State) (c sl : Nat) (g : Group) (d a b : BitVec 6) (r : BitVec 3) (p : Part) (e : Nat) (k : Key),
     ScalarTurn s c sl g false 0 [d.toNat, a.toNat, b.toNat] → s.part? (s.nbhdOf g).part = some p →
     let nb := s.nbhdOf g
     let va := (g.reg a).toNat
     let n := (g.reg b).toNat
     let tag := (p.keyTag + 1) % 65536
     (va % 64 = 0 → n % 64 = 0 → 1 ≤ n → n ≤ 2 ^ 40 → va + n ≤ 2 ^ 52 →
       (∀ j < (va + n + 4095) / 4096 - va / 4096, keyFault s nb.ctx r.toNat (sl == Config.agentSlot) (max va ((va / 4096 + j) * 4096)) = none) →
       (freeKey p = some e → exec (.keyset d a b r) s = .next (doneScalar (putS (s.updPart nb.part (fun p =>
         { p with keyTag := tag, keys := p.keys.set e { tag, ctx := nb.ctx, vbase := va, len := n, rights := r.toNat } })) c sl d
         (tag * 65536 + nb.part * 4096 + e)) c sl 4)) ∧
       (freeKey p = none → exec (.keyset d a b r) s = .next (wroteScalar s c sl 4 d 0))) ∧
     (va < 2 ^ 32 → p.keys.get? (va % 4096) = some k → k.tag = va / 65536 → va / 4096 % 16 = nb.part → k.ctx = nb.ctx → k.revoked = false →
       exec (.keyrev a) s = .next (doneScalar
         { s.updPart nb.part (fun p => { p with keys := p.keys.set (va % 4096) { k with revoked := true } }) with
           tchans := s.tchans.keep (fun t _ => t % 2 ^ 32 != va) } c sl 4)))

/-! ## Fences, breakpoints, progress and trials (R297, R393, R396, R397) -/

/-- FENCE goes on once the steps of a release are done, no load of its group is in flight and the invalidation is complete: the L1 is
purged, every bit of SIG is set, and with P or H the remote-line partition too (R135, R297). FENCE of a split with an executing keeper, once
its release steps are done, no load of its group is in flight and the invalidation is complete (R135, R297). LINV and LWB of no bytes are
complete at once, and of a range of the address space once every line is written back (R145). That a wait is held as a park with its code
and condition is the model's form (log 9). -/
def Obligations.FenceWords : Prop :=
  (∀ (s u : State) (c sl : Nat) (g : Group) (o : BitVec 5),
     ScalarTurn s c sl g false 0 [] → g.arrived = none → releaseSteps s c sl o.toNat = .ok u → (∀ l ∈ (u.core c).loads, l.slot ≠ sl) →
     let v := fullSig (purgeL1 c u) c sl
     let w := if hasPH o.toNat then purgePartition (dieOf c) v else v
     (invalidating w c (hasPH o.toNat) = false → exec (.fence o) s = .next (doneScalar w c sl 4)) ∧
     (invalidating w c (hasPH o.toNat) = true → exec (.fence o) s = .next ((w.updGroup c sl (fun h => { h with arrived := some 1 })).updGroup c sl
       (fun h => { h with park := some ⟨11, .invalidation c (hasPH o.toNat)⟩ })))) ∧
  (∀ (s u : State) (c sl k : Nat) (g : Group) (b : LaneBlock) (w : L3),
     LaneTurn s c sl k g b 0 w.prd [] [] →
     let e := laneEnv s c sl k g b w.prd []
     (e.acting = [] → exec (.laneFence w) s = .next (doneLane (laneStart s e) c sl k)) ∧
     (e.acting ≠ [] → releaseSteps (laneStart s e) c sl w.obs.toNat = .ok u → (∀ l ∈ (u.core c).loads, l.slot ≠ sl) →
       let v := fullSig (purgeL1 c u) c sl
       let x := if hasPH w.obs.toNat then purgePartition (dieOf c) v else v
       invalidating x c (hasPH w.obs.toNat) = false → exec (.laneFence w) s = .next (doneLane x c sl k))) ∧
  (∀ (s : State) (c sl : Nat) (g : Group) (a b : BitVec 6),
     ScalarTurn s c sl g false 0 [a.toNat, b.toNat] → g.arrived = none →
     let va := (g.reg a).toNat
     let n := (g.reg b).toNat
     let lines := linesOver s (partyOf s c sl g) va n
     let swept (drop : Bool) : Bool × State := lines.foldl (lineOp c drop) (true, s)
     (n = 0 → exec (.linv a b) s = .next (doneScalar s c sl 4) ∧ exec (.lwb a b) s = .next (doneScalar s c sl 4)) ∧
     (1 ≤ n → n ≤ 2 ^ 32 → va + n ≤ 2 ^ 52 →
       ((swept true).1 = true → lines.findSome? (unplaced (swept true).2 c) = none → exec (.linv a b) s = .next (doneScalar (swept true).2 c sl 4)) ∧
       ((swept false).1 = true → lines.findSome? (unplaced (swept false).2 c) = none → exec (.lwb a b) s = .next (doneScalar (swept false).2 c sl 4))))

/-- PROG adds 1 to a progress counter of its partition; TRIALON with its bounds in order starts a trial and TRIALOFF ends it, writing the
clocks since it began; BKPT acts as a breakpoint with its code (R393, R396, R397). A lane PROG adds the number of its executing lanes, and
with none a lane BKPT or TRAP does nothing (R376, R393, R397). -/
def Obligations.ObservationWords : Prop :=
  (∀ (s : State) (c sl : Nat) (g : Group) (d a b : BitVec 6) (n : BitVec 3) (code : BitVec 5),
     ScalarTurn s c sl g false 0 [d.toNat, a.toNat, b.toNat] →
     let nb := s.nbhdOf g
     let x := (g.reg a).toNat
     let y := (g.reg b).toNat
     exec (.prog n) s = .next (doneScalar (addProgress s nb.part n.toNat 1) c sl 4) ∧
     (x % 2 ^ 32 ≤ x / 2 ^ 32 → y < 2 ^ 17 → exec (.trialon a b) s = .next (doneScalar ((trialMark s nb.part).updNbhd (s.blockOf g).nb
       (fun m =>
         { m with trial := some ⟨x % 2 ^ 32, x / 2 ^ 32, y % 65536, Nat.testBit y 16, (nb.trial.map (·.start)).getD s.clock⟩ })) c sl 4)) ∧
     exec (.trialoff d) s = .next (doneScalar (putS ((trialMark s nb.part).updNbhd (s.blockOf g).nb (fun m => { m with trial := none })) c sl d
       ((nb.trial.map (fun t => s.clock - t.start)).getD 0)) c sl 4) ∧
     exec (.bkpt code) s = .next (endS c sl 4 (breakpoint g code.toNat 0 s))) ∧
  (∀ (s : State) (c sl k : Nat) (g : Group) (b : LaneBlock) (w : L3),
     LaneTurn s c sl k g b 0 w.prd [] [] →
     let e := laneEnv s c sl k g b w.prd []
     let part := ((laneStart s e).nbhdOf e.g).part
     exec (.laneProg w) s = .next (doneLane (addProgress (laneStart s e) part (w.aux.toNat % 8) (lanesOf (e.exec &&& e.keep)).length) c sl k) ∧
     (e.exec &&& e.keep = 0 → exec (.laneBkpt w) s = .next (doneLane (laneStart s e) c sl k) ∧
       exec (.laneTrap w) s = .next (doneLane (laneStart s e) c sl k)) ∧
     (e.exec &&& e.keep ≠ 0 → exec (.laneTrap w) s = .next (raise (laneStart s e) c sl 1 k g.trapMode
       { cause := 0x7F, info := BitVec.ofNat 64 w.aux.toNat, mask := e.exec })) ∧
     (e.exec &&& e.keep ≠ 0 → debugging (laneStart s e) part = true → exec (.laneBkpt w) s =
       .next (doneLane ((laneStart s e).updBlock e.g.block (fun x => { x with stopped := true, cause := 0x50 })) c sl k)))

/-! ## Lane integer words (R240 to R243) -/

/-- The two-source integer words at the width of their type, in the executing lanes: sums, differences, products and their high halves,
minima, maxima and bitwise operators, of two registers or of a register and the immediate (R228, R240, R242). The one-source integer words
and the moves, in the executing lanes: |A|, −A, NOT A, set bits, leading zeros, bits reversed, A, an immediate, a uniform word and the lane
number; SEL chooses by a predicate (R240, R245). -/
def Obligations.LaneIntegerWords : Prop :=
  (∀ (s : State) (c sl k : Nat) (g : Group) (b : LaneBlock) (w : L3) (v : LI),
     let a2 := [srcA w.toLaneHead (regsOf w.fmt), srcB w.toLaneHead (regsOf w.fmt)]
     let a1 := [srcA v.toLaneHead (regsOf v.fmt)]
     let e := laneEnv s c sl k g b w.prd a2
     let j := laneEnv s c sl k g b v.prd a1
     let put (wide : W64 → W64 → W64) (narrow : W32 → W32 → W32) : Host.Outcome State Fault Refusal :=
       .next (wroteLanes s e (isPair w.fmt) w.dst (fun i => laneOp2 w.fmt wide narrow (e.g.vn (isPair w.fmt) w.sa.toNat i) (e.g.vn (isPair w.fmt) w.sb.toNat i)))
     let puti (wide : W64 → W64 → W64) (narrow : W32 → W32 → W32) : Host.Outcome State Fault Refusal :=
       .next (wroteLanes s j (isPair v.fmt) v.dst (fun i => laneOp2 v.fmt wide narrow (j.g.vn (isPair v.fmt) v.sa.toNat i) (immI v)))
     (LaneTurn s c sl k g b 0 w.prd a2 [(w.dst.toNat, regsOf w.fmt)] → w.fmt.toNat ≤ 4 →
       exec (.iadd w) s = put (· + ·) (· + ·) ∧ exec (.isub w) s = put (· - ·) (· - ·) ∧ exec (.imul w) s = put (· * ·) (· * ·) ∧
       exec (.imulh w) s = put (highHalf (signedLane w.fmt)) (highHalf (signedLane w.fmt)) ∧
       exec (.imin w) s = put (lesser (signedLane w.fmt)) (lesser (signedLane w.fmt)) ∧
       exec (.imax w) s = put (greater (signedLane w.fmt)) (greater (signedLane w.fmt)) ∧
       exec (.land w) s = put (· &&& ·) (· &&& ·) ∧ exec (.lor w) s = put (· ||| ·) (· ||| ·) ∧ exec (.lxor w) s = put (· ^^^ ·) (· ^^^ ·)) ∧
     (LaneTurn s c sl k g b 0 v.prd a1 [(v.dst.toNat, regsOf v.fmt)] → v.fmt.toNat ≤ 4 →
       exec (.iaddImm v) s = puti (· + ·) (· + ·) ∧ exec (.isubImm v) s = puti (· - ·) (· - ·) ∧ exec (.imulImm v) s = puti (· * ·) (· * ·) ∧
       exec (.imulhImm v) s = puti (highHalf (signedLane v.fmt)) (highHalf (signedLane v.fmt)) ∧
       exec (.iminImm v) s = puti (lesser (signedLane v.fmt)) (lesser (signedLane v.fmt)) ∧
       exec (.imaxImm v) s = puti (greater (signedLane v.fmt)) (greater (signedLane v.fmt)) ∧
       exec (.landImm v) s = puti (· &&& ·) (· &&& ·) ∧ exec (.lorImm v) s = puti (· ||| ·) (· ||| ·) ∧
       exec (.lxorImm v) s = puti (· ^^^ ·) (· ^^^ ·))) ∧
  (∀ (s : State) (c sl k : Nat) (g : Group) (b : LaneBlock) (w : L3) (v : LI),
     let a1 := [srcA w.toLaneHead (regsOf w.fmt)]
     let a2 := [srcA w.toLaneHead (regsOf w.fmt), srcB w.toLaneHead (regsOf w.fmt)]
     let e1 := laneEnv s c sl k g b w.prd a1
     let e2 := laneEnv s c sl k g b w.prd a2
     let e0 := laneEnv s c sl k g b w.prd []
     let j := laneEnv s c sl k g b v.prd []
     let put (wide : W64 → W64) (narrow : W32 → W32) : Host.Outcome State Fault Refusal :=
       .next (wroteLanes s e1 (isPair w.fmt) w.dst (fun i => laneOp1 w.fmt wide narrow (e1.g.vn (isPair w.fmt) w.sa.toNat i)))
     (LaneTurn s c sl k g b 0 w.prd a1 [(w.dst.toNat, regsOf w.fmt)] → w.fmt.toNat ≤ 4 →
       exec (.iabs w) s = put magnitude magnitude ∧ exec (.ineg w) s = put (fun x => -x) (fun x => -x) ∧
       exec (.lnot w) s = put (fun x => ~~~x) (fun x => ~~~x) ∧ exec (.popc w) s = put onesIn onesIn ∧
       exec (.clz w) s = put zerosAbove zerosAbove ∧ exec (.brev w) s = put (fun x => x.reverse) (fun x => x.reverse)) ∧
     (LaneTurn s c sl k g b 0 w.prd a1 [(w.dst.toNat, regsOf w.fmt)] →
       exec (.mov w) s = .next (wroteLanes s e1 (isPair w.fmt) w.dst (fun i => e1.g.vn (isPair w.fmt) w.sa.toNat i))) ∧
     (LaneTurn s c sl k g b 0 w.prd a2 [(w.dst.toNat, regsOf w.fmt)] →
       exec (.sel w) s = .next (wroteLanes s e2 (isPair w.fmt) w.dst (fun i =>
         if (e2.g.p (w.aux.toNat % 8)).getLsbD i != w.aux.getLsbD 3 then e2.g.vn (isPair w.fmt) w.sa.toNat i
         else e2.g.vn (isPair w.fmt) w.sb.toNat i))) ∧
     (LaneTurn s c sl k g b 0 w.prd [] [(w.dst.toNat, regsOf w.fmt)] →
       exec (.movW w) s = .next (wroteLanes s e0 (isPair w.fmt) w.dst (fun _ =>
         if isPair w.fmt then (b.ws.getD (w.aux.toNat % 4) 0).toNat else (b.ws.getD (w.aux.toNat % 4) 0).toNat % 2 ^ 32))) ∧
     (LaneTurn s c sl k g b 0 w.prd [] [(w.dst.toNat, 1)] → exec (.laneid w) s = .next (wroteLanes s e0 false w.dst (fun i => i))) ∧
     (LaneTurn s c sl k g b 0 v.prd [] [(v.dst.toNat, regsOf v.fmt)] →
       exec (.movi v) s = .next (wroteLanes s j (isPair v.fmt) v.dst (fun _ => if v.fmt = 3 then (v.imm.signExtend 64).toNat else v.imm.toNat))))

/-- The shifts by bits 7:0 of a register or of the immediate, at the width of their type; IMAD, BFE and BFI (R241 to R243). -/
def Obligations.LaneShiftsAndFields : Prop :=
  ∀ (s : State) (c sl k : Nat) (g : Group) (b : LaneBlock) (w : L3) (v : LI),
    let a2 := [srcA w.toLaneHead (regsOf w.fmt), srcB w.toLaneHead 1]
    let a3 := [srcA w.toLaneHead 1, srcB w.toLaneHead 1, srcC w 1]
    let v1 := [srcA v.toLaneHead (regsOf v.fmt)]
    let v2 := [srcA v.toLaneHead 1, srcB v.toLaneHead 1]
    let e2 := laneEnv s c sl k g b w.prd a2
    let e3 := laneEnv s c sl k g b w.prd a3
    let j1 := laneEnv s c sl k g b v.prd v1
    let j2 := laneEnv s c sl k g b v.prd v2
    let put (wide : Nat → W64 → W64) (narrow : Nat → W32 → W32) : Host.Outcome State Fault Refusal :=
      .next (wroteLanes s e2 (isPair w.fmt) w.dst (fun i => laneOp1 w.fmt (wide ((e2.g.v w.sb.toNat i).toNat % 256))
        (narrow ((e2.g.v w.sb.toNat i).toNat % 256)) (e2.g.vn (isPair w.fmt) w.sa.toNat i)))
    let puti (wide : Nat → W64 → W64) (narrow : Nat → W32 → W32) : Host.Outcome State Fault Refusal :=
      .next (wroteLanes s j1 (isPair v.fmt) v.dst (fun i => laneOp1 v.fmt (wide (v.imm.toNat % 256)) (narrow (v.imm.toNat % 256))
        (j1.g.vn (isPair v.fmt) v.sa.toNat i)))
    let put3 (f : W32 → W32 → W32 → Nat) : Host.Outcome State Fault Refusal :=
      .next (wroteLanes s e3 false w.dst (fun i => f (e3.g.v w.sa.toNat i) (e3.g.v w.sb.toNat i) (e3.g.v w.sc.toNat i)))
    let puti3 (f : W32 → W32 → W32 → Nat) : Host.Outcome State Fault Refusal :=
      .next (wroteLanes s j2 false v.dst (fun i => f (j2.g.v v.sa.toNat i) (j2.g.v v.sb.toNat i) v.imm))
    (LaneTurn s c sl k g b 0 w.prd a2 [(w.dst.toNat, regsOf w.fmt)] → w.fmt.toNat ≤ 4 →
      exec (.shl w) s = put (fun n x => x <<< n) (fun n x => x <<< n) ∧ exec (.shr w) s = put (fun n x => x >>> n) (fun n x => x >>> n) ∧
      exec (.sra w) s = put (fun n x => x.sshiftRight n) (fun n x => x.sshiftRight n)) ∧
    (LaneTurn s c sl k g b 0 v.prd v1 [(v.dst.toNat, regsOf v.fmt)] → v.fmt.toNat ≤ 4 →
      exec (.shlImm v) s = puti (fun n x => x <<< n) (fun n x => x <<< n) ∧ exec (.shrImm v) s = puti (fun n x => x >>> n) (fun n x => x >>> n) ∧
      exec (.sraImm v) s = puti (fun n x => x.sshiftRight n) (fun n x => x.sshiftRight n)) ∧
    (LaneTurn s c sl k g b 0 w.prd a3 [(w.dst.toNat, 1)] →
      exec (.imad w) s = put3 (fun x y z => (x * y + z).toNat) ∧ exec (.bfi w) s = put3 (fun x y z => Alu.bfi x.toNat y.toNat z.toNat)) ∧
    (LaneTurn s c sl k g b 0 v.prd v2 [(v.dst.toNat, 1)] →
      exec (.imadImm v) s = puti3 (fun x y z => (x * y + z).toNat) ∧ exec (.bfiImm v) s = puti3 (fun x y z => Alu.bfi x.toNat y.toNat z.toNat)) ∧
    (LaneTurn s c sl k g b 0 w.prd [srcA w.toLaneHead 1, srcB w.toLaneHead 1] [(w.dst.toNat, 1)] → w.fmt.toNat ≤ 2 →
      let e := laneEnv s c sl k g b w.prd [srcA w.toLaneHead 1, srcB w.toLaneHead 1]
      exec (.bfe w) s = .next (wroteLanes s e false w.dst (fun i => Alu.bfe (signedLane w.fmt) (e.g.v w.sa.toNat i).toNat (e.g.v w.sb.toNat i).toNat))) ∧
    (LaneTurn s c sl k g b 0 v.prd [srcA v.toLaneHead 1] [(v.dst.toNat, 1)] → v.fmt.toNat ≤ 2 →
      let e := laneEnv s c sl k g b v.prd [srcA v.toLaneHead 1]
      exec (.bfeImm v) s = .next (wroteLanes s e false v.dst (fun i => Alu.bfe (signedLane v.fmt) (e.g.v v.sa.toNat i).toNat v.imm.toNat)))

/-- ICMP and PLOP write a predicate of the executing lanes; IADDC writes a sum with a carry in, and where PDST is not 0 its carry out (R235,
R241, R246). -/
def Obligations.LanePredicates : Prop :=
  ∀ (s : State) (c sl k : Nat) (g : Group) (b : LaneBlock) (w : L3) (v : LI),
    let a2 := [srcA w.toLaneHead (regsOf w.fmt), srcB w.toLaneHead (regsOf w.fmt)]
    let v1 := [srcA v.toLaneHead (regsOf v.fmt)]
    let e2 := laneEnv s c sl k g b w.prd a2
    let e0 := laneEnv s c sl k g b w.prd []
    let j := laneEnv s c sl k g b v.prd v1
    (LaneTurn s c sl k g b 0 w.prd a2 [] → w.fmt.toNat ≤ 4 →
      exec (.icmp w) s = .next (wrotePred s e2 w.pdst (fun i =>
        let x := e2.g.vn (isPair w.fmt) w.sa.toNat i
        let y := e2.g.vn (isPair w.fmt) w.sb.toNat i
        if isPair w.fmt then holdsInt (BitVec.ofNat 5 (w.aux.toNat % 8)) (signedLane w.fmt) (BitVec.ofNat 64 x) (BitVec.ofNat 64 y)
        else holdsInt (BitVec.ofNat 5 (w.aux.toNat % 8)) (signedLane w.fmt) (BitVec.ofNat 32 x) (BitVec.ofNat 32 y)))) ∧
    (LaneTurn s c sl k g b 0 v.prd v1 [] → v.fmt.toNat ≤ 4 →
      exec (.icmpImm v) s = .next (wrotePred s j v.pdst (fun i =>
        let x := j.g.vn (isPair v.fmt) v.sa.toNat i
        if isPair v.fmt then holdsInt (v.rm.setWidth 5) (signedLane v.fmt) (BitVec.ofNat 64 x) (BitVec.ofNat 64 (immI v))
        else holdsInt (v.rm.setWidth 5) (signedLane v.fmt) (BitVec.ofNat 32 x) (BitVec.ofNat 32 (immI v))))) ∧
    (LaneTurn s c sl k g b 0 w.prd [] [] →
      exec (.plop w) s = .next (wrotePred s e0 w.pdst (fun i =>
        w.aux.getLsbD ((if (e0.g.p (w.sa.toNat % 8)).getLsbD i then 2 else 0) + (if (e0.g.p (w.sb.toNat % 8)).getLsbD i then 1 else 0))))) ∧
    (LaneTurn s c sl k g b 0 w.prd [srcA w.toLaneHead 1, srcB w.toLaneHead 1] [(w.dst.toNat, 1)] →
      let e := laneEnv s c sl k g b w.prd [srcA w.toLaneHead 1, srcB w.toLaneHead 1]
      let ci (i : Nat) : Nat := if w.aux.toNat % 8 = 0 then 0 else if (e.g.p (w.aux.toNat % 8)).getLsbD i then 1 else 0
      let sum (i : Nat) : Nat := (e.g.v w.sa.toNat i).toNat + (e.g.v w.sb.toNat i).toNat + ci i
      let out : W32 := BitVec.ofNat 32 (maskOf ((lanesOf e.exec).filter (fun i => decide (2 ^ 32 ≤ sum i))))
      exec (.iaddc w) s = .next (doneLane ((laneStart s e).updGroup c sl (fun h =>
        let h := h.putLanes false w.dst.toNat (e.exec &&& e.keep) (fun i => sum i % 2 ^ 32)
        if w.pdst = 0 then h else h.setP w.pdst.toNat (e.exec &&& e.keep) out)) c sl k)) ∧
    (LaneTurn s c sl k g b 0 v.prd [srcA v.toLaneHead 1] [(v.dst.toNat, 1)] →
      let e := laneEnv s c sl k g b v.prd [srcA v.toLaneHead 1]
      let ci (i : Nat) : Nat := if v.rm.toNat = 0 then 0 else if (e.g.p v.rm.toNat).getLsbD i then 1 else 0
      let sum (i : Nat) : Nat := (e.g.v v.sa.toNat i).toNat + v.imm.toNat + ci i
      let out : W32 := BitVec.ofNat 32 (maskOf ((lanesOf e.exec).filter (fun i => decide (2 ^ 32 ≤ sum i))))
      exec (.iaddcImm v) s = .next (doneLane ((laneStart s e).updGroup c sl (fun h =>
        let h := h.putLanes false v.dst.toNat (e.exec &&& e.keep) (fun i => sum i % 2 ^ 32)
        if v.pdst = 0 then h else h.setP v.pdst.toNat (e.exec &&& e.keep) out)) c sl k))

/-! ## Lane floating-point words (R229 to R239, R244) -/

/-- The floating-point words of FP32, FP64 and both halves of BF16 pairs, on the modified operands, in the executing lanes: one, two or
three registers, or an immediate in the last place; each rounds once (R228 to R230, R233, R234, R236, R238, R239). -/
def Obligations.LaneFloat : Prop :=
  ∀ (s : State) (c sl k : Nat) (g : Group) (b : LaneBlock) (w : L3) (v : LI),
    let n (t : Nat) : Nat := if Encoding.pairFmt t then 2 else 1
    let w2 (t : Nat) : List Src := [srcA w.toLaneHead (n t), srcB w.toLaneHead (n t)]
    let w3 (t : Nat) : List Src := [srcA w.toLaneHead (n t), srcB w.toLaneHead (n t), srcC w (n t)]
    let v1 (t : Nat) : List Src := [srcA v.toLaneHead (n t)]
    let v2 (t : Nat) : List Src := [srcA v.toLaneHead (n t), srcB v.toLaneHead (n t)]
    let on (a : List Src) (t : Nat) : Prop := LaneTurn s c sl k g b 2 w.prd a [(w.dst.toNat, n t)]
    let oni (a : List Src) (t : Nat) : Prop := LaneTurn s c sl k g b 2 v.prd a [(v.dst.toNat, n t)]
    let fin (e : LaneEnv) : Alu.Fin := ⟨modeNoRsr w.rm e.sp.fmtr, w.scl.toNat, w.clp.toNat⟩
    let fini (e : LaneEnv) : Alu.Fin := ⟨modeNoRsr v.rm e.sp.fmtr, 0, 0⟩
    let put (t : Nat) (a : List Src) (f : LaneEnv → Nat → Nat) : Host.Outcome State Fault Refusal :=
      .next (wroteLanes s (laneEnv s c sl k g b w.prd a) (Encoding.pairFmt t) w.dst (f (laneEnv s c sl k g b w.prd a)))
    let puti (t : Nat) (a : List Src) (f : LaneEnv → Nat → Nat) : Host.Outcome State Fault Refusal :=
      .next (wroteLanes s (laneEnv s c sl k g b v.prd a) (Encoding.pairFmt t) v.dst (f (laneEnv s c sl k g b v.prd a)))
    let two (t : Nat) (f : Alu.Fin → Nat → Nat → Nat) : Host.Outcome State Fault Refusal :=
      put t (w2 t) (fun e i => f (fin e) (opA e.g w.toLaneHead t i) (opB e.g w.toLaneHead t i))
    let twoi (t : Nat) (f : Alu.Fin → Nat → Nat → Nat) : Host.Outcome State Fault Refusal :=
      puti t (v1 t) (fun e i => f (fini e) (opA e.g v.toLaneHead t i) (immF t v))
    let three (t : Nat) (f : Alu.Fin → Nat → Nat → Nat → Nat) : Host.Outcome State Fault Refusal :=
      put t (w3 t) (fun e i => f (fin e) (opA e.g w.toLaneHead t i) (opB e.g w.toLaneHead t i) (opC e.g w t i))
    let threei (t : Nat) (f : Alu.Fin → Nat → Nat → Nat → Nat) : Host.Outcome State Fault Refusal :=
      puti t (v2 t) (fun e i => f (fini e) (opA e.g v.toLaneHead t i) (opB e.g v.toLaneHead t i) (immF t v))
    (on (w2 5) 5 → exec (.fadd w) s = two 5 (Alu.fadd Numbers.f32) ∧ exec (.fmul w) s = two 5 (Alu.fmul Numbers.f32) ∧
      exec (.fmin w) s = two 5 (fun _ => Numbers.minMax Numbers.f32 false) ∧ exec (.fmax w) s = two 5 (fun _ => Numbers.minMax Numbers.f32 true)) ∧
    (on (w2 8) 8 → exec (.dadd w) s = two 8 (Alu.fadd Numbers.f64) ∧ exec (.dmul w) s = two 8 (Alu.fmul Numbers.f64) ∧
      exec (.dmin w) s = two 8 (fun _ => Numbers.minMax Numbers.f64 false) ∧ exec (.dmax w) s = two 8 (fun _ => Numbers.minMax Numbers.f64 true)) ∧
    (on (w2 7) 7 → exec (.bfadd2 w) s = two 7 (fun o => Alu.both2 (Alu.fadd Numbers.bf16 o)) ∧
      exec (.bfmul2 w) s = two 7 (fun o => Alu.both2 (Alu.fmul Numbers.bf16 o)) ∧
      exec (.bfmin2 w) s = two 7 (fun _ => Alu.both2 (Numbers.minMax Numbers.bf16 false)) ∧
      exec (.bfmax2 w) s = two 7 (fun _ => Alu.both2 (Numbers.minMax Numbers.bf16 true))) ∧
    (oni (v1 5) 5 → exec (.faddImm v) s = twoi 5 (Alu.fadd Numbers.f32) ∧ exec (.fmulImm v) s = twoi 5 (Alu.fmul Numbers.f32) ∧
      exec (.fminImm v) s = twoi 5 (fun _ => Numbers.minMax Numbers.f32 false) ∧ exec (.fmaxImm v) s = twoi 5 (fun _ => Numbers.minMax Numbers.f32 true)) ∧
    (oni (v1 8) 8 → exec (.daddImm v) s = twoi 8 (Alu.fadd Numbers.f64) ∧ exec (.dmulImm v) s = twoi 8 (Alu.fmul Numbers.f64) ∧
      exec (.dminImm v) s = twoi 8 (fun _ => Numbers.minMax Numbers.f64 false) ∧ exec (.dmaxImm v) s = twoi 8 (fun _ => Numbers.minMax Numbers.f64 true)) ∧
    (oni (v1 7) 7 → exec (.bfadd2Imm v) s = twoi 7 (fun o => Alu.both2 (Alu.fadd Numbers.bf16 o)) ∧
      exec (.bfmul2Imm v) s = twoi 7 (fun o => Alu.both2 (Alu.fmul Numbers.bf16 o)) ∧
      exec (.bfmin2Imm v) s = twoi 7 (fun _ => Alu.both2 (Numbers.minMax Numbers.bf16 false)) ∧
      exec (.bfmax2Imm v) s = twoi 7 (fun _ => Alu.both2 (Numbers.minMax Numbers.bf16 true))) ∧
    (on (w3 5) 5 → exec (.ffma w) s = three 5 (Alu.ffma Numbers.f32)) ∧
    (on (w3 8) 8 → exec (.dfma w) s = three 8 (Alu.ffma Numbers.f64)) ∧
    (on (w3 7) 7 → exec (.bffma2 w) s = three 7 (fun o => Alu.both3 (Alu.ffma Numbers.bf16 o))) ∧
    (oni (v2 5) 5 → exec (.ffmaImm v) s = threei 5 (Alu.ffma Numbers.f32)) ∧
    (oni (v2 8) 8 → exec (.dfmaImm v) s = threei 8 (Alu.ffma Numbers.f64)) ∧
    (oni (v2 7) 7 → exec (.bffma2Imm v) s = threei 7 (fun o => Alu.both3 (Alu.ffma Numbers.bf16 o))) ∧
    (on [srcA w.toLaneHead 1] 5 → exec (.frnd w) s = put 5 [srcA w.toLaneHead 1] (fun e i =>
      Alu.frnd Numbers.f32 (modeNoRsr w.rm e.sp.fmtr) (opA e.g w.toLaneHead 5 i)))

/-- FCMP and DCMP write the condition of Table 11-4 on the modified operands (R235); the words of the transcendental unit leave their
destinations EMPTY until their values arrive (R237, Table 10-2). How a transcendental value is computed is log 14. -/
def Obligations.LaneCompareAndTranscendental : Prop :=
  ∀ (s : State) (c sl k : Nat) (g : Group) (b : LaneBlock) (w : L3) (v : LI),
    let n (t : Nat) : Nat := if Encoding.pairFmt t then 2 else 1
    let w1 (t : Nat) : List Src := [srcA w.toLaneHead (n t)]
    let w2 (t : Nat) : List Src := [srcA w.toLaneHead (n t), srcB w.toLaneHead (n t)]
    let v1 (t : Nat) : List Src := [srcA v.toLaneHead (n t)]
    let cmp (t : Nat) (f : Numbers.Fmt) : Host.Outcome State Fault Refusal :=
      let e := laneEnv s c sl k g b w.prd (w2 t)
      .next (wrotePred s e w.pdst (fun i => Numbers.fcond (w.aux.toNat % 8)
        (Numbers.value f (opA e.g w.toLaneHead t i)) (Numbers.value f (opB e.g w.toLaneHead t i))))
    let cmpi (t : Nat) (f : Numbers.Fmt) : Host.Outcome State Fault Refusal :=
      let e := laneEnv s c sl k g b v.prd (v1 t)
      .next (wrotePred s e v.pdst (fun i => Numbers.fcond v.rm.toNat
        (Numbers.value f (opA e.g v.toLaneHead t i)) (Numbers.value f (immF t v))))
    let one (t : Nat) (f : Numbers.Mode → Nat → Nat) : Host.Outcome State Fault Refusal :=
      let e := laneEnv s c sl k g b w.prd (w1 t)
      .next (producesLanes s e (Encoding.pairFmt t) w.dst (fun i => f (modeNoRsr w.rm e.sp.fmtr) (opA e.g w.toLaneHead t i)))
    (LaneTurn s c sl k g b 2 w.prd (w2 5) [] → exec (.fcmp w) s = cmp 5 Numbers.f32) ∧
    (LaneTurn s c sl k g b 2 w.prd (w2 8) [] → exec (.dcmp w) s = cmp 8 Numbers.f64) ∧
    (LaneTurn s c sl k g b 2 v.prd (v1 5) [] → exec (.fcmpImm v) s = cmpi 5 Numbers.f32) ∧
    (LaneTurn s c sl k g b 2 v.prd (v1 8) [] → exec (.dcmpImm v) s = cmpi 8 Numbers.f64) ∧
    (LaneTurn s c sl k g b 2 w.prd (w1 5) [(w.dst.toNat, 1)] →
      exec (.frcp w) s = one 5 (fun m => Alu.frcp Numbers.f32 ⟨m, 0, 0⟩) ∧ exec (.frsq w) s = one 5 (fun m => Alu.frsq Numbers.f32 ⟨m, 0, 0⟩) ∧
      exec (.fsqrt w) s = one 5 (fun m => Alu.fsqrt Numbers.f32 ⟨m, 0, 0⟩) ∧ exec (.fex2 w) s = one 5 Transc.ex2 ∧
      exec (.flg2 w) s = one 5 Transc.lg2 ∧ exec (.fsin w) s = one 5 Transc.sin ∧ exec (.fcos w) s = one 5 Transc.cos) ∧
    (LaneTurn s c sl k g b 2 w.prd (w1 8) [(w.dst.toNat, 2)] →
      exec (.drcp w) s = one 8 (fun m => Alu.frcp Numbers.f64 ⟨m, 0, 0⟩) ∧ exec (.drsq w) s = one 8 (fun m => Alu.frsq Numbers.f64 ⟨m, 0, 0⟩) ∧
      exec (.dsqrt w) s = one 8 (fun m => Alu.fsqrt Numbers.f64 ⟨m, 0, 0⟩)) ∧
    (LaneTurn s c sl k g b 2 w.prd [srcA w.toLaneHead 1, srcB w.toLaneHead 1] [(w.dst.toNat, 1)] →
      let e := laneEnv s c sl k g b w.prd [srcA w.toLaneHead 1, srcB w.toLaneHead 1]
      exec (.fdivc w) s = .next (producesLanes s e false w.dst (fun i => Alu.fdiv Numbers.f32 ⟨modeNoRsr w.rm e.sp.fmtr, w.scl.toNat, w.clp.toNat⟩
        (opA e.g w.toLaneHead 5 i) (opB e.g w.toLaneHead 5 i)))) ∧
    (LaneTurn s c sl k g b 2 v.prd [srcA v.toLaneHead 1] [(v.dst.toNat, 1)] →
      let e := laneEnv s c sl k g b v.prd [srcA v.toLaneHead 1]
      exec (.fdivcImm v) s = .next (producesLanes s e false v.dst (fun i => Alu.fdiv Numbers.f32 ⟨modeNoRsr v.rm e.sp.fmtr, 0, 0⟩
        (opA e.g v.toLaneHead 5 i) v.imm.toNat)))

/-- CVT converts in the executing lanes and, rounding stochastically, draws once for each element (R67, R244); LFMT takes its state from the
lowest executing lane (R225); RDSPEC reads a special value (R226). The values of CVT are those of R244 by the model's conversion functions.
-/
def Obligations.LaneConversions : Prop :=
  ∀ (s : State) (c sl k : Nat) (g : Group) (b : LaneBlock) (w : L3),
    let a := [srcA w.toLaneHead (if Encoding.pairFmt (w.aux.toNat % 16) then 2 else 1)] ++ (if w.fmt = 7 then [srcB w.toLaneHead 1] else [])
    let e := laneEnv s c sl k g b w.prd a
    let e1 := laneEnv s c sl k g b w.prd [srcA w.toLaneHead 1]
    let e0 := laneEnv s c sl k g b w.prd []
    (LaneTurn s c sl k g b 2 w.prd a [(w.dst.toNat, regsOf w.fmt)] →
      exec (.cvt w) s = .next (doneLane ((laneStart s e).updGroup c sl (fun h =>
        (h.putLanes (isPair w.fmt) w.dst.toNat (e.exec &&& e.keep) (cvtLane w e)).drawn (e.exec &&& e.keep) (cvtDraws w e.sp.fmtr))) c sl k)) ∧
    (∀ i l, LaneTurn s c sl k g b 0 w.prd [srcA w.toLaneHead 1] [] → lanesOf (e1.exec &&& e1.keep) = i :: l →
      exec (.lfmt w) s = .next (doneLane (updSplit (laneStart s e1) c sl k (fun x => { x with fmtr := fmtrFix (e1.g.v w.sa.toNat i) })) c sl k)) ∧
    (LaneTurn s c sl k g b 0 w.prd [srcA w.toLaneHead 1] [] → lanesOf (e1.exec &&& e1.keep) = [] →
      exec (.lfmt w) s = .next (doneLane (laneStart s e1) c sl k)) ∧
    (LaneTurn s c sl k g b 0 w.prd [] [(w.dst.toNat, 1)] →
      exec (.rdspec w) s = .next (wroteLanes s e0 false w.dst (specValue (laneStart s e0) e0 (w.aux.toNat % 16))))

/-- SHFL, VOTE, GRED and GSCAN over the executing lanes (R247 to R251): a lane takes another's value or keeps its own, a vote or a balanced
tree gives every lane or a scalar register one value, and a scan gives each lane its own. -/
def Obligations.CrossLaneWords : Prop :=
  ∀ (s : State) (c sl k : Nat) (g : Group) (b : LaneBlock) (w : L3) (v : LI),
    let op := w.aux.toNat % 8
    let a := [srcA w.toLaneHead (regsOf w.fmt)]
    let e := laneEnv s c sl k g b w.prd a
    let fold := Alu.redOp w.fmt.toNat op (modeNoRsr w.rm e.sp.fmtr)
    let moved (e : LaneEnv) (h : LaneHead) (mode : Nat) (cnt : Nat → Nat) : State :=
      let m := e.exec &&& e.keep
      doneLane ((laneStart s e).updGroup c sl (fun x =>
        let x := x.putLanes (isPair h.fmt) h.dst.toNat m (fun i => e.g.vn (isPair h.fmt) h.sa.toNat ((shflFrom mode (cnt i) i e.exec).getD i))
        if h.pdst = 0 then x
        else x.setP h.pdst.toNat m (BitVec.ofNat 32 (maskOf ((lanesOf e.exec).filter (fun i => (shflFrom mode (cnt i) i e.exec).isSome)))))) c sl k
    (LaneTurn s c sl k g b 2 w.prd [srcA w.toLaneHead (regsOf w.fmt), srcB w.toLaneHead 1] [(w.dst.toNat, regsOf w.fmt)] →
      let e2 := laneEnv s c sl k g b w.prd [srcA w.toLaneHead (regsOf w.fmt), srcB w.toLaneHead 1]
      exec (.shfl w) s = .next (moved e2 w.toLaneHead (w.aux.toNat % 4) (fun i => (e2.g.v w.sb.toNat i).toNat))) ∧
    (LaneTurn s c sl k g b 2 v.prd [srcA v.toLaneHead (regsOf v.fmt)] [(v.dst.toNat, regsOf v.fmt)] →
      let j := laneEnv s c sl k g b v.prd [srcA v.toLaneHead (regsOf v.fmt)]
      exec (.shflImm v) s = .next (moved j v.toLaneHead v.rm.toNat (fun _ => v.imm.toNat))) ∧
    (LaneTurn s c sl k g b 2 w.prd a [(w.dst.toNat, regsOf w.fmt)] →
      exec (.gscan w) s = .next (wroteLanes s e (isPair w.fmt) w.dst (fun i =>
        let x := Alu.scan fold (contribs w op e)
        if w.aux.getLsbD 3 then (if i = 0 then Alu.redId w.fmt.toNat op else x.getD (i - 1) 0) else x.getD i 0))) ∧
    (LaneTurn s c sl k g b 2 w.prd a [(w.dst.toNat, regsOf w.fmt)] → w.aux.getLsbD 5 = false →
      exec (.gred w) s = .next (wroteLanes s e (isPair w.fmt) w.dst (fun _ => Alu.tree fold (contribs w op e)))) ∧
    (LaneTurn s c sl k g b 2 w.prd a [] → w.aux.getLsbD 5 = true → w.prd ≠ 8 →
      exec (.gred w) s = .next (doneLane ((laneStart s e).updGroup c sl (fun h =>
        h.setS (h.sname w.dst.toNat) (redScalar w.fmt (Alu.tree fold (contribs w op e))))) c sl k)) ∧
    (LaneTurn s c sl k g b 2 w.prd [] [(w.dst.toNat, 1)] → w.aux.toNat % 4 = 3 → w.aux.getLsbD 5 = false →
      let e0 := laneEnv s c sl k g b w.prd []
      exec (.vote w) s = .next (wroteLanes s e0 false w.dst (fun _ =>
        (e0.exec &&& (if w.sa.getLsbD 3 then ~~~(e0.g.p (w.sa.toNat % 8)) else e0.g.p (w.sa.toNat % 8))).toNat))) ∧
    (LaneTurn s c sl k g b 2 w.prd [] [] → w.aux.toNat % 4 ≤ 2 → w.aux.getLsbD 5 = false → w.pdst ≠ 0 →
      let e0 := laneEnv s c sl k g b w.prd []
      let t := e0.exec &&& (if w.sa.getLsbD 3 then ~~~(e0.g.p (w.sa.toNat % 8)) else e0.g.p (w.sa.toNat % 8))
      let holds : Bool := if w.aux.toNat % 4 = 0 then t == e0.exec else if w.aux.toNat % 4 = 1 then t != 0 else t == 0 || t == e0.exec
      exec (.vote w) s = .next (doneLane ((laneStart s e0).updGroup c sl (fun h =>
        h.setP w.pdst.toNat (e0.exec &&& e0.keep) (if holds then BitVec.allOnes 32 else 0))) c sl k)) ∧
    (LaneTurn s c sl k g b 2 w.prd [] [] → w.aux.getLsbD 5 = true → w.prd ≠ 8 →
      let e0 := laneEnv s c sl k g b w.prd []
      exec (.vote w) s = .next (doneLane ((laneStart s e0).updGroup c sl (fun h => h.setS (h.sname w.dst.toNat) (BitVec.ofNat 64
        (Flags.vote (w.aux.toNat % 4) e0.exec (if w.sa.getLsbD 3 then ~~~(e0.g.p (w.sa.toNat % 8)) else e0.g.p (w.sa.toNat % 8)))))) c sl k))

/-! ## The matrix sequencer (R257 to R284) -/

/-- MMA and MMAQ with a K of their format and a free unit take the unit with K, the predicates and their stream positions captured, and the
PC moves on while the unit runs (R261, R262, R264). With no MMA in flight: MZERO clears one accumulator or a pair, MADDA adds the
unmasked elements of two accumulators in FP32, MPRD sets a predicate word, and MSCL disables a scale vector, which keeps its 64 values
(R270, R272, R273, R277, Table 12-1). The order of the words in flight is log 37. -/
def Obligations.MatrixArithmetic : Prop :=
  (∀ (s : State) (b : Nat) (x : Block) (q : Seq) (w : MA) (n u : Nat) (quant : Bool),
     s.turn = .seq (b / 8) (b % 8) → s.block? b = some x → x.seq = some q → q.prog = 0 → kOf q quant w = some n → freeUnit q = some u →
     let f : Flight := { unit := u, pc := q.pc, word := w, quant, k := n, rows := q.mrp.getD w.mrp.toNat 0, cols := q.mcp.getD w.mcp.toNat 0, apos := streamEnd x q w.sa.toNat, bpos := streamEnd x q (w.sb.toNat + 4) }
     let t := drain (updSeq s b (fun q => { q with flights := q.flights ++ [f] })) b
     t.2 = none → exec (if quant then .mmaq w else .mma w) s = .next (doneSeq t.1 b)) ∧
  (∀ (s : State) (b : Nat) (x : Block) (q : Seq) (w : MA) (p : MP),
     SeqTurn s b x q →
     let put (f : Seq → Seq) : Host.Outcome State Fault Refusal := .next (doneSeq (updSeq s b f) b)
     let pred (v : W64) (q : Seq) : Seq := if p.rc = 0 then { q with mrp := q.mrp.set p.pi.toNat v } else { q with mcp := q.mcp.set p.pi.toNat v }
     exec (.mzero w) s = put (fun q => if w.sub = 1 then (q.zeroAc w.acc.toNat).zeroAc (w.acc.toNat + 1) else q.zeroAc w.acc.toNat) ∧
     exec (.madda w) s = put (fun q => (unmasked q w 64 64).foldl (fun q e => q.setAc w.acc.toNat e.1 e.2
       (Alu.fadd Numbers.f32 ⟨.rne, 0, 0⟩ (q.ac w.acc.toNat e.1 e.2) (q.ac w.acb.toNat e.1 e.2))) q) ∧
     exec (.mprdCnt p) s = put (pred (mprdMask p.first.toNat p.cnt.toNat)) ∧
     exec (.mprdQ p) s = put (pred (mprdMask p.first.toNat (min 64 ((q.qs.getD p.qs.toNat 0).toNat % 128)))) ∧
     exec (.msclClr p) s = put (fun q => if p.rc = 0 then { q with rscaleOn := false } else { q with cscaleOn := false }))

/-- MLDA reads every element of its direct map before it writes its accumulator, and MSCL.set reads 64 scales (R271, R273). MSTA to memory
converts its elements once, in row-major order, and is complete when the units of the map have been written, each at places that translate and
at homes that take it; where a group of elements is out of range, those before it are written and the word traps OPERAND_BOUNDS at it, or
APERTURE in the stack aperture; to the tile file it is complete
when its definition is accepted, and then its elements have drawn (R192, R274, R275). Each reads the record of its map once, at its start
(R182, R258). That a wait is held as a park with its code and condition is the model's form (log 9). -/
def Obligations.MatrixMemory : Prop :=
  (∀ (s u : State) (b : Nat) (x : Block) (q : Seq) (w : MA) (p : MP) (m : OMap) (pats : List Nat),
     SeqTurn s b x q → q.prog = 0 → q.buf = [] →
     let cells := (List.range (min m.n1 64)).flatMap (fun r => (List.range (min m.n0 64)).map (fun n => (r, n)))
     let fill (q : Seq) : Seq := (cells.zip pats).foldl (fun (q : Seq) e =>
       if w.af = 15 then q.setPair w.acc.toNat e.1.1 e.1.2 (ldaWord 15 e.2) else q.setAc w.acc.toNat e.1.1 e.1.2 (ldaWord w.af.toNat e.2))
       (if w.af = 15 then (q.zeroAc w.acc.toNat).zeroAc (w.acc.toNat + 1) else q.zeroAc w.acc.toNat)
     let fin (u : State) : State := endMap u (seqIssuer u b 8) 0 m
     (directMap x w.omi.toNat w.af.toNat true = .ok m → readsTo b m (cells.map (fun e => e.2 + m.n0 * e.1)) (noteMap s b x w.omi.toNat) = some (pats, u) →
       exec (.mlda w) s = .next (doneSeq (updSeq (fin u) b fill) b)) ∧
     (directMap x p.omi.toNat 14 false = .ok m → 64 ≤ m.count → readsTo b m (List.range 64) (noteMap s b x p.omi.toNat) = some (pats, u) →
       exec (.msclSet p) s = .next (doneSeq (updSeq (fin u) b (fun q =>
         if p.rc = 0 then { q with rscale := scaleVec pats, rscaleOn := true } else { q with cscale := scaleVec pats, cscaleOn := true })) b))) ∧
  (∀ (s u : State) (b : Nat) (x : Block) (q : Seq) (w : MA) (m : OMap) (o : TileOp),
     SeqTurn s b x q → directMap x w.omi.toNat w.af.toNat true = .ok m → m.n0 % packGroup m.fmt = 0 →
     let es := unmasked q w m.n1 m.n0
     let pats := if q.buf.isEmpty then (staElems q w es q.rng).1 else q.buf
     let v := updSeq (noteMap s b x w.omi.toNat) b (fun q => { q with buf := pats })
     let p := partyOfBlock v b
     (∀ gs, m.space = 0 → goodGroups p m (staGroups m.fmt es) = (gs, none) →
       unitsWritten b (staDraws w m es gs) q.prog ((staUnits m (es.zip pats) gs).drop q.prog) v u → exec (.msta w) s = .next (doneSeq u b)) ∧
     (∀ gs j, m.space = 0 → goodGroups p m (staGroups m.fmt es) = (gs, some j) →
       unitsWritten b (staDraws w m es gs) q.prog ((staUnits m (es.zip pats) gs).drop q.prog) v u →
       exec (.msta w) s = .next (raiseSeq (undoWord u b) b
         (if (p.ap (m.span j).1).1 = 3 then apertureTrap (m.span j).1 else mapBounds 0 w.omi.toNat j))) ∧
     (m.space = 1 → m.n0 ≤ 64 → m.n1 ≤ 64 → shapeBad (staTile w m) = false → tileOf s x.nb (.seq (b / 8) (b % 8)) 0 = some o → o.st = 2 →
       exec (.msta w) s = .next (doneSeq (updSeq (dropTileOp s x.nb o.id) b (fun q =>
         { q with rng := drawn (if w.rm = 5 then es.length else 0) q.rng })) b)))

/-- The control words of the sequencer: arrivals and waits at numbered barriers, MWAITS on empty streams, MLOOP and MEND, MJMP, MSAFE, and
MEXIT (R278 to R282). That a wait is held as a park with its code and condition is the model's form (log 9). -/
def Obligations.MatrixControl : Prop :=
  ∀ (s : State) (b : Nat) (x : Block) (q : Seq),
    SeqTurn s b x q →
    let imm := s.word.toNat % 2 ^ 48
    let qd := s.word.toNat / 2 ^ 50 % 16
    let c := b / 8
    let me := 48 + b % 8
    let nb := x.nbs.getD (imm % 16) {}
    (storesLeft s b = none →
      exec .mnba s = .next (doneSeq (releaseBit (s.updBlock b (fun x => x.nbArrive (imm % 16) (carriedSig s c me) true)) c me) b) ∧
      exec .mexit s = .next (doneSeq (releaseBit (dropOperands (s.updBlock b Block.endSeq) b) c me) b)) ∧
    (nb.phase ≠ imm / 16 % 2 → exec .mnbw s = .next (doneSeq (takeCarried s c me nb.lastSig) b)) ∧
    (nb.phase = imm / 16 % 2 → exec .mnbw s =
      .next (updSeq (updSeq s b (fun q => { q with disp := some s.word.toNat })) b (fun q => { q with park := some ⟨3, .nb (imm % 16) (imm / 16 % 2)⟩ }))) ∧
    (streamsEmpty x (imm % 256) = true → exec .mwaits s = .next (doneSeq s b)) ∧
    (q.loops.length < 4 → exec .mloop s = .next (doneSeq (updSeq s b (fun q =>
      { q with qs := q.qs.set qd (BitVec.ofNat 32 (imm % 2 ^ 20)), loops := (qd, q.pc + 1) :: q.loops })) b)) ∧
    (∀ d start ls, q.loops = (d, start) :: ls → q.qs.getD d 0 = 1 →
      exec .mend s = .next (doneSeq (updSeq s b (fun q => { q with qs := q.qs.set d 0, loops := ls })) b)) ∧
    (∀ d start ls, q.loops = (d, start) :: ls → q.qs.getD d 0 ≠ 1 → start < 2 ^ 64 →
      exec .mend s = .next (updSeq s b (fun q' =>
        { q' with qs := q'.qs.set d (q.qs.getD d 0 - 1), pc := start, park := none, prog := 0, buf := [], omap := none, disp := none }))) ∧
    exec .mjmp s = .next (updSeq s b (fun q' =>
      { q' with pc := (((q.pc : Int) + (BitVec.ofNat 20 imm).toInt) % (2 ^ 32 : Nat)).toNat, park := none, prog := 0, buf := [], omap := none, disp := none })) ∧
    let saving : Bool := s.saveOps.any (fun o => o.nb == x.nb && !o.restore && !o.done)
    (saving = false → exec .msafe s = .next (doneSeq s b)) ∧
    (saving = true → storesLeft s b = none →
      exec .msafe s = .next (doneSeq (updSeq s b (fun q => { q with safe := some (BitVec.ofNat 48 imm) })) b))

/-! ## Loads, stores and atomics (R138 to R145) -/

/-- A weak scalar load, store or atomic whose bytes translate, and whose access is performed, is complete: SLD and SST of 64 bits, the S-X
forms of every width, and SATOM and SCAS (R122, R141, R144). The step in which an access is performed is logs 10 and 18. -/
def Obligations.ScalarAccesses : Prop :=
  ∀ (s u : State) (c sl : Nat) (g : Group) (d a b n : BitVec 6) (op : BitVec 3) (i : BitVec 13) (x : SXMem),
    ScalarTurn s c sl g false 0 [d.toNat, a.toNat, b.toNat, n.toNat] → x.ord = 0 →
    let p := scalarIssuer s c sl g
    let w := 2 ^ x.wid.toNat
    let off := x.off.signExtend 64
    let l := loadOf g d a (i.signExtend 64) 8 false
    let t := storeOf g d a (i.signExtend 64) 8
    let lx := loadOf g d a off w (x.sgn == 1)
    let tx := storeOf g d a off w
    let ax : Acc := { loadOf g d a off w false with aop := op.toNat, fmt := if w = 4 then 1 else 3, x := (g.reg b).toNat % 2 ^ (8 * w) }
    let cx : Acc := { loadOf g d a off w false with cas := true, x := (g.reg b).toNat % 2 ^ (8 * w), y := (g.reg n).toNat % 2 ^ (8 * w) }
    (AccessReady s p .read 8 apScalar [l] → performed s p .read [l] (loadAcc p false) = some u → exec (.sld d a i) s = .next (doneScalar u c sl 4)) ∧
    (AccessReady s p .write 8 apScalar [t] → performed s p .write [t] (storeAcc p false false) = some u →
      exec (.sst d a i) s = .next (doneScalar u c sl 4)) ∧
    (AccessReady s p .read w apScalar [lx] → performed s p .read [lx] (loadAcc p false) = some u → exec (.sldX d a x) s = .next (doneScalar u c sl 8)) ∧
    (AccessReady s p .write w apScalar [tx] → performed s p .write [tx] (storeAcc p false false) = some u →
      exec (.sstX d a x) s = .next (doneScalar u c sl 8)) ∧
    (AccessReady s p .atomic w apScalar [ax] → performed s p .atomic [ax] (atomAcc p) = some u →
      exec (.satom d a b op x) s = .next (doneScalar u c sl 8)) ∧
    (AccessReady s p .atomic w apScalar [cx] → performed s p .atomic [cx] (atomAcc p) = some u →
      exec (.scas d a b n x) s = .next (doneScalar u c sl 8))

/-- A weak lane load, store, atomic or compare-and-swap, with or without an offset and a granule qualifier, whose lanes' bytes translate and
whose lanes are all performed, is complete; a store draws as its rounding asks (R31, R68, R122, R139, R141, R158). The step in which an
access is performed is logs 10 and 18. -/
def Obligations.LaneAccesses : Prop :=
  ∀ (s u : State) (c sl k : Nat) (g : Group) (b : LaneBlock) (w : L3) (v : LI),
    let f := memL3 w
    let fi := memLI v
    let wp := w.aux.toNat % 8 == 3
    let n := if wp then 2 else 1
    let one := [srcA w.toLaneHead 2]
    let two := [srcA w.toLaneHead 2, srcB w.toLaneHead f.regs]
    let pair := [srcA w.toLaneHead 2, srcB w.toLaneHead n]
    let trio := [srcA w.toLaneHead 2, srcB w.toLaneHead n, srcC w n]
    let env (h : LaneHead) (a : List Src) : LaneEnv := laneEnv s c sl k g b h.prd a
    let iss (h : LaneHead) (a : List Src) : Issuer := laneIssuer (laneStart s (env h a)) (env h a)
    let ready (h : LaneHead) (a : List Src) (kind : Access) (align accept : Nat) (l : List Acc) (act : Acc → List Hop → State → SRes) : Prop :=
      AccessReady (laneStart s (env h a)) (iss h a) kind align accept l ∧ performed (laneStart s (env h a)) (iss h a) kind l act = some u
    let drawnBy (e : LaneEnv) (f : MemForm) (code : Nat) : State :=
      u.updGroup c sl (fun h => h.drawn (BitVec.ofNat 32 (maskOf e.acting)) (f.draws code))
    (w.ord = 0 → LaneTurn s c sl k g b 2 w.prd one [(w.dst.toNat, f.regs)] →
      (f.gfe = 0 → ready w.toLaneHead one .read f.align apLane (f.loads (env w.toLaneHead one)) (loadAcc (iss w.toLaneHead one) (f.ch == 3)) →
        exec (.ld w) s = .next (doneAccess u c sl k)) ∧
      (f.gfe ≠ 0 → ready w.toLaneHead one .read f.align apGranule (f.loads (env w.toLaneHead one)) (gfeLoad (iss w.toLaneHead one) (f.gfe == 2) (env w.toLaneHead one).g.trapMode) →
        exec (.ld w) s = .next (doneAccess u c sl k))) ∧
    (LaneTurn s c sl k g b 2 v.prd [srcA v.toLaneHead 2] [(v.dst.toNat, fi.regs)] → fi.gfe = 0 →
      ready v.toLaneHead [srcA v.toLaneHead 2] .read fi.align apLane (fi.loads (env v.toLaneHead [srcA v.toLaneHead 2]))
        (loadAcc (iss v.toLaneHead [srcA v.toLaneHead 2]) (fi.ch == 3)) →
      exec (.ldImm v) s = .next (doneAccess u c sl k)) ∧
    (w.ord = 0 → LaneTurn s c sl k g b 2 w.prd two [] →
      ready w.toLaneHead two .write f.align (if f.gfe = 3 then apGranule else apLane)
        (f.stores (rmCode w.rm (b.at k).fmtr) (env w.toLaneHead two)) (storeAcc (iss w.toLaneHead two) (f.ch == 3) (f.gfe == 3)) →
      exec (.st w) s = .next (doneAccess (drawnBy (env w.toLaneHead two) f (rmCode w.rm (b.at k).fmtr)) c sl k)) ∧
    (LaneTurn s c sl k g b 2 v.prd [srcA v.toLaneHead 2, srcB v.toLaneHead fi.regs] [] →
      ready v.toLaneHead [srcA v.toLaneHead 2, srcB v.toLaneHead fi.regs] .write fi.align (if fi.gfe = 3 then apGranule else apLane)
        (fi.stores (rmCode 0 (b.at k).fmtr) (env v.toLaneHead [srcA v.toLaneHead 2, srcB v.toLaneHead fi.regs]))
        (storeAcc (iss v.toLaneHead [srcA v.toLaneHead 2, srcB v.toLaneHead fi.regs]) (fi.ch == 3) (fi.gfe == 3)) →
      exec (.stImm v) s = .next (doneAccess (drawnBy (env v.toLaneHead [srcA v.toLaneHead 2, srcB v.toLaneHead fi.regs]) fi (rmCode 0 (b.at k).fmtr)) c sl k)) ∧
    (w.ord = 0 → LaneTurn s c sl k g b 2 w.prd pair [(w.dst.toNat, n)] →
      ready w.toLaneHead pair .atomic (2 ^ (w.aux.toNat % 8)) apLane ((env w.toLaneHead pair).acting.map (fun i =>
        { atomOf w (env w.toLaneHead pair) i with aop := w.aux.toNat / 8, fmt := w.fmt.toNat, x := (env w.toLaneHead pair).g.vn wp w.sb.toNat i }))
        (atomAcc (iss w.toLaneHead pair)) →
      exec (.atom w) s = .next (doneAccess u c sl k)) ∧
    (w.ord = 0 → LaneTurn s c sl k g b 2 w.prd trio [(w.dst.toNat, n)] →
      ready w.toLaneHead trio .atomic (2 ^ (w.aux.toNat % 8)) apLane ((env w.toLaneHead trio).acting.map (fun i =>
        { atomOf w (env w.toLaneHead trio) i with cas := true, x := (env w.toLaneHead trio).g.vn wp w.sb.toNat i, y := (env w.toLaneHead trio).g.vn wp w.sc.toNat i }))
        (atomAcc (iss w.toLaneHead trio)) →
      exec (.cas w) s = .next (doneAccess u c sl k))

/-- A strong access of either stream is complete when its lanes are aligned, accepted and translated, the steps of its release are done, the
remote lanes of a load or an atomic are answered, every lane is performed, and the invalidation of its acquire is not still at work; its writer
has then released, and the lines that it received are invalid (R133 to R135). While the invalidation is at work it parks, and performs nothing
more. A lane word of no acting lane does nothing. The step in which an access is performed is log 18, the own copy log 23; that a wait is held
as a park with its code and condition is the model's form (log 9). -/
def Obligations.StrongAccesses : Prop :=
  ∀ (s r v q t : State) (c sl k : Nat) (g : Group) (b : LaneBlock) (d a d2 d3 : BitVec 6) (op : BitVec 3) (x : SXMem) (w : L3),
    let p := scalarIssuer s c sl g
    let n := 2 ^ x.wid.toNat
    let ax : Acc := { loadOf g d a (x.off.signExtend 64) n false with aop := op.toNat, fmt := if n = 4 then 1 else 3, x := (g.reg d2).toNat % 2 ^ (8 * n) }
    let cx : Acc := { loadOf g d a (x.off.signExtend 64) n false with
      cas := true, x := (g.reg d2).toNat % 2 ^ (8 * n), y := (g.reg d3).toNat % 2 ^ (8 * n) }
    let acq := x.ord.getLsbD 0
    let rel := x.ord.getLsbD 1
    let steps (what : Nat) (l : Acc) : Prop := StrongSteps s p what acq rel x.obs.toNat n apScalar [l] r v q t
    let ends (what : Nat) (l : Acc) (o : Host.Outcome State Fault Refusal) : Prop :=
      let z := strongEnd s p what acq rel x.obs.toNat [l] q t
      let busy := acq && invalidating z c (hasPH x.obs.toNat)
      (busy = false → o = .next (doneScalar z c sl 8)) ∧
      (busy = true → o = .next ((z.updGroup c sl (fun h => { h with arrived := some 1 })).updGroup c sl
        (fun h => { h with park := some ⟨11, .invalidation c (hasPH x.obs.toNat)⟩ })))
    let f := memL3 w
    let wp := w.aux.toNat % 8 == 3
    let m := if wp then 2 else 1
    let one := [srcA w.toLaneHead 2]
    let two := [srcA w.toLaneHead 2, srcB w.toLaneHead f.regs]
    let pair := [srcA w.toLaneHead 2, srcB w.toLaneHead m]
    let trio := [srcA w.toLaneHead 2, srcB w.toLaneHead m, srcC w m]
    let env (srcs : List Src) : LaneEnv := laneEnv s c sl k g b w.prd srcs
    let la := (env pair).acting.map (fun i => { atomOf w (env pair) i with aop := w.aux.toNat / 8, fmt := w.fmt.toNat, x := (env pair).g.vn wp w.sb.toNat i })
    let lc := (env trio).acting.map (fun i =>
      { atomOf w (env trio) i with cas := true, x := (env trio).g.vn wp w.sb.toNat i, y := (env trio).g.vn wp w.sc.toNat i })
    let runs (srcs : List Src) (what : Nat) (acq rel : Bool) (align : Nat) (l : List Acc) (o : Host.Outcome State Fault Refusal) : Prop :=
      let s1 := laneStart s (env srcs)
      let i := laneIssuer s1 (env srcs)
      let z := strongEnd s1 i what acq rel w.obs.toNat l q t
      let busy := acq && invalidating z c (hasPH w.obs.toNat)
      (l = [] → o = .next (doneLane s1 c sl k)) ∧
      (StrongSteps s1 i what acq rel w.obs.toNat align apLane l r v q t →
        (busy = false → o = .next (doneAccess z c sl k)) ∧
        (busy = true → o = .next (updSplit (updSplit z c sl k (fun y => { y with unfinished := some 0 })) c sl k
          (fun y => { y with park := some ⟨11, .invalidation c (hasPH w.obs.toNat)⟩ }))))
    (ScalarTurn s c sl g false 0 [d.toNat, a.toNat] → x.ord ≠ 0 → g.arrived ≠ some 1 →
      (steps 0 (loadOf g d a (x.off.signExtend 64) n (x.sgn == 1)) →
        ends 0 (loadOf g d a (x.off.signExtend 64) n (x.sgn == 1)) (exec (.sldX d a x) s)) ∧
      (steps 1 (storeOf g d a (x.off.signExtend 64) n) → ends 1 (storeOf g d a (x.off.signExtend 64) n) (exec (.sstX d a x) s))) ∧
    (ScalarTurn s c sl g false 0 [d.toNat, a.toNat, d2.toNat, d3.toNat] → x.ord ≠ 0 → g.arrived ≠ some 1 →
      (steps 2 ax → ends 2 ax (exec (.satom d a d2 op x) s)) ∧ (steps 2 cx → ends 2 cx (exec (.scas d a d2 d3 x) s))) ∧
    (w.ord ≠ 0 → LaneTurn s c sl k g b 2 w.prd pair [(w.dst.toNat, m)] →
      runs pair 2 (w.ord.getLsbD 0) (w.ord.getLsbD 1) (2 ^ (w.aux.toNat % 8)) la (exec (.atom w) s)) ∧
    (w.ord ≠ 0 → LaneTurn s c sl k g b 2 w.prd trio [(w.dst.toNat, m)] →
      runs trio 2 (w.ord.getLsbD 0) (w.ord.getLsbD 1) (2 ^ (w.aux.toNat % 8)) lc (exec (.cas w) s)) ∧
    (w.ord ≠ 0 → LaneTurn s c sl k g b 2 w.prd one [(w.dst.toNat, f.regs)] → runs one 0 true false f.align (f.loads (env one)) (exec (.ld w) s)) ∧
    (w.ord ≠ 0 → LaneTurn s c sl k g b 2 w.prd two [] → runs two 1 false true f.align (f.stores 1 (env two)) (exec (.st w) s))

/-- PREF performs what it can and never stops its split; FEZ, FESET and FEQ act on granules of the scratchpads (R143, R162, R163). PUSHM
lowers the stack pointer by 4 bytes a register and stores the registers of the executing lanes there; POPM raises it and its registers
arrive, at once and FULL in trap mode, where what it reads meets no error of the scratchpad; both stay within the stack (R148, R222, R223,
R370). What a prefetch brings is log 45. -/
def Obligations.PrefetchAndSpill : Prop :=
  (∀ (s : State) (c sl k : Nat) (g : Group) (b : LaneBlock) (w : L3) (v : LI),
     let a1 := [srcA w.toLaneHead 2]
     let a2 := [srcA w.toLaneHead 2, srcB w.toLaneHead 1]
     let v1 := [srcA v.toLaneHead 2]
     let e1 := laneEnv s c sl k g b w.prd a1
     let e2 := laneEnv s c sl k g b w.prd a2
     let j := laneEnv s c sl k g b v.prd v1
     let s1 := laneStart s e1
     let s2 := laneStart s e2
     let i1 := laneIssuer s1 e1
     let i2 := laneIssuer s2 e2
     let l2 := e2.acting.map (fun i =>
       ({ lane := i, va := e2.ea w.toLaneHead 0 i, n := 16 * (e2.g.v w.sb.toNat i).toNat, conv := .lane 0 0 0 0 } : Acc))
     let l1 := e1.acting.map (fun i => ({ lane := i, va := e1.ea w.toLaneHead 0 i, n := 16, conv := .lane 0 0 0 0 } : Acc))
     let all (f : State → Nat → State) : State := l2.foldl (fun s a => (granulesAt s (i2.at a) a.va (a.n / 16)).foldl f s) s2
     (LaneTurn s c sl k g b 2 w.prd a1 [] → exec (.pref w) s = .next (doneLane ((e1.acting.map (fun i => (i, e1.ea w.toLaneHead 0 i))).foldl
       (prefOne i1 ((memL3 w).ch == 3)) s1) c sl k)) ∧
     (LaneTurn s c sl k g b 2 v.prd v1 [] → exec (.prefImm v) s = .next (doneLane ((j.acting.map (fun i => (i, j.ea v.toLaneHead (v.imm.signExtend 64) i))).foldl
       (prefOne (laneIssuer (laneStart s j) j) ((memLI v).ch == 3)) (laneStart s j)) c sl k)) ∧
     (LaneTurn s c sl k g b 2 w.prd a2 [] → misaligned i2 16 l2 = none → outside i2 apGranule l2 = none →
       exec (.fez w) s = .next (doneLane (all emptyGranule) c sl k) ∧ exec (.feset w) s = .next (doneLane (all fillGranule) c sl k)) ∧
     (LaneTurn s c sl k g b 2 w.prd a1 [(w.dst.toNat, 1)] → misaligned i1 16 l1 = none → outside i1 apGranule l1 = none →
       exec (.feq w) s = .next (doneLane (s1.updGroup c sl (fun h => h.producing (e1.exec &&& e1.keep) [w.dst.toNat] (fun i =>
         [(w.dst.toNat, BitVec.ofNat 32 (granuleBits s1 { i1.p with lane := i } (e1.ea w.toLaneHead 0 i)))]))) c sl k))) ∧
  (∀ (s : State) (c sl k : Nat) (g : Group) (b : LaneBlock) (w : L3),
     let n := w.sb.toNat + 1 - w.sa.toNat
     let e := laneEnv s c sl k g b w.prd [srcA w.toLaneHead n]
     let d := laneEnv s c sl k g b w.prd []
     (LaneTurn s c sl k g b 0 w.prd [srcA w.toLaneHead n] [] → w.prd ≠ 8 → 4 * n ≤ e.stack →
       let sp := e.stack - 4 * n
       exec (.pushm w) s = .next (doneLane (putStack e sp ((e.acting.flatMap (fun i => (List.range n).map (fun j => (i, j)))).foldl
         (pushWord e sp w.sa.toNat) (laneStart s e))) c sl k)) ∧
     (LaneTurn s c sl k g b 0 w.prd [] [(w.sa.toNat, n)] → w.prd ≠ 8 →
       let u := laneStart s d
       let m := d.exec &&& d.keep
       let regs := (List.range n).map (· + w.sa.toNat)
       let words := popWords u d d.stack w.sa.toNat n
       d.stack + 4 * n ≤ (if d.g.trapMode then (u.nbhdOf d.g).stage.trapspill / 32 else (u.nbhdOf d.g).stage.lslice) →
       (d.g.trapMode = true → exec (.popm w) s = .next (doneLane (putStack d (d.stack + 4 * n) (u.updGroup c sl (fun h =>
         if h.trapMode then regs.foldl (fun x r => x.markFull r m) ((lanesOf m).foldl (fun x i => x.putWords i (words i)) h)
         else h.producing m regs words))) c sl k)) ∧
       (d.g.trapMode = false → popErr u d n = none → exec (.popm w) s = .next (doneLane (putStack d (d.stack + 4 * n)
         ((countErrs u (popUnits u d n (lanesOf m))).updGroup c sl (fun h =>
           if h.trapMode then regs.foldl (fun x r => x.markFull r m) ((lanesOf m).foldl (fun x i => x.putWords i (words i)) h)
           else h.producing m regs words))) c sl k))))

/-! ## Lane copies, tiles and queues (R172, R208, R209, R345, R346) -/

/-- LCPY whose counts are at most 65,536, whose sides each lie in one accepted aperture and whose copies the engines have room for adds a
copy for every executing lane with a count (R172). TDEFV whose tile word is allowed sends its definition and parks, and one whose definition is
accepted is complete; TRD empties its registers, sends its read and parks, and one whose read is served has its data on their way; a refused
operation is the word's trap; either with no executing lane does nothing (R208, R209). ENQ hands one run of all executing lanes to the queue
of its index, and ENQD one run for each distinct queue of the executing lanes whose index is enabled, the lanes ascending, after the steps of
a release where the word has one; both then park, and an index that names no queue traps before any append. The word that runs again once no
run of its split waits is complete (R345 to R347). That a wait is held as a park with its code and condition is the model's form (log 9). The
count of tile reads is log 26. -/
def Obligations.LaneMoves : Prop :=
  (∀ (s : State) (c sl k : Nat) (g : Group) (b : LaneBlock) (w : L3),
     let a := [srcA w.toLaneHead 2, srcB w.toLaneHead 2, srcC w 1]
     LaneTurn s c sl k g b 4 w.prd a [] →
     let e := laneEnv s c sl k g b w.prd a
     let i := laneIssuer (laneStart s e) e
     let l := e.acting.map (fun j => (j, e.g.vn true w.sa.toNat j, e.g.vn true w.sb.toNat j, (e.g.v w.sc.toNat j).toNat))
     (∀ x ∈ l, x.2.2.2 ≤ 65536 ∧ ({ i.p with lane := x.1 } : Party).outside apLane x.2.1 x.2.2.2 = none ∧
       ({ i.p with lane := x.1 } : Party).outside apLane x.2.2.1 x.2.2.2 = none) →
     ((laneStart s e).core c).copies.length + l.length ≤ 64 →
     exec (.lcpy w) s = .next (doneLane ((l.filter (fun x => x.2.2.2 != 0)).foldl (addLaneCopy i) (laneStart s e)) c sl k)) ∧
  (∀ (s : State) (c sl k : Nat) (g : Group) (b : LaneBlock) (w : L3) (x : TileOp),
     let tag := if g.trapMode then 1 else 0
     let t := laneWord s (w.aux.toNat % 4)
     let n := rowRegsOf w.toLaneHead t
     let a := [srcA w.toLaneHead n]
     let e := laneEnv s c sl k g b w.prd a
     let pair := isPair w.fmt
     let r := [srcA w.toLaneHead 1, srcB w.toLaneHead 1]
     let d := laneEnv s c sl k g b w.prd r
     let regs := if pair then [w.dst.toNat, w.dst.toNat + 1] else [w.dst.toNat]
     let at' (i : Nat) : Nat × Nat := ((d.g.v w.sa.toNat i).toNat, (d.g.v w.sb.toNat i).toNat)
     let waits (u : State) (m : W32) (nb : Nat) (o : TileOp) : Host.Outcome State Fault Refusal :=
       .next (updSplit (sendTileOp (updSplit u c sl k (fun y => { y with unfinished := some m })) nb o) c sl k
         (fun y => { y with park := some ⟨5, .tile nb (t % 4096)⟩ }))
     let nbOf (e : LaneEnv) : Nat := ((laneStart s e).blockOf e.g).nb
     (w.sa.toNat + n ≤ laneVregs s → shapeBad t = false → LaneTurn s c sl k g b 2 w.prd a [] →
       (e.exec &&& e.keep = 0 → exec (.tdefv w) s = .next (doneLane (laneStart s e) c sl k)) ∧
       (e.exec &&& e.keep ≠ 0 → tileRows t ≤ 32 → tilePair (tileFmt t) w.mfmt.toNat w.fmt.toNat = true →
         tileOf (laneStart s e) (nbOf e) (.split c sl k) tag = some x → x.st = 2 →
         exec (.tdefv w) s = .next (doneLane (dropTileOp (laneStart s e) (nbOf e) x.id) c sl k)) ∧
       (e.exec &&& e.keep ≠ 0 → tileRows t ≤ 32 → tilePair (tileFmt t) w.mfmt.toNat w.fmt.toNat = true →
         tileOf (laneStart s e) (nbOf e) (.split c sl k) tag = none →
         exec (.tdefv w) s = waits (laneStart s e) (e.exec &&& e.keep) (nbOf e)
           { id := 0, strm := .split c sl k, tag, kind := 1, word := t,
             value := lanesValue w.toLaneHead (modeNoRsr w.rm (b.at k).fmtr) ((b.at k).fmtr.getLsbD 14) e t }) ∧
       (e.exec &&& e.keep ≠ 0 → tileRows t ≤ 32 → tilePair (tileFmt t) w.mfmt.toNat w.fmt.toNat = true →
         tileOf (laneStart s e) (nbOf e) (.split c sl k) tag = some x → x.st = 3 →
         exec (.tdefv w) s = .next (raise (dropTileOp (laneStart s e) (nbOf e) x.id) c sl 1 k g.trapMode { x.trap with mask := e.exec &&& e.keep }))) ∧
     (LaneTurn s c sl k g b 2 w.prd r [(w.dst.toNat, regs.length)] →
       (d.exec &&& d.keep ≠ 0 → tileOf (laneStart s d) (nbOf d) (.split c sl k) tag = none →
         exec (.trd w) s = waits ((laneStart s d).updGroup c sl (fun h => regs.foldl (fun h y => h.markEmpty y (d.exec &&& d.keep)) h))
           (d.exec &&& d.keep) (nbOf d)
           { id := 0, strm := .split c sl k, tag, kind := 0, word := t, n := d.acting.length, dst := w.dst.toNat,
             pitch := regs.length, fmts := (w.fmt.toNat, w.mfmt.toNat), cells := d.acting.map (fun i => (i, at' i)) }) ∧
       (d.exec &&& d.keep ≠ 0 → tileOf (laneStart s d) (nbOf d) (.split c sl k) tag = some x → x.st = 3 →
         exec (.trd w) s = .next (raise ((dropTileOp (laneStart s d) (nbOf d) x.id).updGroup c sl
           (fun h => regs.foldl (fun h y => h.markFull y (d.exec &&& d.keep)) h)) c sl 1 k g.trapMode
           { x.trap with mask := if x.trap.mask = 0 then d.exec &&& d.keep else x.trap.mask })) ∧
       (d.exec &&& d.keep = 0 → exec (.trd w) s = .next (doneLane (laneStart s d) c sl k)) ∧
       (d.exec &&& d.keep ≠ 0 → tileOf (laneStart s d) (nbOf d) (.split c sl k) tag = some x → x.st = 2 →
         exec (.trd w) s = .next (doneLane (setTileOp (laneStart s d) (nbOf d) { x with st := 4, data := x.cells.map (fun y =>
           { lane := y.1, regs := regWords pair w.dst.toNat (trdValue w.toLaneHead x.shape x.value y.2.1 y.2.2) }) }) c sl k)))) ∧
  (∀ (s : State) (c sl k : Nat) (g : Group) (b : LaneBlock) (w : L3),
     let a := [srcA w.toLaneHead 16]
     let a2 := [srcA w.toLaneHead 16, srcB w.toLaneHead 1]
     let told (e : LaneEnv) : State := { laneStart s e with runs := (laneStart s e).runs.filter (fun x => !(x.strm == some e.runner)) }
     let quiet (e : LaneEnv) : Prop := ∀ x ∈ s.runs, x.strm = some e.runner → x.done = true
     let sig (v : State) : BitVec 512 := if w.ord = 2 then (v.core c).sig else 0
     let begun (e : LaneEnv) (v : State) : Prop := if w.ord = 2 then releaseSteps (laneStart s e) c sl w.obs.toNat = .ok v else v = laneStart s e
     let send (e : LaneEnv) (sg : BitVec 512) (v : State) (x : Nat × List Nat) : State :=
       sendRun v
                 { id := 0, part := ((laneStart s e).nbhdOf e.g).part, queue := x.1, recs := x.2.map (recordOf e.g w.sa.toNat), strm := some e.runner,
                   cmd := none, rel := if w.ord = 2 then some c else none, sig := sg, whos := x.2.map (fun i => ((laneIssuer v e).who i).later v) }
     let away (e : LaneEnv) (v : State) : State := if w.ord = 2 then releaseBit v c sl else v
     let parks (e : LaneEnv) (v : State) (q : Nat) : Host.Outcome State Fault Refusal :=
       .next (updSplit (updSplit v c sl k (fun x => { x with unfinished := some (e.exec &&& e.keep) })) c sl k
         (fun x => { x with park := some ⟨11, .queue ((laneStart s e).nbhdOf e.g).part q⟩ }))
     let noQueue (e : LaneEnv) : Host.Outcome State Fault Refusal :=
       .next (raise (laneStart s e) c sl 1 k g.trapMode { cause := 0x48, info := 1, mask := e.exec &&& e.keep })
     (LaneTurn s c sl k g b 2 w.prd a [] →
       let e := laneEnv s c sl k g b w.prd a
       let j := e.w (w.aux.toNat % 4) % 8
       e.acting ≠ [] → (∀ x ∈ s.runs, x.strm ≠ some e.runner) →
       (∀ q v, outQueue (laneStart s e) e j = some q → begun e v → exec (.enq w) s = parks e (send e (sig v) (away e v) (q, e.acting)) q) ∧
       (outQueue (laneStart s e) e j = none → exec (.enq w) s = noQueue e)) ∧
     (LaneTurn s c sl k g b 2 w.prd a2 [] →
       let e := laneEnv s c sl k g b w.prd a2
       let j (i : Nat) : Nat := (e.g.v w.sb.toNat i).toNat % 8
       let on := e.acting.filter (fun i => (BitVec.ofNat 8 (e.w (w.aux.toNat % 4))).getLsbD (j i))
       (∀ x ∈ s.runs, x.strm ≠ some e.runner) →
       (on = [] → exec (.enqd w) s = .next (doneLane (laneStart s e) c sl k)) ∧
       (∀ (q : Nat → Nat) (v : State), on ≠ [] → (∀ i ∈ on, outQueue (laneStart s e) e (j i) = some (q i)) → begun e v →
         let runs := byQueue (on.map (fun i => (i, q i)))
         exec (.enqd w) s = parks e (runs.foldl (send e (sig v)) (away e v)) ((runs.head?.map (·.1)).getD 0)) ∧
       ((∃ i ∈ on, outQueue (laneStart s e) e (j i) = none) → exec (.enqd w) s = noQueue e)) ∧
     ((∃ x ∈ s.runs, x.strm = some (laneEnv s c sl k g b w.prd a).runner) →
     (LaneTurn s c sl k g b 2 w.prd a [] → quiet (laneEnv s c sl k g b w.prd a) →
       exec (.enq w) s = .next (doneLane (told (laneEnv s c sl k g b w.prd a)) c sl k)) ∧
     (LaneTurn s c sl k g b 2 w.prd a2 [] → quiet (laneEnv s c sl k g b w.prd a2) →
       exec (.enqd w) s = .next (doneLane (told (laneEnv s c sl k g b w.prd a2)) c sl k))))

/-! ## Lane control flow (R326 to R334, R339) -/

/-- BRA that every lane of its split takes goes to its target, and one that none takes to the next word; one that some take diverges with a
join, or goes to the next word where that is its target (R326, R339). In trap mode one that some take is a double trap (R370); that its cause is
SPLIT_STACK_OVERFLOW with subcode 1 is the model's choice (log 61). -/
def Obligations.LaneBranches : Prop :=
  ∀ (s : State) (c sl k : Nat) (g : Group) (b b' : LaneBlock) (w : LI) (pc' : W32),
    LaneTurn s c sl k g b 0 w.prd [] [] →
    let e := laneEnv s c sl k g b w.prd []
    let pc := (b.at k).pc
    let goes (s : State) (pc : W32) : Host.Outcome State Fault Refusal :=
      .next (settleLanes (updSplit s c sl k (fun x => { x with pc, park := none, unfinished := none, rel := false })) c sl)
    let x := pc + (w.imm.extractLsb' 16 16).signExtend 32
    let j := pc + (w.imm.extractLsb' 0 16).setWidth 32
    ((b.at k).mask &&& ~~~e.exec = 0 → exec (.bra w) s = goes (laneStart s e) x) ∧
    ((b.at k).mask &&& ~~~e.exec ≠ 0 → e.exec = 0 → exec (.bra w) s = goes (laneStart s e) (pc + 1)) ∧
    ((b.at k).mask &&& ~~~e.exec ≠ 0 → e.exec ≠ 0 → g.trapMode = false → x = pc + 1 → exec (.bra w) s = goes (laneStart s e) (pc + 1)) ∧
    ((b.at k).mask &&& ~~~e.exec ≠ 0 → e.exec ≠ 0 → g.trapMode = false → x ≠ pc + 1 → diverge e.block k e.exec x (pc + 1) j = .ok (b', pc') →
      exec (.bra w) s = goes (putLanesBlock e b' (laneStart s e)) pc') ∧
    ((b.at k).mask &&& ~~~e.exec ≠ 0 → e.exec ≠ 0 → g.trapMode = true →
      exec (.bra w) s = .next (raise (laneStart s e) c sl 1 k true (overflow 1 e.exec)))

/-- LCALL that every lane takes pushes a CALL entry and goes to its target, and LRET pops one and goes back; LEXIT removes its lanes from
LIVE and from its split (R329, R332). LEND, WIDE and ENDW park their split until every valid split stands at the word, and then end the lane
block, begin the wide region or end it (R330, R333, R334). That a wait is held as a park with its code and condition is the model's form
(log 9). -/
def Obligations.LaneCallsAndEnds : Prop :=
  (∀ (s : State) (c sl k : Nat) (g : Group) (b : LaneBlock) (w : LI) (v : L3) (top : StackEntry) (rest : List StackEntry),
     let e := laneEnv s c sl k g b w.prd []
     let d := laneEnv s c sl k g b 0 []
     let f := laneEnv s c sl k g b v.prd []
     let pc := (b.at k).pc
     let goes (s : State) (pc : W32) : Host.Outcome State Fault Refusal :=
       .next (settleLanes (updSplit s c sl k (fun x => { x with pc, park := none, unfinished := none, rel := false })) c sl)
     (LaneTurn s c sl k g b 0 w.prd [] [] → (b.at k).mask &&& ~~~e.exec = 0 → e.exec ≠ 0 → (b.at k).stack.length < 16 →
       exec (.lcall w) s = goes (putLanesBlock e (e.block.set k { e.block.at k with stack :=
         { call := true, pc := pc + 1, mask := (e.block.at k).mask, fmtr := (e.block.at k).fmtr, ssp := (e.block.at k).ssp, rpc := 0, jid := (e.block.at k).jid } ::
           (e.block.at k).stack }) (laneStart s e)) (pc + w.imm)) ∧
     (LaneTurn s c sl k g b 0 w.prd [] [] → e.exec = 0 → exec (.lcall w) s = goes (laneStart s e) (pc + 1)) ∧
     (LaneTurn s c sl k g b 0 0 [] [] → (b.at k).stack = top :: rest → top.call = true → top.jid = (b.at k).jid →
       exec .lret s = goes (updSplit (laneStart s d) c sl k (fun x => { x with stack := rest })) top.pc) ∧
     (LaneTurn s c sl k g b 0 v.prd [] [] → v.prd ≠ 8 → f.block.wide = none → (b.at k).mask &&& ~~~f.exec ≠ 0 →
       exec (.lexit v) s = .next (doneLane (updSplit ((laneStart s f).updGroup c sl (fun h => { h with live := h.live &&& ~~~f.exec })) c sl k
         (fun x => { x with mask := (b.at k).mask &&& ~~~f.exec })) c sl k))) ∧
  (∀ (s : State) (c sl k : Nat) (g : Group) (b : LaneBlock),
     LaneTurn s c sl k g b 0 0 [] [] →
     let d := laneEnv s c sl k g b 0 []
     let waits (s : State) (kind : Nat) : Host.Outcome State Fault Refusal :=
       .next (settleLanes (updSplit s c sl k (fun x => { x with park := some ⟨4, .splits kind⟩, unfinished := none })) c sl)
     (d.block.wide = none → dropCalls (b.at k).stack = [] → exec .lend s = waits (updSplit (laneStart s d) c sl k (fun x => { x with stack := [] })) 0) ∧
     (d.block.wide = none → exec .wide s = waits (laneStart s d) 1) ∧
     (d.block.wide.isSome = true → exec .endw s = waits (laneStart s d) 2))

/-! ## Events: waits, producers, faults, caches (R14, R69, R87, R123, R125, R126, R137, R140, R160, R215, R320) -/

/-- The end of a wait that has ended, of a stream that no debugger holds; a request refused by a full wait list, sent again after its
64 clocks; the write of a producer, the start of a lane block, and the seeds and ways that a SYSW at its place
writes (R14, R69, R125, R137, R160, R215, R320). A fault that the service passes to the driver raises vector 1; one that it resolves leaves
its list and what it held goes on; a fatal one becomes the trap of its stream, or the failure of its copy (R87). The events without words
and what they bring are the model's form (logs 1, 7). How a load waits is log 10. -/
def Obligations.StreamEvents : Prop :=
  (∀ (s : State) (g : Group) (x : Producer) (q : QueueEntry) (l : List QueueEntry) (w : WaitCond) (r n c sl k i due : Nat) (y : Nat × Nat × Group × BitVec 6),
     let here := s.group? s.input.core s.input.slot
     (parkOf s s.input.stream = some ⟨r, w⟩ → frozen s s.input.stream = false → condMet s s.input.stream w = true →
       exec .parkResume s = .next (unpark s s.input.stream)) ∧
     (parkOf s s.input.stream = some ⟨r, .requests n⟩ → frozen s s.input.stream = false → condMet s s.input.stream (.requests n) = true →
       exec .requestTableGrant s = .next (unpark s s.input.stream)) ∧
     (s.input.stream = .split c sl k → parkOf s s.input.stream = some ⟨r, .granule n i due⟩ → due ≤ s.clock →
       frozen s s.input.stream = false → exec .waitlistResend s = .next (unpark s s.input.stream)) ∧
     (here = some g → g.prod[s.input.idx]? = some x →
       exec .producerWrite s = .next (s.setGroup s.input.core s.input.slot (({ g with prod := dropAt g.prod s.input.idx } : Group).produce x))) ∧
     (here = some g → g.trapMode = false → g.lb = none → g.dq = q :: l → g.live ≠ 0 →
       exec .laneBlockStart s = .next (s.setGroup s.input.core s.input.slot
         { g with dq := l, lb := some (freshBlock q.target g.live q.fmtr g.ssp q.ws) })) ∧
     (atSysw 0x020 s = some y → exec .srseedWrite s =
       .next ((seedWrite s y.1 y.2.1 (y.2.2.1.reg y.2.2.2).toNat).updGroup y.1 y.2.1 (fun g => { g with arrived := some 1 }))) ∧
     (atSysw 0x043 s = some y → exec .rlwaysWrite s = .next (rlwaysWrite s (dieOf y.1) (y.2.2.1.reg y.2.2.2).toNat))) ∧
  (∀ (s : State) (f : Nat × FaultRec),
     s.faults.find? (fun f => f.1 == s.input.x) = some f →
     let u := dropFault s f.1
     (s.input.op = 1 → exec .faultResolved s = .next (raiseVector s (partOfFault s f) 1)) ∧
     (s.input.op ≠ 1 → f.2.kind < 4 → exec .faultResolved s = .next (unheld u f.1 f.2.stream)) ∧
     (s.input.op ≠ 1 → f.2.kind = 4 → exec .faultResolved s = .next (updCopy u (coreOf f.2.stream) f.2.ref (fun x => { x with held := none }))) ∧
     (f.2.kind < 4 → s.input.ok = false → exec .faultFatal s = .next (fatalTrap u f)) ∧
     (f.2.kind = 4 → s.input.ok = false →
       exec .faultFatal s = .next (updCopy u (coreOf f.2.stream) f.2.ref (fun x => { x with held := none, fail := some f.2.info }))))

/-- A line of an L1 written back in its place, a fill that returns to its core, and a line of the remote-line partition whose age has
expired, which is sent to its target (R123, R126, R137, R140). A fill that its home holds takes its place there once (R308, log 6); of
one from this module's memory the corrected errors are counted, and a line that fails its check is not allocated (R110, R111); one from a
peer that fails its check ends the loads that wait for it with DATA_INTEGRITY (R111). The events without words and what they bring are
the model's form (logs 1, 7). -/
def Obligations.CacheEvents : Prop :=
  ∀ (s : State) (l : L1Line) (f : Fill) (y : RemoteLine) (byte : Nat → Byte),
    let c := s.input.core
    ((s.core c).l1.get? s.input.addr = some l →
      exec .maskedWriteback s = .next (if s.input.ok then invalidateLine c s.input.addr s else writeBack c s.input.addr s).2) ∧
    (s.fills.find? (fun f => f.core == c && f.line == s.input.addr) = some f →
      let v := leavePlaces { s with fills := s.fills.erase f } (.fill c f.line)
      let w := countErrs v (lineUnits v c f.line)
      let u := if f.noAlloc || (errIn w (lineUnits v c f.line)).isSome then w else fillLine w c f.line byte
      (∀ k, fillHeld s f = some k → exec .fillReturn s = .next (if fillPlaced s f then s else joinPlace k (.fill c f.line) 0 s)) ∧
      (fillHeld s f = none → fillBytes s f = some byte →
        (f.line < 2 ^ 58 → exec .fillReturn s = .next (feedLoads u c f.line (lineByte u c f.line) (lineBad v c f.line))) ∧
        (2 ^ 58 ≤ f.line → s.input.ok = true →
          exec .fillReturn s = .next (feedLoads (if f.noAlloc then v else fillLine v c f.line byte) c f.line byte)) ∧
        (2 ^ 58 ≤ f.line → s.input.ok = false →
          exec .fillReturn s = .next (failLoads v c (Load.without (integrity s.input.op 0) (fun b => b.line == f.line && b.got.isNone)))))) ∧
    ((s.die s.input.die).rlines.get? s.input.x = some y → s.input.ok = false → y.dirty ≠ 0 → y.since + 16384 ≤ s.clock →
      exec .remoteLineAgeExpiry s = .next (sendLine s s.input.die s.input.x))

/-! ## Events: the Sinter engine and saves (R307 to R314, R372) -/

/-- What the Sinter engine ends: a merge keeps the entries of its level that the parent has none of, a rejection writes every entry back last
first with its tag, a growth moves the pool, a sweep and a definition clear the region's tags; each leaves the region idle (R307, R308,
R310, R311, R314). The agent of the anchor core takes PREEMPT first; a save that then finds its neighbourhood ready is done, and the
sequencers without a safe point after 2^20 clocks are those that are saved whole (R372, Table 17-2). The events without words and what
they bring are the model's form (logs 1, 7). The restore record is log 21. -/
def Obligations.RegionAndSaveEvents : Prop :=
  (∀ (s : State) (r : Region),
     s.regions.get? s.input.x = some r →
     let es := Region.entries s r
     let kept := es.filter (fun e => decide (e.2.1 < r.parentEpoch))
     let grown := putEntries s r.newPages 0 ((List.range r.n).map (poolEntry s r.poolPages))
     (r.st = 2 → exec .sinterMergeDone s = .next (idleAgain (putEntries s r.poolPages r.start kept) s.input.x (fun r' =>
       { r' with n := r'.start + kept.length, depth := r'.depth - 1, levels := r'.levels.dropLast, exhausted := false }))) ∧
     (r.st = 1 → exec .sinterRestoreDone s = .next (idleAgain (addRegion (es.foldr restoreEntry s) r) s.input.x (fun r' =>
       { r' with n := r'.start, depth := r'.depth - 1, levels := r'.levels.dropLast, exhausted := false }))) ∧
     (r.st = 4 → exec .sinterGrowDone s = .next (idleAgain { grown with pageMap := grown.pageMap.keep (fun p _ =>
       !(r.poolPages.contains p && !r.newPages.contains p)) } s.input.x (fun r' =>
       { r' with pool := r'.newPool, pent := r'.newPent, poolPages := r'.newPages, newPool := 0, newPent := 0, newPages := [], exhausted := false }))) ∧
     (r.st = 3 → exec .sinterSweepDone s = .next (idleAgain (clearTags s r) s.input.x (fun r' => { r' with e := 0 }))) ∧
     (r.st = 5 → exec .snapdefTagsDone s = .next (idleAgain (clearTags s r) s.input.x (fun r' => r')))) ∧
  (∀ (s : State) (o : SaveOp) (n : Nbhd),
     savingOp s s.input.x = some o → s.nbhd? o.nb = some n →
     (o.taken = false → exec .preempt s = .next (preemptTrap s o)) ∧
     (o.taken = true → saveReady (settleCores s o.nb) o.nb o.late = true → exec .preempt s = .next (saveNow (settleCores s o.nb) o n)) ∧
     (o.taken = true → saveReady (settleCores s o.nb) o.nb o.late = false → exec .preempt s = .next (settleCores s o.nb)) ∧
     (let late := ((nbList s o.nb).filter (fun b => (b.2.seq.map (fun q => !seqSaved q false)).getD false)).map (·.1)
      o.since + 2 ^ 20 ≤ s.clock → late ≠ [] → exec .sequencerSaveTimeout s =
        .next { s with saveOps := s.saveOps.map (fun x => if x.id = o.id then { x with late := (x.late ++ late).dedup } else x) }))

/-! ## Events: the tile file (R190 to R202) -/

/-- The home judges an operation after the earlier ones of its stream on that name, and takes it behind those it has taken; a definition
whose bytes are there becomes DEFINED, and one whose copy failed becomes EMPTY; a served lane read reaches its registers; a kill takes
effect once the earlier reads are complete, with the next generation; a value moves where there is room (R190 to R196, R202). A
neighbourhood in which every stream has waited on tiles for 16,384 clocks, and that no debugger has stopped: each parked operation that a
party of it waits for becomes a trap TILE_DEADLOCK, which waits for RFT where a handler interrupted the party (R201, R367). The events
without words and what they bring are the model's form (logs 1, 7). -/
def Obligations.TileEvents : Prop :=
  (∀ (s : State) (n : Nbhd) (o : TileOp) (y : Nat × Copy) (c sl k : Nat),
     s.nbhd? s.input.idx = some n →
     let nb := s.input.idx
     let name := s.input.x % 4096
     let t := n.tiles.getD name {}
     (n.ops.find? (fun o => o.id == s.input.x) = some o → o.st = 0 →
       (∀ p ∈ n.ops.takeWhile (fun p => p.id != o.id), p.strm = o.strm → p.word % 4096 = o.word % 4096 → p.st ≠ 0) →
       let r := judge s n o
       exec .tileOpAccept s = .next (judged (s.updNbhd nb (fun n => { r.1 with ops := n.ops.filter (fun p => p.id != o.id) ++ [r.2] })) nb)) ∧
     (t.st = 1 → t.value ≠ [] →
       exec .tileDefined s = .next (changeName s nb name (fun x => { x with st := 2, place := placeFor s n t }))) ∧
     (t.st = 1 → t.value = [] → defCopy s nb name = some y → y.2.moved = true → y.2.fail = none →
       exec .tileDefined s = .next (updCopy (changeName s nb name (fun x => { x with st := 2, value := y.2.data, place := placeFor s n t })) y.1 y.2.id
         (fun z => { z with waiting := 0 }))) ∧
     (t.st = 1 → defCopy s nb name = some y → y.2.fail ≠ none →
       exec .tileDefineFail s = .next (updCopy (changeName s nb name (fun x => { x with st := 0, word := 0 })) y.1 y.2.id (fun z => { z with waiting := 0 }))) ∧
     (n.ops.find? (fun o => o.id == s.input.x) = some o → o.st = 4 → o.strm = .split c sl k →
       exec .tileReadComplete s = .next ((dropTileOp s nb o.id).updGroup c sl (fun g => o.data.foldl Group.produce g))) ∧
     (t.st = 2 → t.kill = true → (∀ p ∈ n.ops, p.kind = 0 → p.counted = true → p.word % 4096 = name → p.late = true) →
       exec .tileKillEffect s = .next (changeName s nb name (fun x => { gen := (x.gen + 1) % 16 }))) ∧
     (t.st = 2 → s.input.op = 3 ∨ s.input.op = 4 →
       exec .tilePlacementMove s = .next (s.updNbhd nb (fun m =>
         { m with tiles := m.tiles.set name { t with place := s.input.op, core := s.input.core } })))) ∧
  (∀ (s : State) (n : Nbhd),
     s.nbhd? s.input.idx = some n → 16384 ≤ n.stuckFor → tileStuck s s.input.idx n = true → nbStopped s s.input.idx = false →
     exec .tileDeadlock s = .next (judged (s.updNbhd s.input.idx (fun m => { m with stuckFor := 0, ops := m.ops.map (fun o =>
       if partyAwaits s s.input.idx o then { o with st := 3, counted := false, trap := { cause := 0x32, info := BitVec.ofNat 64 (o.word % 65536) } } else o) }))
       s.input.idx))

/-! ## Events: the copy engines and the matrix units (R164 to R166, R174, R182, R205, R261) -/

/-- An engine begins a copy that nothing ahead of it in its queue holds up, and a TRDS once its read is served, or fails with it; it moves
one unit of a row copy from the bytes that it read to the places that it checked; a copy whose rows are moved and placed, or that failed,
leaves the engine and its batch takes the failure (R164 to R168, R174, R175, R205). The fetcher delivers elements of a stream, and a unit
finishes the first word in flight, and what they free goes on; a trap of a later word that waited for the last word in flight is taken
(R182, R259, R261). The events without words and what they bring are the model's
form (logs 1, 7). -/
def Obligations.EngineEvents : Prop :=
  ∀ (s u v : State) (x : Copy) (bs : List Byte) (hops : List Hop) (y : Block) (q : Seq) (f : Flight) (fs : List Flight),
    let c := s.input.core
    let b := c * 8 + s.input.idx % 8
    let k := s.input.x % 8
    (copyOf s c s.input.x = some x →
      (x.started = false →
        (∀ z ∈ (s.core c).copies.takeWhile (fun z => z.id != x.id), z.eng = x.eng → holdsUp s c z = false) →
        (x.kind ≠ 4 → exec .copyStart s = .next (updCopy s c x.id (fun z => { z with started := true }))) ∧
        (∀ o, x.kind = 4 → tileOpOf s c x = some o →
          (o.st = 2 → exec .copyStart s = .next (updCopy s c x.id (fun z => startTile (copyParty s c x) z o))) ∧
          (o.st = 3 → exec .copyStart s = .next (updCopy s c x.id (fun z => { z with started := true, fail := some o.trap }))))) ∧
      (x.started = true → x.held = none → x.fail = none → x.moved = false → x.kind = 1 →
        engineRead s c x ((x.from' + x.off) % 2 ^ 64) (x.unit s) (x.ahead (x.unit s)) = .bytes u bs →
        sidePlaces s (copyParty s c x) .write ((x.to + x.off) % 2 ^ 64) (x.unit s) (x.ahead (x.unit s)) = .ok hops →
        engineWrite (keepLeaves u (copyParty s c x) hops) c x hops bs = .ok v →
        exec .copyUnitWrite s = .next (updCopy v c x.id (fun z => z.advance (x.unit s)))) ∧
      (x.started = true → x.waiting = 0 → unsent s x = false → (x.moved = true ∨ x.fail.isSome = true) → x.kind ≠ 4 →
        exec .copyComplete s = .next ((({ s with
          requests := s.requests.filter (fun r => !(r.core == c && r.slot == 49 && r.split == x.id && (r.strong || r.kind == 4))) } : State).updCore c
            (fun k => { k with copies := k.copies.filter (fun z => z.id != x.id) })).updGroup c x.slot (fun g => g.copyEnds x.batch x.fail)))) ∧
    (s.block? b = some y → y.seq = some q →
      ((y.streams.getD k {}).feed ≠ [] → exec .fetcherDeliver s = .next (drainNow (deliverSome s b k s.input.len) b)) ∧
      (q.stopped = false → q.flights = f :: fs → f.complete = true → f.unit = s.input.unit →
        exec .matrixUnitComplete s = .next (pendNow (drainNow (updSeq s b (fun z => { z with flights := fs })) b) b)))

/-! ## Events: queues, forwarding and summaries (R102, R347, R348, R350, R357) -/

/-- A run finds room or none by the rule of R347; a run that finds it is appended at its home, or entered in its outbound queue, and its
split goes on; a forwarded record is appended and acknowledged, or answered RETRY; record RTAIL moves from the spill to the ring; a port
sends one record of the outbound queue with the largest positive differential, where no port after it in the order has decided in this
clock; a record of a run with `.rel` carries its signature, which is deposited on the header's line (R349); summaries go to every die of
the partition and a peer's summary resets what was forwarded since; an arrival of a peer counts at a `.pod` barrier (R102, R336, R347,
R348, R350, R357). The events without words and what they bring are the model's form (logs 1, 7). The arrival of a peer is log 46. -/
def Obligations.QueueEvents : Prop :=
  ∀ (s u : State) (x : Run) (q : Queue) (p : Part) (l : Link) (d : Int) (key : Nat) (o : Outbound) (r : Nat × BitVec 512 × Option (BitVec 512))
    (rest : List (Nat × BitVec 512 × Option (BitVec 512))),
    let i := s.input
    (∀ hdr recs peer whos, appendRun s hdr recs peer whos = none ↔ (qhdr s hdr).room < recs.length) ∧
    (s.runs.find? (fun y => y.id == i.x && !y.done) = some x → firstRun s x = true → queueOf s x.part x.queue = some q →
      (q.here s = true → appendRun s q.hdr x.recs false x.whos = some u → exec .runAppend s = .next (runAdmitted (runDeposit u q.hdr x) x)) ∧
      (q.here s = false →
        let o := outboundOf s x.part q.dev x.queue
        let o' : Outbound := { o with recs := o.recs ++ x.recs.map (fun r => (s.clock, r, x.rel.map (fun _ => x.sig))) }
        let t : State := { s with outbound := s.outbound.set (outKey x.part q.dev x.queue) o' }
        o.recs.length + x.recs.length ≤ 4096 →
        exec .runAppend s = .next (runAdmitted (match x.rel with
          | none => t
          | some c => clearSig t c) x))) ∧
    (queueOf s i.rcd.part i.rcd.queue = some q → q.here s = true →
      (appendRun s q.hdr [pack 512 i.rcd.data] true [{ agent := 4, dev := some i.rcd.srcDev }] = some u → exec .remoteRecordArrival s =
        .next (answer (countRecord (match i.rcd.rel with
          | some v => deposit u q.hdr v
          | none => u) i.rcd.part i.rcd.queue (fun g => { g with recvd := g.recvd + 1 })) i.rcd.srcDev 0 i.x 0 [])) ∧
      (appendRun s q.hdr [pack 512 i.rcd.data] true [{ agent := 4, dev := some i.rcd.srcDev }] = none → exec .remoteRecordArrival s = .next (answer s i.rcd.srcDev 2 i.x 0 []))) ∧
    (s.part? i.part = some p → p.queues.get? i.x = some q → q.here s = true →
      let h := qhdr s q.hdr
      let more := decide (h.rtail + 1 < h.tail) && decide (h.rtail - h.head + 1 < 2 ^ h.log2)
      h.rtail < h.tail → h.rtail - h.head < 2 ^ h.log2 →
      (bit h.flags 2 = true ∨ h.rtail - h.head < 2 ^ (h.log2 - 1) ∨ dequeueStarved s p q = true) →
      exec .refillMove s = .next ((putHdr unitWho (putRecord unitWho s (h.ringAt h.rtail) (pack 512 (Memory.read s.mem (h.spillAt h.rtail).1 64))
        (Memory.le s.mem (h.spillAt h.rtail).2 8)) q.hdr { h with rtail := h.rtail + 1 }).putBy unitWho
          [(q.hdr + 45, BitVec.ofNat 8 (setBit h.flags 2 more))])) ∧
    (s.links.get? i.port = some l → l.up = true → bit l.xoff 3 = false → decidedAfter s i.port = false → pickOutbound s i.port l = some (d, key, o) → o.recs = r :: rest →
      let m : Request := { id := s.newId.1, kind := 6, dev := o.dev, core := 0, slot := 50, addr := o.queue, key := o.part, bytes := cellsAt 0 (unpack r.2.1), since := s.clock, rel := r.2.2.isSome, sig := r.2.2.getD 0, routed := true }
      let f (l : Link) : Link := { l with fwd := l.fwd.set key (l.fwd.getD key 0 + 1), decided := some s.clock }
      let t : State := { s.newId.2 with
        outbound := s.outbound.set key { o with recs := rest }
        links := s.links.modify f i.port
        requests := s.requests ++ [m] }
      exec .portForward s = .next (countRecord (pushPacket t i.port (packetOf m)) o.part o.queue (fun g => { g with sent := g.sent + 1 }))) ∧
    (s.part? i.part = some p → exec .summarySend s = .next (onDies s i.part (fun d => { d with
      summaries := ((p.queues.filter (fun q => q.2.here s)).map (fun q => (i.part * 65536 + q.1, homeSummary s p q.2))).foldl (fun m x => m.set x.1 x.2) d.summaries
      reports := (ownReports s i.part p).foldl (fun m x => m.set x.1 x.2) d.reports }))) ∧
    (i.op = 0 → queueOf s i.summary.part i.summary.queue = some q → q.here s = false → q.dev = i.summary.dev →
      exec .summaryReceive s = .next (takeSummary s i.summary)) ∧
    (i.op = 1 → exec .summaryReceive s = .next (takeReport s i.part 0 (i.x % 65536) (i.y % 16384) i.idx)) ∧
    (i.op = 2 → exec .summaryReceive s = .next (takeReport s i.part 1 (i.x % 65536) (i.y % 16384) i.idx)) ∧
    (i.op = 3 → (barEntry s i.part (barKey 4 0 (i.idx % 64))).expect ≠ 0 →
      exec .summaryReceive s = .next (barArrive s i.part (barKey 4 0 (i.idx % 64)) 0))

/-! ## Events: links, and the two ends of remote accesses (R93 to R112) -/

/-- XOFF and XON set and clear the bit of a channel and PORT_XOFF every one but ESC; the head packet of a channel whose timer has run 64 µs
moves to ESC and goes on along the tree; a flit that passes its check clears the count of failed retries and takes its place in the input
buffer, from which a packet of this module is taken and another is passed on, and one that fails raises the count, and the sixteenth takes
the link down; the escape tree is replaced (R96 to R98, R100, R101). A response ends its request, RETRY sends it again, and a request without a
response is sent again three times and then fails (R103, R104, R106, R108). The events without words and what they bring are the model's
form (logs 1, 7). The packets are log 39. -/
def Obligations.LinkEvents : Prop :=
  ∀ (s : State) (l : Link) (p : Packet) (rest : List Packet) (r : Request),
    let i := s.input
    let onPort (l : Link) : State := { s with links := s.links.set i.port l }
    let vc := i.vc % 13
    let flits := 1 + i.len % 5
    let held := Link.hold i.port vc 1 { l with fails := 0 }
    (s.links.get? i.port = some l → l.up = true →
      (i.vc < 13 → exec .xoff s = .next (onPort { l with xoff := setBit l.xoff i.vc true }) ∧
        exec .xon s = .next (onPort { l with xoff := setBit l.xoff i.vc false })) ∧
      exec .portXoff s = .next (onPort { l with xoff := l.xoff ||| 0xFFF }) ∧
      (takePacket i.vc l.queue = some (p, rest) → i.vc < 12 → l.since.getD i.vc 0 + 76800 ≤ s.clock →
        let t := onPort { l with queue := rest, since := l.since.set i.vc s.clock }
        exec .progressTimerExpiry s = .next (pushPacket t ((escapePort t p.dev).getD i.port) { p with vc := 12 })) ∧
      (i.ok = true → i.op = 0 → exec .flitReceive s = .next (onPort held)) ∧
      (i.ok = true → i.op ≠ 0 → i.x % 16384 = s.devnum.toNat → exec .flitReceive s = .next (onPort (Link.release i.port vc flits held))) ∧
      (i.ok = true → i.op ≠ 0 → i.x % 16384 ≠ s.devnum.toNat → exec .flitReceive s =
        .next (passOn (onPort held) { vc, flits, dev := i.x % 16384, ref := 0, kind := 9, inp := some (i.port, vc) })) ∧
      (i.ok = false → l.fails ≠ 16 → exec .flitReceive s = .next (onPort { l with fails := l.fails + 1 })) ∧
      (i.ok = false → l.fails = 16 → exec .flitReceive s = .next (linkDown s i.port l))) ∧
    exec .escapeTreeRebuild s = .next { s with mgmt := { s.mgmt with tree := treeOf i.nums } } ∧
    (answered s = some r →
      exec .ackReceive s = .next (acknowledged (noteEntry s r) r i.bytes) ∧
      exec .retryReceive s = .next (updRequest s r.id (fun r => { r with routed := false, left := false, since := s.clock })) ∧
      (i.y % 256 = 0 → r.kind ≠ 8 → exec .nackReceive s = .next (requestFails s r { cause := 0x20, info := BitVec.ofNat 64 (i.op % 256) }))) ∧
    (s.requests.find? (fun r => r.id == i.x && r.st == 0) = some r → r.kind ≠ 6 → r.kind ≠ 7 → r.since + 240000 ≤ s.clock →
      (r.resends < 3 → exec .resendTimerExpiry s = .next (updRequest (resend s r.id) r.id (fun r => { r with resends := r.resends + 1 }))) ∧
      (3 ≤ r.resends → exec .resendTimerExpiry s = .next (requestFails s r { cause := 0x21 })))

/-- At the target: an access outside the export range is refused and logged; a load within it reads the line at its home and answers, or
answers the error of a check that fails; a posted store is written and acknowledged, an atomic writes its new value, if any, and answers
the old one, each with the deposit of a release; it has then left the place where it waited at its home slice (R308, log 6). A segment
that fails a check of Table 5-4 gets its subcode; a segment of RMPUT in its window is placed once, the window having moved before, a
second copy of it is only acknowledged, and a close frees its channel (R103 to R107, R111, R112, R130, R303). The events without words
and what they bring are the model's form (logs 1, 7). The readings of keyed access are log 32. -/
def Obligations.TargetEvents : Prop :=
  ∀ (s u : State) (part : Nat) (k : Key) (c c' : TChan) (pas : List Nat) (sub : Nat),
    let i := s.input
    let r := i.req
    let g := i.seg
    let a := carriedAtom r.op r.x r.y
    let tk := tchanKey g.srcDev g.key
    let vc := rspOf i.vc
    let placed (u : State) : State := if r.rel then deposit u r.addr r.sig else u
    let us (l : List Nat) : List Nat := (l.map memUnit).dedup
    let lu := us ((List.range r.len).map (r.addr + ·))
    let au := us [r.addr, r.addr + a.n - 1]
    let me := fromPeer r.srcDev r.tag
    let here := leavePlaces s (.peer r.srcDev r.tag)
    let t := countErrs here au
    let old := Memory.le t.mem r.addr a.n
    (r.op ≠ 2 → exported s i.part r.addr r.len = false → exec .remoteLoadRequest s = .next (refuse s i.part r false)) ∧
    (exported s i.part r.addr r.len = false → exec .remoteStoreArrival s = .next (refuse s i.part r true)) ∧
    (r.op ≠ 2 → exported s i.part r.addr r.len = true → (∀ k < r.len, homeWaits me s (r.addr + k) false = none) → i.op ≠ 1 →
      (errIn here lu = none → exec .remoteLoadRequest s =
        .next (answerFar (countErrs here lu) r vc (Memory.read (countErrs here lu).mem r.addr r.len))) ∧
      (∀ e, errIn here lu = some e → exec .remoteLoadRequest s = .next (nack here r.srcDev r.tag 0x18 e vc))) ∧
    (exported s i.part r.addr r.len = true → i.ok = true → i.op ≠ 1 → homeAll me (peerWho r.srcDev) (byLine (storeCells r)) s = .done u →
      exec .remoteStoreArrival s = .next (answer (placed (leavePlaces u (.peer r.srcDev r.tag))) r.srcDev 0 r.tag 0 [] vc)) ∧
    (exported s i.part r.addr a.n = true → homeWaits me s r.addr false = none → homeWaits me s (r.addr + a.n - 1) false = none → i.op ≠ 1 →
      errIn here au = none →
      homeAt me (peerWho r.srcDev) r.addr (((atomNew a old).map (fun v => cellsAt r.addr (bytesOf a.n v))).getD []) t = .done u →
      exec .remoteAtomicRequest s = .next (answerFar (placed (leavePlaces u (.peer r.srcDev r.tag))) r vc (bytesOf a.n old))) ∧
    (segRefused s g = some sub → exec .rmaSegmentArrival s = .next (nack s g.srcDev g.tag 0x20 sub (if g.kind = 5 then 5 else 2))) ∧
    (segRefused s g = none → keyOf s g.key = some (part, k) → g.kind = 3 → channelFor s g = some c → c.inc = g.incarnation →
      let moved (d : TChan) (s : State) : State := { s with tchans := s.tchans.set tk d }
      (c.window g.seq = .stale → exec .rmaSegmentArrival s = .next (nack s g.srcDev g.tag 0x20 5 2)) ∧
      (c.window g.seq = .twice c' → exec .rmaSegmentArrival s = .next (answer (moved c' s) g.srcDev 0 g.tag 0 [] 2)) ∧
      (c.window g.seq = .fresh c' → i.ok = true → i.op ≠ 1 →
        let v := moved { c' with placed := c'.placed.filter (· != g.seq) } s
        segPlaces v k.ctx .write (k.vbase + g.roff) g.data.length = some pas →
        homeAll (fromPeer g.srcDev g.tag) (peerWho g.srcDev) (byLine (pas.zip g.data)) v = .done u →
        exec .rmaSegmentArrival s = .next (answer (moved c' (leavePlaces u (.peer g.srcDev g.tag))) g.srcDev 0 g.tag 0 [] 2))) ∧
    (s.tchans.get? tk = some c → c.inc = g.incarnation →
      exec .rmaChannelClose s = .next (answer { s with tchans := s.tchans.erase tk } g.srcDev 0 g.tag 0 [] 8))

/-! ## Events: the host (R300, R341, R362 to R365, R380 to R386, R391 to R395) -/

/-- From step 5 of start-up on, a posted write of the host within its ranges, on a channel that holds nothing before it, is performed at its
home, or held where its region has no room; one outside the ranges is dropped, counted and logged; a read answers the bytes, a register
of the control window, the write pointer of a user queue or the boot status word; an atomic answers the old value; a compare and swap
that does not match is a write of no bytes; before that step reads and atomics end in an error completion. A write of the control window
sets its register, a reset of a partition begins and then ends (log 61), a pending vector goes out when it may, and host memory accepts a
write, whose line is then clean (R121, R300, R303, R306, R380, R381, R383, R386, R388). The events without words and what they bring are
the model's form (logs 1, 7). Host memory and the numbers of the window are logs 6 and 17. -/
def Obligations.HostAccesses : Prop :=
  ∀ (s u : State) (p : Part) (q : UQ) (w : Nat × Nat × Nat),
    let i := s.input
    let done (data : List Byte) (s : State) : State := completion s i.x data
    let a := carriedAtom i.op i.y i.value.toNat
    let old := Memory.le s.mem i.addr a.n
    (5 ≤ s.mgmt.step →
      (i.op ≠ 1 → i.op ≠ 2 → channelOpen s i.port = true → inRanges s i.part i.addr i.bytes.length = true →
        (homeAll (fromHost i.port) hostWho (byLine (cellsAt i.addr i.bytes)) s = .done u →
          exec .hostWrite s = .next (leavePlaces u (.host i.port))) ∧
        (∀ k, homeAll (fromHost i.port) hostWho (byLine (cellsAt i.addr i.bytes)) s = .noRoom k u →
          let v := exhaust (leavePlaces u (.host i.port)) k
          exec .hostWrite s = .next { v with hostHeld := v.hostHeld.set i.port (0, i) })) ∧
      (i.op ≠ 1 → i.op ≠ 2 → channelOpen s i.port = true → inRanges s i.part i.addr i.bytes.length = false → exec .hostWrite s =
        .next (logError (s.updPart i.part (fun p => { p with dropped := p.dropped + 1 })) i.part 8 0 0 none (homeDie i.addr) i.addr 0)) ∧
      (i.op ≠ 1 → i.op ≠ 2 → i.op ≠ 3 → channelOpen s i.port = true → inRanges s i.part i.addr i.len = true →
        (∀ k < i.len, homeWaits (fromHost i.port) s (i.addr + k) false = none) →
        let v := leavePlaces s (.host i.port)
        let us := ((List.range i.len).map (fun k => memUnit (i.addr + k))).dedup
        (errIn v us = none → exec .hostRead s = .next (done (Memory.read v.mem i.addr i.len) (countErrs v us))) ∧
        (errIn v us ≠ none → exec .hostRead s = .next (errorCompletion (countErrs v us) i.x))) ∧
      (i.op = 1 → channelOpen s i.port = true → exec .hostRead s = .next (done (bytesOf 8 (controlRead s i.part i.idx)) s)) ∧
      (i.op = 3 → channelOpen s i.port = true → s.part? i.part = some p → uqNow s (i.addr / 8) = some q → i.addr % 8 = 0 →
        p.desc.uqlo ≤ i.addr / 8 → i.addr / 8 ≤ p.desc.uqhi → exec .hostRead s = .next (done (bytesOf 8 q.wr) s)) ∧
      (channelOpen s i.port = true → inRanges s i.part i.addr a.n = true →
        homeAt (fromHost i.port) hostWho i.addr (((atomNew a old).map (fun v => cellsAt i.addr (bytesOf a.n v))).getD []) s = .done u →
        exec .hostAtomic s = .next (done (bytesOf a.n old) (leavePlaces u (.host i.port)))) ∧
      (channelOpen s i.port = true → i.op = 0 → s.part? i.part = some p →
        exec .controlWindowWrite s = .next (s.updPart i.part (fun p => { p with ridx := i.nums.getD 0 0 }))) ∧
      (channelOpen s i.port = true → i.op = 18 → s.part? i.part = some p → exec .controlWindowWrite s = .next (s.updPart i.part (fun p => { p with domain := i.nums })))) ∧
    (s.mgmt.step < 5 →
      (i.op ≠ 2 → exec .hostRead s = .next (errorCompletion s i.x)) ∧
      exec .hostAtomic s = .next (errorCompletion s i.x)) ∧
    (i.op = 2 → exec .hostRead s = .next (done (bytesOf 8 (s.mgmt.step + 256 * s.mgmt.failure)) s)) ∧
    (s.part? i.part = some p →
      (p.resetting = false → exec .partitionReset s = .next (resetPartition s i.part)) ∧
      (p.resetting = true → exec .partitionReset s = .next (finishReset s i.part))) ∧
    (s.part? i.part = some p →
      let v := i.idx % 64
      let ctl := Memory.le s.mem (vectorAt s i.part v + 12) 4
      bit ctl 0 = true → bit ctl 1 = true → bit p.inflight v = false → hostPending s i.part = false →
      exec .vectorPendingSend s = .next (sendVector (s.putOwn (cellsAt (vectorAt s i.part v + 12) (bytesOf 4 (setBit ctl 1 false)))) i.part v)) ∧
    (s.hostWrites.find? (fun h => h.1 == i.x) = some w → w.2.1 < 10 ^ 6 →
      let t : State := { s with hostWrites := s.hostWrites.filter (fun x => x.1 != w.1) }
      exec .acceptedByHostMemory s = .next (if isHbm w.2.2 then t else updL2 t (w.2.2 / 256) (fun l => { l with dirty := 0 })))

/-- DBGEN is bit 0 of what is written; a stop halts the streams of its blocks, a dump is written once they have stopped, a step lets one
group of a stopped block issue one instruction, and a resume lets what was halted go on (R392, R393). A sample of a core takes the next member
of its rotation, the lowest where none is left, and puts the record of Table 19-5 into the partition's ring; one that finds the ring full is
lost and counted, and the next record written carries that count, which then starts again; a core without streams only counts its period
(R395). Which streams have issued in the sampled clock is log 40. The events without words and what they bring are the model's form (logs 1, 7). -/
def Obligations.DebugEvents : Prop :=
  ∀ (s : State) (p : Part) (x : Block),
    let i := s.input
    let b := i.core % 384 * 8 + i.slot % 8
    (s.part? i.part = some p → exec .dbgen s = .next (s.updPart i.part (fun p => { p with dbgen := i.value.getLsbD 0 }))) ∧
    (s.block? b = some x → partOfBlock s b = i.part →
      (i.ok = false →
        exec .debugStop s = .next (s.updBlock b (fun x => if x.stopped then x else { x with stopped := true, dumped := false, cause := 0 })) ∧
        exec .debugResume s = .next (x.groups.foldl (fun s sl => s.updGroup (b / 8) sl (fun g => { g with stepOne := false }))
          (s.updBlock b (fun x => { x with stopped := false, dumped := false, cause := 0 }))) ∧
        (x.stopped = true → x.dumped = false → x.groups.all (fun sl => ((s.group? (b / 8) sl).map (fun g =>
            g.prod.isEmpty && !((s.core (b / 8)).loads.any (fun y => y.slot == sl)))).getD true) = true → x.seq = none →
          exec .stopDump s = .next ((s.updPart i.part (fun p => { p with dumps := p.dumps ++ [(b, dumpBytes s b x)] })).updBlock b
            (fun x => { x with dumped := true })))) ∧
      (x.stopped = true → i.idx ∈ x.groups → exec .debugStep s = .next (s.updGroup (b / 8) i.idx (fun g => { g with stepOne := true })))) ∧
    (∀ n, s.parts.findV (fun _ p => (partCores p).contains (i.core % 384)) = some (n, p) → p.period ≠ 0 →
      (s.core (i.core % 384)).samples < (s.clock - p.sampleStart) / p.period → rotation s (i.core % 384) = [] →
      exec .stallSample s = .next (s.updCore (i.core % 384) (fun k => { k with samples := k.samples + 1 }))) ∧
    (∀ n m, s.parts.findV (fun _ p => (partCores p).contains (i.core % 384)) = some (n, p) → p.period ≠ 0 →
      let c := i.core % 384
      let k := s.core c
      k.samples < (s.clock - p.sampleStart) / p.period →
      (((rotation s c).find? (fun m => decide (k.sampleIdx ≤ m))).or (rotation s c).head?) = some m →
      let z := memberSample s c m
      let id := identity s c z.2.1 (some z.2.2)
      let rec' := bytesOf 8 (p.sampleStart + (k.samples + 1) * p.period) ++ bytesOf 4 z.1.1 ++ bytesOf 2 id.2.2.2.1 ++ bytesOf 1 z.1.2.1 ++ bytesOf 1 z.1.2.2 ++
        bytesOf 4 id.2.2.2.2.1 ++ bytesOf 4 id.2.2.2.2.2 ++ bytesOf 2 id.1 ++ bytesOf 1 id.2.1 ++ bytesOf 1 id.2.2.1 ++ bytesOf 4 p.sample.lost
      let taken (s : State) : State := s.updCore c (fun k => { k with samples := k.samples + 1, sampleIdx := m + 1 })
      (p.sample.size ≤ p.sample.w - p.sample.r → exec .stallSample s =
        .next (taken (s.updPart n (fun q => { q with sample := { p.sample with lost := min (p.sample.lost + 1) (2 ^ 32 - 1) } })))) ∧
      (p.sample.w - p.sample.r < p.sample.size → exec .stallSample s =
        .next (taken ((s.putOwn (cellsAt (p.sample.base + rec'.length * (p.sample.w % p.sample.size)) rec')).updPart n
          (fun q => { q with sample := { p.sample with w := p.sample.w + 1, lost := 0 } })))))

/-- A doorbell sets WR and makes its queue pending, and one of a partition that resets or is halted is counted and discarded; Geyser maps and
evicts as R364 says at each ageing step; a command whose counters have reached their thresholds starts, and a malformed one stops its
queue; a completed one increments its counter as a release, once the release's steps are done, and a SIGNAL raises vector 2; a die
without work asks the next one for a queue, a grant is mapped, if it is not yet, or pending; two quiescent rounds with the same count end
a graph (R358, R362 to R365, R386). The events without words and what they bring are the model's form (logs 1, 7). The readings of Geyser
are logs 38 and 53. -/
def Obligations.GeyserEvents : Prop :=
  ∀ (s : State) (q : UQ) (p : Nat × Part) (h : HSlot) (c : Cmd) (k u : Nat) (rest : List Nat) (g : Graph) (pt : Part),
    let i := s.input
    let d := i.die % 8
    let rung (m : State) : State := if !isMapped m q.die (i.idx % 1024) && i.value.toNat != q.rd then setPending m q.die (i.idx % 1024) else m
    (5 ≤ s.mgmt.step → channelOpen s i.port = true → uqNow s (i.idx % 1024) = some q → uqPart s (i.idx % 1024) = some p →
      (p.2.resetting = true ∨ p.2.halted = true → exec .doorbell s = .next (s.updPart p.1 (fun p => { p with bells := p.bells + 1 }))) ∧
      (p.2.resetting = false → p.2.halted = false → exec .doorbell s =
        .next (geyser (rung (putWr s (i.idx % 1024) i.value.toNat)) q.die))) ∧
    exec .geyserAgeingStep s = .next (evict (mapPending d 4 (unmapEmpty s d)) d) ∧
    ((s.die d).hs.get? (i.idx % 4) = some h → uqNow s h.uq = some q → uqPart s h.uq = some p → q.stopped = false → q.rd < q.wr →
      let bs := cmdBytes s q q.rd
      (cmdBad s p.1 bs = true → exec .commandStart s = .next (stopUq s p.1 h.uq q 7)) ∧
      (cmdBad s p.1 bs = false → depsMet s p.1 (hostCmd bs) = true →
        exec .commandStart s = .next (geyser (startCmd s p.1 h.uq q p.2 (hostCmd bs)) d)) ∧
      (cmdBad s p.1 bs = false → depsMet s p.1 (hostCmd bs) = false → exec .commandStart s = .next s)) ∧
    (s.cmds.find? (fun c => c.id == i.x && c.left == 0) = some c →
      let ended (s : State) : State :=
        if c.opc = 4 then raiseVector { s with cmds := s.cmds.filter (fun x => x.id != c.id) } c.part 2
        else { s with cmds := s.cmds.filter (fun x => x.id != c.id) }
      (c.comp = 2 ^ 32 - 1 → exec .commandComplete s = .next (ended s)) ∧
      (c.comp ≠ 2 ^ 32 - 1 → ∀ a, counterAt s c.part c.comp = some a →
        let r := partRelease s c.part
        (r.1 = true → exec .commandComplete s = .next (ended (deposit (counterAdd r.2 { agent := 1 } a 1) a (partSig r.2 c.part)))) ∧
        (r.1 = false → exec .commandComplete s = .next r.2))) ∧
    ((s.die d).hs = [] → (s.die d).pend = [] → (∀ t, (s.die d).lastSteal = some t → t + 120000 ≤ s.clock) → exec .stealReqSend s =
      .next ((s.updDie d (fun x => { x with lastSteal := some s.clock })).updDie ((d + 1) % 8) (fun x => { x with steal := x.steal ++ [d] }))) ∧
    ((s.die d).steal = d :: rest → exec .stealReq s = .next (s.updDie d (fun x => { x with steal := rest }))) ∧
    ((s.die d).steal = k :: rest → k ≠ d → stolen (s.updDie d (fun x => { x with steal := rest })) d k = none → exec .stealReq s =
      .next ((s.updDie d (fun x => { x with steal := rest })).updDie ((d + 1) % 8) (fun x => { x with steal := x.steal ++ [k] }))) ∧
    ((s.die d).grants = u :: rest →
      let t := s.updDie d (fun x => { x with grants := rest })
      (isMapped t d u = true → exec .stealGrant s = .next t) ∧
      (isMapped t d u = false → freeHs t d u = some k → exec .stealGrant s = .next (mapUq t d k u)) ∧
      (isMapped t d u = false → freeHs t d u = none → exec .stealGrant s = .next (setPending t d u))) ∧
    (s.graphs.get? i.x = some g → s.part? g.part = some pt →
      (∀ e ∈ pt.domain, e = s.devnum.toNat ∨ ∃ r ∈ i.reports, r.dev = e) → (g.begun = true ∨ followersStarted s g = true) →
      let sent := i.reports.foldl (fun n r => n + r.sent) g.sent
      let quiet := graphQuiet s g pt && i.reports.all (·.quiet) && sent == i.reports.foldl (fun n r => n + r.received) g.recvd
      (quiet = true → g.quiet = some sent → exec .terminationRound s = .next (endGraph s i.x g)) ∧
      (quiet = true → g.quiet ≠ some sent → exec .terminationRound s =
        .next { s with graphs := s.graphs.set i.x { g with begun := true, quiet := some sent } }) ∧
      (quiet = false → exec .terminationRound s = .next { s with graphs := s.graphs.set i.x { g with begun := true, quiet := none } }))

/-! ## Events: the management processor (R382, R386 to R390) -/

/-- A descriptor within Table 18-2 for a partition in which no block runs is taken, and its agents begin; each step of start-up completes or
fails with its code; the SPDM requests of a session are answered; the duty of a die follows its power, measured once in 1 ms, and a
thermal trip halts every partition, is logged and raises vector 4 (R382, R387 to R390). The events without words and what they bring are
the model's form (logs 1, 7). The events of start-up are log 41. -/
def Obligations.ManagementEvents : Prop :=
  ∀ (s : State),
    let i := s.input
    let m := s.mgmt
    let c := Config.digest Config.certificate ++ i.bytes ++ Config.digest m.measures.flatten
    let tells (kind : Nat) (data : List Byte) (s : State) : Host.Outcome State Fault Refusal := .next (answer s s.devnum.toNat 5 kind 0 data)
    (6 ≤ m.step → i.part < m.parts → partRuns s i.part = false → descBad s i.part i.bytes = false → s.part? i.part = none →
      (∀ n ∈ s.nbhds, (n.2.part == i.part && n.2.agent) = false) →
      exec .partitionDescriptorWrite s = .next (startAgents { s with parts := s.parts.set i.part { desc := descOf i.bytes } } i.part)) ∧
    (m.failure = 0 →
      (m.step = 0 → exec .powerOn s = .next (startFirmware s i.bytes)) ∧
      (m.step = 1 → exec .powerOn s = .next (startBlob s i.bytes)) ∧
      (m.step = 2 → i.ok = true → exec .powerOn s = .next (stepDone { s with tags := [] } 3)) ∧
      (m.step = 2 → i.ok = false → exec .powerOn s = .next (startFails s (if i.op = 0 then 3 else 4))) ∧
      (m.step = 3 → exec .powerOn s = .next (startImage s i.bytes i.nums (i.idx == 0))) ∧
      (m.step = 4 → i.ok = true → exec .powerOn s = .next (startLinks s i.nums i.len)) ∧
      (m.step = 5 → exec .powerOn s = .next { s with mgmt := { m with tree := treeOf i.nums, step := 6 } })) ∧
    exec .spdmGetVersion s = tells 1 [0x13] { s with mgmt := { m with spdm := 1 } } ∧
    (m.spdm ≠ 4 →
      exec .spdmGetCapabilities s = tells 2 [] { s with mgmt := { m with spdm := 2 } } ∧
      (i.op % 4 ≠ 0 → exec .spdmNegotiateAlgorithms s = tells 3 (bytesOf 1 (i.op % 4)) { s with mgmt := { m with spdm := 3 } }) ∧
      (i.op % 4 = 0 → exec .spdmNegotiateAlgorithms s = .next { s with mgmt := { m with spdm := 4 } }) ∧
      exec .spdmGetDigests s = tells 4 (Config.digest Config.certificate) s ∧
      exec .spdmGetCertificate s = tells 5 ((Config.certificate.drop i.x).take i.len) s ∧
      exec .spdmChallenge s = tells 6 (c ++ Config.signed c) s ∧
      (i.ok = false → exec .spdmGetMeasurements s =
        tells 7 (if i.idx = 0 then bytesOf 1 m.measures.length else (m.measures[i.idx - 1]?).getD []) s) ∧
      exec .spdmUnsupportedRequest s = tells 8 [] s) ∧
    ((s.die (i.die % 8)).powerAt + 1200000 ≤ s.clock → exec .powerMeasurement s = .next (s.updDie (i.die % 8) (fun d => { d with
      duty := if d.cap < i.x then d.duty - 1 else if 100 * i.x ≤ 95 * d.cap ∧ d.duty < 16 then d.duty + 1 else d.duty, powerAt := s.clock }))) ∧
    exec .thermalTrip s = .next (s.parts.foldl (fun s p =>
      raiseVector (logError ((haltPartition s p.1 p.2).updPart p.1 (fun q => { q with halted := true })) p.1 9 0 0 none (s.input.die % 8) 0 0) p.1 4) s)

/-! ## Frames -/

/-- A scalar word that writes one register writes nothing else: every byte of memory, every other group and every field of the state but the
groups are unchanged, and in the group every other register and every field but the PC and the marks of a wait (R214, R252 to R256). -/
def Obligations.ScalarRegisterFrames : Prop :=
  ∀ (s t : State) (c sl : Nat) (g : Group) (d a b n : BitVec 6) (f : BitVec 3) (i : BitVec 13) (l : BitVec 7) (y : BitVec 3) (x : BitVec 5) (j : BitVec 32),
    ScalarTurn s c sl g false 0 [d.toNat, a.toNat, b.toNat, n.toNat] →
    ∀ q ∈ ([.sadd d a b f, .ssub d a b f, .smul d a b f, .smulh d a b f, .smin d a b f, .smax d a b f, .saddc d a b f, .sand d a b f, .sor d a b f,
       .sxor d a b f, .sshl d a b f, .sshr d a b f, .ssra d a b f, .sabs d a f, .sneg d a f, .snot d a f, .spopc d a f, .sclz d a f, .sbrev d a f,
       .smov d a f, .scmp d a b x f, .sfadd d a b f, .sfmul d a b f, .sfmin d a b f, .sfmax d a b f, .scvt d a y f, .sfcmp d a b x f, .saddImm d a i, .smulImm d a i,
       .sandImm d a i, .sorImm d a i, .sxorImm d a i, .sshlImm d a n, .sshrImm d a n, .ssraImm d a n, .sbfe d a l n, .sbfi d a l n, .sli d j,
       .slih d j, .slea d a b n j, .ssel d a b n] : List Instr),
    exec q s = .next t →
    (∀ e, Memory.get t.mem e = Memory.get s.mem e ∧ Memory.get t.chip e = Memory.get s.chip e ∧ Memory.get t.spad e = Memory.get s.spad e) ∧
    { t with groups := s.groups } = s ∧ (∀ k, k ≠ c * 48 + sl → t.groups.get? k = s.groups.get? k) ∧
    ∃ h, t.group? c sl = some h ∧ (∀ r, r ≠ g.sname d.toNat → h.s r = g.s r) ∧
      { h with sregs := g.sregs, ts := g.ts, spc := g.spc, park := g.park, arrived := g.arrived } = g

/-- A lane word that writes one register, or one pair, of a block of one split is complete and writes nothing else: in the lanes that do not
execute it, and in every other register, the values stay, and a guard that is never true leaves every register as it was. Memory, the other
groups, the scalar registers and the predicates are unchanged, and the PC of the split moves by one word (R21, R85). -/
def Obligations.LaneRegisterFrames : Prop :=
  ∀ (s : State) (c sl k : Nat) (g : Group) (b : LaneBlock) (w : L3) (v : LI),
    let n := regsOf w.fmt
    let m := regsOf v.fmt
    let a1 (z : Nat) := [srcA w.toLaneHead z]
    let a2 (z : Nat) := [srcA w.toLaneHead z, srcB w.toLaneHead z]
    let a3 := [srcA w.toLaneHead 1, srcB w.toLaneHead 1, srcC w 1]
    let v1 (z : Nat) := [srcA v.toLaneHead z]
    let frame (i : Instr) (prd : BitVec 4) (d z : Nat) : Prop :=
      ∃ t, exec i s = .next t ∧ { t with groups := s.groups } = s ∧ (∀ j, j ≠ c * 48 + sl → t.groups.get? j = s.groups.get? j) ∧
      ∃ h, t.group? c sl = some h ∧
        (∀ r j, j < 32 → (prd = 8#4 ∨ (executing g b k prd).getLsbD j = false ∨ r < d ∨ d + z ≤ r) → h.v r j = g.v r j) ∧
        h.lanes.map (fun b => (b.at k).pc) = some ((b.at k).pc + 1) ∧
        { h with vregs := g.vregs, latchA := g.latchA, latchB := g.latchB, latchC := g.latchC, lastSplit := g.lastSplit, lb := g.lb, tlb := g.tlb } = g
    b.lone k →
    (∀ q ∈ ([(.iadd w, a2 n, n), (.isub w, a2 n, n), (.imul w, a2 n, n), (.imulh w, a2 n, n), (.imin w, a2 n, n), (.imax w, a2 n, n), (.land w, a2 n, n),
        (.lor w, a2 n, n), (.lxor w, a2 n, n), (.sel w, a2 n, n), (.iabs w, a1 n, n), (.ineg w, a1 n, n), (.lnot w, a1 n, n), (.mov w, a1 n, n),
        (.imad w, a3, 1), (.laneid w, [], 1)] : List (Instr × List Src × Nat)),
      LaneTurn s c sl k g b 0 w.prd q.2.1 [(w.dst.toNat, q.2.2)] → frame q.1 w.prd w.dst.toNat q.2.2) ∧
    (∀ q ∈ ([(.fadd w, a2 1, 1), (.fmul w, a2 1, 1), (.ffma w, a3, 1), (.fmin w, a2 1, 1), (.fmax w, a2 1, 1), (.dadd w, a2 2, 2), (.dmul w, a2 2, 2),
        (.dmin w, a2 2, 2), (.dmax w, a2 2, 2)] : List (Instr × List Src × Nat)),
      LaneTurn s c sl k g b 2 w.prd q.2.1 [(w.dst.toNat, q.2.2)] → frame q.1 w.prd w.dst.toNat q.2.2) ∧
    (∀ q ∈ ([(.iaddImm v, v1 m, m), (.isubImm v, v1 m, m), (.imulImm v, v1 m, m), (.iminImm v, v1 m, m), (.imaxImm v, v1 m, m), (.landImm v, v1 m, m),
        (.lorImm v, v1 m, m), (.lxorImm v, v1 m, m), (.movi v, [], m)] : List (Instr × List Src × Nat)),
      LaneTurn s c sl k g b 0 v.prd q.2.1 [(v.dst.toNat, q.2.2)] → frame q.1 v.prd v.dst.toNat q.2.2)

/-- A weak load or store changes no byte but those that it stores. The bytes of SST, of its S-X form and of ST are the low bytes of the data
register at the address that the word computes, and every other byte reads as before through the core's caches and at its home; the word
writes no register of any group. SLD and its S-X form change no byte (R122, R139, R144). The step in which an access is performed is logs 10
and 18. -/
def Obligations.AccessFrames : Prop :=
  ∀ (s u : State) (c sl k : Nat) (g : Group) (b : LaneBlock) (d a : BitVec 6) (i : BitVec 13) (x : SXMem) (w : L3),
    let p := scalarIssuer s c sl g
    let n := 2 ^ x.wid.toNat
    let off := x.off.signExtend 64
    let f := memL3 w
    let two := [srcA w.toLaneHead 2, srcB w.toLaneHead f.regs]
    let e := laneEnv s c sl k g b w.prd two
    let same (v : State) (y : Spot) : Prop := byteNow v c false y = byteNow s c false y
    let homes (v : State) : Prop := ∀ z, Memory.get v.mem z = Memory.get s.mem z
    let stored (cells : List (Hop × Byte)) (v : State) : Prop :=
      (∀ y, (∀ z ∈ cells, sameByte z.1.spot y = false) → same v y) ∧ homes v ∧
      (cells.Pairwise (fun y z => sameByte y.1.spot z.1.spot = false) → ∀ z ∈ cells, (∀ va, z.1.spot ≠ .gone va) → byteNow v c false z.1.spot = some z.2) ∧
      (∀ z, (v.groups.get? z).map (fun h => (h.sregs, h.ts, h.vregs, h.preds)) = (s.groups.get? z).map (fun h => (h.sregs, h.ts, h.vregs, h.preds)))
    let here (cells : List (Hop × Byte)) : Prop := ∀ z ∈ cells, ∀ dev pa, z.1.spot ≠ .peer dev pa ∧ (z.1.spot = .line pa → pa < 2 ^ 64)
    (ScalarTurn s c sl g false 0 [d.toNat, a.toNat] →
      (∀ t, t = storeOf g d a (i.signExtend 64) 8 → AccessReady s p .write 8 apScalar [t] → performed s p .write [t] (storeAcc p false false) = some u →
        here (storedCells s p [t]) → ∃ v, exec (.sst d a i) s = .next v ∧ stored (storedCells s p [t]) v) ∧
      (∀ t, t = storeOf g d a off n → x.ord = 0 → AccessReady s p .write n apScalar [t] → performed s p .write [t] (storeAcc p false false) = some u →
        here (storedCells s p [t]) → ∃ v, exec (.sstX d a x) s = .next v ∧ stored (storedCells s p [t]) v) ∧
      (∀ t, t = loadOf g d a (i.signExtend 64) 8 false → AccessReady s p .read 8 apScalar [t] → performed s p .read [t] (loadAcc p false) = some u →
        ∃ v, exec (.sld d a i) s = .next v ∧ (∀ y, same v y) ∧ homes v) ∧
      (∀ t, t = loadOf g d a off n (x.sgn == 1) → x.ord = 0 → AccessReady s p .read n apScalar [t] → performed s p .read [t] (loadAcc p false) = some u →
        ∃ v, exec (.sldX d a x) s = .next v ∧ (∀ y, same v y) ∧ homes v)) ∧
    (∀ q l, LaneTurn s c sl k g b 2 w.prd two [] → b.lone k → w.ord = 0 → f.ch ≠ 3 → q = laneIssuer (laneStart s e) e →
      l = f.stores (rmCode w.rm (b.at k).fmtr) e → AccessReady (laneStart s e) q .write f.align (if f.gfe = 3 then apGranule else apLane) l →
      performed (laneStart s e) q .write l (storeAcc q false (f.gfe == 3)) = some u → here (storedCells (laneStart s e) q l) →
      ∃ v, exec (.st w) s = .next v ∧ stored (storedCells (laneStart s e) q l) v)

/-! ## A step -/

/-- A step runs the word that the stream in turn stands at. Where the slot is one of the module, the group is not stopped, or saving but for
a word that takes up a tile operation, and no trap waits, the bytes at the PC that decode to an instruction are run as that instruction,
after which a trial's hold and a debugger's step apply, clocks pass and the next party comes; bytes that fail a check of R33 trap
ILLEGAL_ENCODING with the subcode of the check instead. The same holds of a sequencer, whose words in flight complete before such a trap
(R259), and an event runs as its instruction. The bytes are those that the home of each address holds, 4 or 8 for a scalar word by its OP
field, 12 for a lane word and 8 for a matrix word (R15 to R17, R33, R85). Which party comes next and how many clocks pass are free (logs
1, 2); code is fetched at its home (log 11). -/
def Obligations.StepRuns : Prop :=
  ∀ (s t : State) (c sl k sub len : Nat) (bits : W96) (g : Group) (b : LaneBlock) (x : Block) (q : Seq) (i : Instr),
    let here : Prop := s.group? c sl = some g ∧ c < Config.cores ∧ sl < Config.slots ∧ trapWaits g = false
    (s.turn = .scalar c sl → here → groupStopped s g (.scalar c sl) = false → g.park = none → g.hold ≤ s.clock →
      (fetchScalar (scalarFetcher s c sl g) g.spc s = .word t bits len (.ok i) →
        step s = onNext (fun v => advance (issuedScalar s c sl g v)) (exec i { t with word := bits })) ∧
      (fetchScalar (scalarFetcher s c sl g) g.spc s = .word t bits len (.error sub) →
        step s = .next (advance (stepped (endS c sl 0 (.trap t (illegal sub))) c sl)))) ∧
    (∀ v h, s.turn = .lane c sl → here → laneTurn s c sl g = some v → v.group? c sl = some h → trapWaits h = false →
      pickSplit v.clock h = some k → h.lanes = some b →
      let f := laneFetcher v c sl k h
      (fetchLane f f.p.nb.stage.vregs (b.at k).pc v = .word t bits len (.ok i) →
        step s = onNext (fun z => advance (issuedLane v c sl k h (b.at k).pc z)) (exec i { t with word := bits })) ∧
      (fetchLane f f.p.nb.stage.vregs (b.at k).pc v = .word t bits len (.error sub) →
        step s = .next (advance (stepped (endL c sl k h.trapMode (.trap t { illegal sub with mask := f.mask })) c sl)))) ∧
    (s.turn = .seq c k → c < Config.cores → k < Config.blockSlots → s.block? (c * 8 + k) = some x → x.seq = some q → seqHeld s (c * 8 + k) x q = false →
      (fetchMatrix (c * 8 + k) q.pc s = .word t bits len (.ok i) → step s = onNext advance (exec i { t with word := bits })) ∧
      (fetchMatrix (c * 8 + k) q.pc s = .word t bits len (.error sub) → step s = .next (advance (stopSeq t (c * 8 + k) (illegal sub))))) ∧
    (s.turn = .event i → wordKind i = .event → step s = onNext advance (exec i s)) ∧
    (∀ (z : Fetcher) (va n : Nat) (hops : List Hop) (pas : List Nat), z.p.outside 0b100000 va n = none → route s z.p .exec va n = .ok hops →
      hops.map (·.spot) = pas.map .line → (∀ pa ∈ pas, homeWaits z.issuer.me (keepLeaves s z.p hops) pa false = none) →
      readErr (keepLeaves s z.p hops) hops = none →
      ∃ v, fetchCode z va n s = .ok v (pas.map (Memory.get s.mem)) ∧ v.mem = s.mem ∧ v.groups = s.groups ∧ v.blocks = s.blocks) ∧
    (∀ (z : Fetcher) (pc : W64) (v v' : State) (bs bs' : List Byte), pc.toNat % 4 = 0 → fetchCode z pc.toNat 4 s = .ok v bs →
      (isSX (pack 32 bs) = false → fetchScalar z pc s = .word v ((pack 32 bs).setWidth 96) 4 (decodeScalar (pack 32 bs) 0)) ∧
      (isSX (pack 32 bs) = true → fetchCode z (pc.toNat + 4) 4 v = .ok v' bs' →
        fetchScalar z pc s = .word v' (pack 96 (bs ++ bs')) 8 (decodeScalar (pack 32 bs) (pack 32 bs')))) ∧
    (∀ (z : Fetcher) (vregs : Nat) (pc : W32) (v : State) (bs : List Byte),
      fetchCode z ((z.p.nb.stage.lbase.toNat + 12 * pc.toNat) % 2 ^ 64) 12 s = .ok v bs →
      fetchLane z vregs pc s = .word v (pack 96 bs) 12 (decodeLane vregs (pack 96 bs)))

/-! ## Encodings -/

/-- Decoding the words of a well-formed instruction gives it back, with every operand at every value that its fields admit. A scalar word of
32 bits is told from one of form S-X by its OP field; a lane word is three 32-bit words and a matrix word two, the lowest bits first; an
event has no words (R15 to R23, R29 to R33). The reading of RUC is log 20. -/
def Obligations.RoundTrip : Prop :=
  ∀ i : Instr, WellFormed i →
    (wordKind i = .scalar → ∃ w, encode i = some [w] ∧ isSX w = false ∧ ∀ imm, decodeScalar w imm = .ok i) ∧
    (wordKind i = .scalarX → ∃ w imm, encode i = some [w, imm] ∧ isSX w = true ∧ decodeScalar w imm = .ok i) ∧
    (wordKind i = .lane → ∃ w, encode i = some (split96 w) ∧ decodeLane 256 w = .ok i) ∧
    (wordKind i = .matrix → ∃ w, encode i = some (split64 w) ∧ decodeMatrix w = .ok i) ∧
    (wordKind i = .event → encode i = none)

/-- The worked encodings of R36 and words written out from Tables 1-1 to 1-12 decode to the instructions that they stand for, and words of
unassigned cells are refused with the subcodes of Table 1-13 (R29 to R34). -/
def Obligations.DecodedWords : Prop :=
  decodeLane 256 (0x00094000#32 ++ 0x20283420#32 ++ 0x38208000#32) = .ok (.ffma {
    fmt := 5, mfmt := 0, prd := 0, pdst := 0, dst := 4, sa := 5, sb := 6, nega := 1, negb := 0, absa := 0, absb := 0, fea := 0, feb := 1, rua := 0,
    rub := 0, sc := 7, negc := 0, absc := 0, fec := 0, ruc := 0, clp := 1, scl := 0, rm := 1, obs := 0, ord := 0, ch := 0, aux := 0 }) ∧
  decodeScalar 0x403100C8 0 = .ok (.saddImm 3 4 100) ∧
  decodeMatrix (0x00046110#32 ++ 0x00040000#32) = .ok (.mma {
    sub := 0, acc := 4, sa := 1, sb := 2, af := 1, bf := 1, rm := 0, sat := 0, mrp := 0, mcp := 0, kc := 4, qk := 0, acb := 0, omi := 0 }) ∧
  decodeScalar 0xD4000015 0 = .ok .shint ∧
  -- SADD.n64 S1, S2, S3: OP 0x00, DST 1, SA 2, SB 3, SUB 0, FMT 1
  decodeScalar (0b000000#6 ++ 0b000001#6 ++ 0b000010#6 ++ 0b000011#6 ++ 0b00000#5 ++ 0b001#3) 0 = .ok (.sadd 1 2 3 1) ∧
  -- SBR nz S5, -2: OP 0x31, SA 5, OFF -2
  decodeScalar (0b110001#6 ++ 0b000101#6 ++ 0b11111111111111111110#20) 0 = .ok (.sbrNz 5 0xFFFFE) ∧
  -- FENCE.ocp: OP 0x26, SUB 0, CTL 0b10010
  decodeScalar (0b100110#6 ++ 0#18 ++ 0b000#3 ++ 0b10010#5) 0 = .ok (.fence 18) ∧
  -- SLI S7, -1: OP 0x38, DST 7, IMM32 all ones
  decodeScalar (0b111000#6 ++ 0b000111#6 ++ 0#20) 0xFFFFFFFF = .ok (.sli 7 0xFFFFFFFF) ∧
  -- MZERO AC5: OP 0x02, ACC 5
  decodeMatrix (0b000010#6 ++ 0b0000#4 ++ 0b000101#6 ++ 0#48) = .ok (.mzero {
    sub := 0, acc := 5, sa := 0, sb := 0, af := 0, bf := 0, rm := 0, sat := 0, mrp := 0, mcp := 0, kc := 0, qk := 0, acb := 0, omi := 0 }) ∧
  -- LEND: OP 0x31, SUB 1
  decodeLane 256 (0b0110001#7 ++ 0b0000001#7 ++ 0#82) = .ok .lend ∧
  (∀ x : BitVec 26, decodeScalar (0x04#6 ++ x) 0 = .error 1) ∧ (∀ x : BitVec 89, decodeLane 256 (0x40#7 ++ x) = .error 5) ∧ (∀ x : BitVec 58, decodeMatrix (0x3E#6 ++ x) = .error 1)

/-! ## Memories -/

/-- Every step keeps the memory, the chip scratchpads and the core scratchpads in canonical form, so that equal memories are equal data (R8,
R113, R146). The byte that an unlisted address reads as is the model's choice (log 4). -/
def Obligations.CanonicalStep : Prop :=
  ∀ s t : State, s.canonical = true → step s = .next t → t.canonical = true

/-- The memories of the state after reset are in canonical form, and so are those of that state with any word where its first step fetches.
(The byte that an unlisted address reads as is the model's choice, log 4.) -/
def Obligations.ResetCanonical : Prop :=
  State.reset.canonical = true ∧ ∀ s nbits w, s.canonical = true → (State.withFetchWord s nbits w).canonical = true
end

