-- ==== Sys2Proof/Laws/Scalar.lean ====
section
/-! SUPPORT. How a scalar word issues and ends: one lemma for each shared operation of the scalar stream. -/

namespace Sys2Proof.Machine
open Bits

/-- A table changed twice at a key is changed once by both. -/
theorem NMap.modify_modify {α : Type} (f g : α → α) (m : NMap α) (k : Nat) :
    NMap.modify f (NMap.modify g m k) k = NMap.modify (fun x => f (g x)) m k := by
  induction m with
  | nil => rfl
  | cons x m ih =>
    obtain ⟨n, v⟩ := x
    by_cases h : n = k <;> simp [NMap.modify, h, ih]
theorem updGroup_updGroup (s : State) (c sl : Nat) (f g : Group → Group) :
    (s.updGroup c sl g).updGroup c sl f = s.updGroup c sl (fun x => f (g x)) := by
  simp [State.updGroup, NMap.modify_modify]
/-- A scalar stream in turn runs the body of its word. -/
theorem scalarRun_turn {s : State} {c sl : Nat} {g : Group} {priv : Bool} {deny : Nat} {regs : List Nat}
    (h : ScalarTurn s c sl g priv deny regs) (len : Nat) (body : Nat → Nat → Group → Res) :
    scalarRun priv deny len regs body s = .next (endS c sl len (body c sl g)) := by
  obtain ⟨ht, hg, hp, hd, hr⟩ := h
  have hx : (priv && sl != Config.agentSlot) = false := by
    cases priv with
    | false => rfl
    | true => simp [hp rfl]
  simp [scalarRun, ht, hg, hx, hd, if_pos hr]
/-- A stream that fits a word fits one that names fewer registers and is denied fewer roles. -/
theorem ScalarTurn.mono {s : State} {c sl : Nat} {g : Group} {priv : Bool} {deny : Nat} {regs regs' : List Nat}
    (h : ScalarTurn s c sl g priv deny regs) (hs : ∀ r ∈ regs', r ∈ regs) : ScalarTurn s c sl g priv deny regs' :=
  ⟨h.1, h.2.1, h.2.2.1, h.2.2.2.1, fun r hr => h.2.2.2.2 r (hs r hr)⟩
/-- A group found in the state is found again after it is changed. -/
theorem get?_modify {α : Type} (f : α → α) (m : NMap α) (k : Nat) : (NMap.modify f m k).get? k = (m.get? k).map f := by
  induction m with
  | nil => rfl
  | cons x m ih =>
    obtain ⟨n, v⟩ := x
    by_cases h : n = k <;> simp [NMap.modify, NMap.get?, h, ih]
theorem setS_spc (g : Group) (r : Nat) (v : W64) : (g.setS r v).spc = g.spc := by
  unfold Group.setS; split <;> rfl
theorem setS_trapMode (g : Group) (r : Nat) (v : W64) : (g.setS r v).trapMode = g.trapMode := by
  unfold Group.setS; split <;> rfl
/-- A scalar word that writes one register is complete with that register written. -/
theorem scalarPure_turn {s : State} {c sl : Nat} {g : Group} {d : BitVec 6} {regs : List Nat} {srcs : List Nat}
    (h : ScalarTurn s c sl g false 0 regs) (hs : ∀ r ∈ d.toNat :: srcs, r ∈ regs) (len : Nat) (f : Group → W64) :
    scalarPure len d.toNat srcs f s = .next (wroteScalar s c sl len d (f g)) := by
  unfold scalarPure
  rw [scalarRun_turn (h.mono hs)]
  simp [endS, doneS, updGroup_updGroup, wroteScalar, setS_spc]
/-- A result in a register, and the word complete. -/
theorem doneScalar_putS (s : State) (c sl len : Nat) (d : BitVec 6) (v : Nat) :
    doneScalar (putS s c sl d v) c sl len = wroteScalar s c sl len d (BitVec.ofNat 64 v) := by
  simp [doneScalar, doneS, putS, updGroup_updGroup, wroteScalar, setS_spc]

end Sys2Proof.Machine
end

