-- ==== Sys2Proof/Laws/Lane.lean ====
section
/-! SUPPORT. How a lane word issues and ends: one lemma for each shared operation of the lane stream. -/

namespace Sys2Proof.Machine
open Bits

/-- A table written twice at a key holds the second value. -/
theorem NMap.set_set {α : Type} (m : NMap α) (k : Nat) (x y : α) : NMap.set (NMap.set m k x) k y = NMap.set m k y := by
  induction m with
  | nil => simp [NMap.set]
  | cons z m ih =>
    obtain ⟨n, v⟩ := z
    by_cases h : n = k
    · simp [NMap.set, h]
    · by_cases h2 : k < n
      · simp [NMap.set, h, h2]
      · simp [NMap.set, h, h2, ih]
theorem NMap.get?_set {α : Type} (m : NMap α) (k n : Nat) (x : α) : (NMap.set m k x).get? n = if k = n then some x else m.get? n := by
  induction m with
  | nil => simp [NMap.set, NMap.get?]
  | cons z m ih =>
    obtain ⟨j, v⟩ := z
    by_cases h : j = k
    · subst h; by_cases h3 : j = n <;> simp [NMap.set, NMap.get?, h3]
    · by_cases h2 : k < j
      · by_cases h3 : k = n
        · subst h3; simp [NMap.set, NMap.get?, h, h2]
        · simp [NMap.set, NMap.get?, h, h2, h3]
      · by_cases h3 : j = n
        · subst h3; simp [NMap.set, NMap.get?, h, h2, Ne.symm h]
        · simp [NMap.set, NMap.get?, h, h2, ih, h3]
theorem setGroup_setGroup (s : State) (c sl : Nat) (g h : Group) : (s.setGroup c sl g).setGroup c sl h = s.setGroup c sl h := by
  simp [State.setGroup, NMap.set_set]
theorem setLanes_block (g : Group) (l : Option LaneBlock) : (g.setLanes l).block = g.block := by unfold Group.setLanes; split <;> rfl
theorem setLanes_gidx (g : Group) (l : Option LaneBlock) : (g.setLanes l).gidx = g.gidx := by unfold Group.setLanes; split <;> rfl
theorem setLanes_trapMode (g : Group) (l : Option LaneBlock) : (g.setLanes l).trapMode = g.trapMode := by unfold Group.setLanes; split <;> rfl
theorem issuing_block (g : Group) (k : Nat) : (g.issuing k).block = g.block := by unfold Group.issuing; split <;> rfl
theorem issuing_gidx (g : Group) (k : Nat) : (g.issuing k).gidx = g.gidx := by unfold Group.issuing; split <;> rfl
theorem issuing_trapMode (g : Group) (k : Nat) : (g.issuing k).trapMode = g.trapMode := by unfold Group.issuing; split <;> rfl
theorem roleOf_atIssue (s t : State) (g : Group) (b : LaneBlock) (k : Nat) (hb : t.blocks = s.blocks) (hn : t.nbhds = s.nbhds) :
    roleOf t (atIssue s g b k) = roleOf s g := by
  simp [roleOf, State.nbhdOf, State.blockOf, State.block?, State.nbhd?, atIssue, issuing_block, issuing_gidx, setLanes_block, setLanes_gidx, hb, hn]
/-- The latches that a word leaves change no register (R218). -/
theorem latch_vregs (r g : Group) (x : Src) : (Group.latch r g x).vregs = g.vregs := by unfold Group.latch; split <;> rfl
theorem latched_vregs (m : W32) (srcs : List Src) (g : Group) : (latched m srcs g).vregs = g.vregs := by
  have h (l : List Src) : ∀ x : Group, (l.foldl (Group.latch (g.reading srcs)) x).vregs = x.vregs := by
    induction l with
    | nil => exact fun _ => rfl
    | cons y l ih => intro x; rw [List.foldl_cons, ih, latch_vregs]
  unfold latched; split
  · rfl
  · exact h srcs g
/-- A lane word starts from the bank as it was, with the latches that its sources leave. -/
theorem laneStart_latched (s : State) (c sl k : Nat) (g : Group) (b : LaneBlock) (prd : BitVec 4) (srcs : List Src) :
    laneStart s (laneEnv s c sl k g b prd srcs) = s.setGroup c sl (latched (executing g b k prd) srcs (atIssue s g b k)) := by
  have h : (latched (executing g b k prd) srcs (atIssue s g b k)).vregs = (atIssue s g b k).vregs := latched_vregs _ _ _
  simp only [laneStart, laneEnv]
  rw [← h]
/-- A lane stream in turn runs the body of its word on what the word finds. -/
theorem laneRun_turn {s : State} {c sl k : Nat} {g : Group} {b : LaneBlock} {deny : Nat} {prd : BitVec 4} {srcs : List Src}
    {dsts : List (Nat × Nat)} (h : LaneTurn s c sl k g b deny prd srcs dsts) (body : LaneEnv → State → Res) :
    laneRun deny prd srcs dsts body s =
      .next (endL c sl k g.trapMode (body (laneEnv s c sl k g b prd srcs) (laneStart s (laneEnv s c sl k g b prd srcs)))) := by
  obtain ⟨ht, hg, hk, hb, hd, hr⟩ := h
  have hrole : roleOf (s.setGroup c sl (atIssue s g b k)) (atIssue s g b k) = roleOf s g := roleOf_atIssue s _ g b k rfl rfl
  have hc : (if (b.at k).unfinished.isSome = true then none
      else regCheck (atIssue s g b k) (executing g b k prd) (keepers b) srcs dsts) = none := by
    split
    · rfl
    · rename_i hq; exact hr.resolve_left hq
  have htm : (atIssue s g b k).trapMode = g.trapMode := by simp [atIssue, issuing_trapMode, setLanes_trapMode]
  unfold laneRun
  simp only [ht, hg, hk, hb]
  change Host.Outcome.next (endL c sl k (atIssue s g b k).trapMode (if bit deny (roleOf (s.setGroup c sl (atIssue s g b k)) (atIssue s g b k)) = true then _ else _)) = _
  rw [hrole, hd, htm]
  simp only [Bool.false_eq_true, if_false]
  change Host.Outcome.next (endL c sl k g.trapMode (match (if (b.at k).unfinished.isSome = true then none
      else regCheck (atIssue s g b k) (executing g b k prd) (keepers b) srcs dsts) with
      | some (.inl t) => _
      | some (.inr l) => _
      | none => _)) = _
  rw [hc]
  rw [laneStart_latched, ← setGroup_setGroup s c sl (atIssue s g b k) (latched (executing g b k prd) srcs (atIssue s g b k))]
  rfl
theorem laneMap_turn {s : State} {c sl k : Nat} {g : Group} {b : LaneBlock} {deny : Nat} {h : LaneHead} {pair : Bool} {srcs : List Src}
    (ht : LaneTurn s c sl k g b deny h.prd srcs [(h.dst.toNat, if pair then 2 else 1)]) (f : LaneEnv → Nat → Nat) :
    laneMap deny h pair srcs f s =
      .next (wroteLanes s (laneEnv s c sl k g b h.prd srcs) pair h.dst (f (laneEnv s c sl k g b h.prd srcs))) := by
  unfold laneMap; rw [laneRun_turn ht]; rfl
theorem lanePred_turn {s : State} {c sl k : Nat} {g : Group} {b : LaneBlock} {deny : Nat} {h : LaneHead} {srcs : List Src}
    (ht : LaneTurn s c sl k g b deny h.prd srcs []) (f : LaneEnv → Nat → Bool) :
    lanePred deny h srcs f s =
      .next (wrotePred s (laneEnv s c sl k g b h.prd srcs) h.pdst (f (laneEnv s c sl k g b h.prd srcs))) := by
  unfold lanePred; rw [laneRun_turn ht]; rfl
theorem laneTrans_turn {s : State} {c sl k : Nat} {g : Group} {b : LaneBlock} {h : LaneHead} {pair : Bool} {srcs : List Src}
    (ht : LaneTurn s c sl k g b 2 h.prd srcs [(h.dst.toNat, if pair then 2 else 1)]) (f : LaneEnv → Nat → Nat) :
    laneTrans h pair srcs f s =
      .next (producesLanes s (laneEnv s c sl k g b h.prd srcs) pair h.dst (f (laneEnv s c sl k g b h.prd srcs))) := by
  unfold laneTrans; rw [laneRun_turn ht]; rfl

end Sys2Proof.Machine
end

