-- ==== Sys2Proof/Laws/Access.lean ====
section
/-! SUPPORT. What a weak access does where every lane is ready and performed. -/

namespace Sys2Proof.Machine
open Bits

/-- Lanes that are all performed leave none behind, and no wait and no trap. -/
theorem stepLane_performAll {f : Acc → List Hop → State → SRes} (l : List (Acc × List Hop)) {s u : State} (h : performAll f l s = some u) :
    l.foldl (stepLane f) { s } = { s := u } := by
  induction l generalizing s with
  | nil => simpa [performAll] using h
  | cons x l ih =>
    simp only [performAll] at h
    split at h
    · rename_i t ht
      simp only [List.foldl_cons, stepLane, ht]
      rw [if_neg (by simp)]
      exact ih h
    · cases h
/-- A weak access whose lanes are ready and all performed leaves their state, with no lane left. -/
theorem weakRun_performed {s u : State} {i : Issuer} {k : Access} {align accept : Nat} {l : List Acc} {f : Acc → List Hop → State → SRes}
    (h : AccessReady s i k align accept l) (hp : performed s i k l f = some u) : weakRun i k align accept l f s = ({ s := u }, none) := by
  obtain ⟨h1, h2, h3, h4, h5, h6⟩ := h
  have h4' : (if k = .read then none else snapFault s i.p.nb.ctx ((routes s i k l).1.flatMap (·.2))) = none := by
    split
    · rfl
    · rename_i hk; exact h4.resolve_left hk
  unfold weakRun
  simp only [h1, h2, Option.or_none]
  rw [h4']
  simp only [h5, h6, Bool.not_true, Bool.false_eq_true, if_false]
  have hf := stepLane_performAll _ hp
  rw [hf, h3]
/-- A weak scalar access that is ready and performed is complete. -/
theorem weakAcc_scalar {s u : State} {i : Issuer} {k : Access} {align accept : Nat} {l : List Acc} {f : Acc → List Hop → State → SRes}
    (hi : i.scalar = true) (h : AccessReady s i k align accept l) (hp : performed s i k l f = some u) : weakAcc i k align accept l f s = .next u := by
  simp [weakAcc, weakRun_performed h hp, finishAcc, hi]
/-- A weak lane access that is ready and performed is complete, and its split notes that no lane is left. -/
theorem weakAcc_lane {s u : State} {i : Issuer} {k : Access} {align accept : Nat} {l : List Acc} {f : Acc → List Hop → State → SRes}
    (hi : i.scalar = false) (h : AccessReady s i k align accept l) (hp : performed s i k l f = some u) :
    weakAcc i k align accept l f s = .next (updSplit u i.c i.sl i.k (fun x => { x with unfinished := some 0 })) := by
  simp [weakAcc, weakRun_performed h hp, finishAcc, hi, accMask, maskOf]

end Sys2Proof.Machine
end

