-- ==== Sys2Proof/Laws/Encoding.lean ====
section
/-! SUPPORT. The fields of the word forms read back from the words that are built from them. -/

namespace Sys2Proof

/-- A field that lies in the upper, or in the lower, of two joined parts. -/
theorem extract_hi {m n : Nat} (a : BitVec m) (b : BitVec n) (i k : Nat) (h : n ≤ i) :
    BitVec.extractLsb' i k (a ++ b) = BitVec.extractLsb' (i - n) k a := by
  apply BitVec.eq_of_getLsbD_eq; intro j hj
  simp only [BitVec.getLsbD_extractLsb', BitVec.getLsbD_append]
  rw [if_neg (by omega), show i + j - n = i - n + j by omega]
theorem extract_lo {m n : Nat} (a : BitVec m) (b : BitVec n) (i k : Nat) (h : i + k ≤ n) :
    BitVec.extractLsb' i k (a ++ b) = BitVec.extractLsb' i k b := by
  apply BitVec.eq_of_getLsbD_eq; intro j hj
  simp only [BitVec.getLsbD_extractLsb', BitVec.getLsbD_append]
  rw [if_pos (by omega)]
/-- The fields of a word of form L3, of form LI, of form M-A and of form M-P, and of IMM32 of a memory word. -/
theorem l3Of_word (op sub : Nat) (w : L3) : l3Of (wordL3 op sub w) = w := by
  obtain ⟨⟨_, _, _, _, _, _, _, _, _, _, _, _, _, _, _⟩, _, _, _, _, _, _, _, _, _, _, _⟩ := w
  simp only [l3Of, laneHeadOf, wordL3, headBits, tailBits, L3.mk.injEq, LaneHead.mk.injEq]
  and_intros <;>
  · repeat (first | rw [extract_lo _ _ _ _ (by decide)] | rw [extract_hi _ _ _ _ (by decide)])
    simp
theorem liOf_word (op sub : Nat) (w : LI) : liOf (wordLI op sub w) = w := by
  obtain ⟨⟨_, _, _, _, _, _, _, _, _, _, _, _, _, _, _⟩, _, _⟩ := w
  simp only [liOf, laneHeadOf, wordLI, headBits, LI.mk.injEq, LaneHead.mk.injEq]
  and_intros <;>
  · repeat (first | rw [extract_lo _ _ _ _ (by decide)] | rw [extract_hi _ _ _ _ (by decide)])
    simp
theorem maOf_word (op : BitVec 6) (w : MA) : maOf (wordMA op w) = w := by
  obtain ⟨_, _, _, _, _, _, _, _, _, _, _, _, _, _⟩ := w
  simp only [maOf, wordMA, MA.mk.injEq]
  and_intros <;>
  · repeat (first | rw [extract_lo _ _ _ _ (by decide)] | rw [extract_hi _ _ _ _ (by decide)])
    simp
theorem mpOf_word (op : BitVec 6) (sub : BitVec 4) (w : MP) : mpOf (wordMP op sub w) = w := by
  obtain ⟨_, _, _, _, _, _⟩ := w
  simp only [mpOf, wordMP, MP.mk.injEq]
  and_intros <;>
  · repeat (first | rw [extract_lo _ _ _ _ (by decide)] | rw [extract_hi _ _ _ _ (by decide)])
    simp
theorem sxMemOf_word (x : SXMem) : sxMemOf (wordSXMem x) = x := by
  obtain ⟨_, _, _, _, _⟩ := x
  simp only [sxMemOf, wordSXMem, SXMem.mk.injEq]
  and_intros <;>
  · repeat (first | rw [extract_lo _ _ _ _ (by decide)] | rw [extract_hi _ _ _ _ (by decide)])
    simp
/-- OP and SUB of a lane word. -/
theorem opOf_wordL3 (op sub : Nat) (w : L3) :
    (wordL3 op sub w).extractLsb' 89 7 = BitVec.ofNat 7 op ∧ (wordL3 op sub w).extractLsb' 82 7 = BitVec.ofNat 7 sub := by
  unfold wordL3
  constructor <;>
  · repeat (first | rw [extract_lo _ _ _ _ (by decide)] | rw [extract_hi _ _ _ _ (by decide)])
    simp
theorem opOf_wordLI (op sub : Nat) (w : LI) :
    (wordLI op sub w).extractLsb' 89 7 = BitVec.ofNat 7 op ∧ (wordLI op sub w).extractLsb' 82 7 = BitVec.ofNat 7 sub := by
  unfold wordLI
  constructor <;>
  · repeat (first | rw [extract_lo _ _ _ _ (by decide)] | rw [extract_hi _ _ _ _ (by decide)])
    simp
/-- A well-formed instruction passes the checks of R33. -/
theorem checked_wellFormed {i : Instr} (h : WellFormed i) : checked 256 (.ok i) = .ok i := by
  unfold WellFormed at h; simp [checked, h]

end Sys2Proof
end

