-- ==== Sys2Proof/Laws/Memory.lean ====
section
/-! SUPPORT. Every operation on memory keeps its canonical form, and a read gives what the last write of the address left. -/

namespace Sys2Proof.Machine.Memory
open Bits

/-- A memory whose cells lie at and above an address lies above every lower one. -/
theorem above_mono {m : List Host.Cell} {lo hi : Nat} (h : lo ≤ hi) (hm : above hi m = true) : above lo m = true := by
  cases m with
  | nil => rfl
  | cons x m => simp only [above, Bool.and_eq_true, decide_eq_true_eq] at hm ⊢; exact ⟨⟨by omega, hm.1.2⟩, hm.2⟩
/-- An address below every cell reads as blank. -/
theorem get_below {m : List Host.Cell} {lo a : Nat} (hm : above lo m = true) (h : a < lo) : get m a = blank := by
  induction m generalizing lo with
  | nil => rfl
  | cons x m ih =>
    simp only [above, Bool.and_eq_true, decide_eq_true_eq] at hm
    rw [get, if_neg (by omega), ih hm.2 (by omega)]
theorem above_erase {m : List Host.Cell} {lo : Nat} (a : Nat) (hm : above lo m = true) : above lo (erase m a) = true := by
  induction m generalizing lo with
  | nil => rfl
  | cons x m ih =>
    simp only [above, Bool.and_eq_true, decide_eq_true_eq] at hm
    by_cases h : x.1 = a
    · simpa [erase, h] using above_mono (by omega) (ih hm.2)
    · simp [erase, h, above, hm.1.1, ih hm.2]; simpa using hm.1.2
theorem above_insert {m : List Host.Cell} {lo a : Nat} {b : Byte} (hb : b ≠ blank) (ha : lo ≤ a) (hm : above lo m = true) :
    above lo (insert m a b) = true := by
  induction m generalizing lo with
  | nil => simp [insert, above, ha, hb]
  | cons x m ih =>
    simp only [above, Bool.and_eq_true, decide_eq_true_eq] at hm
    by_cases h : x.1 = a
    · subst h; simp [insert, above, ha, hb, hm.2]
    · by_cases h2 : a < x.1
      · simp only [insert, if_neg h, if_pos h2, above, Bool.and_eq_true, decide_eq_true_eq, bne_iff_ne, ne_eq]
        exact ⟨⟨ha, hb⟩, ⟨⟨by omega, by simpa using hm.1.2⟩, hm.2⟩⟩
      · simp only [insert, if_neg h, if_neg h2, above, Bool.and_eq_true, decide_eq_true_eq]
        exact ⟨hm.1, ih (by omega) hm.2⟩
/-- A byte written keeps the canonical form. -/
theorem wf_set {m : List Host.Cell} (hm : wf m = true) (a : Nat) (b : Byte) : wf (set m a b) = true := by
  unfold set; split
  · exact above_erase a hm
  · exact above_insert ‹_› (Nat.zero_le a) hm
/-- Bytes written keep the canonical form. -/
theorem wf_write {m : List Host.Cell} (hm : wf m = true) (l : List (Nat × Byte)) : wf (write m l) = true := by
  induction l generalizing m with
  | nil => exact hm
  | cons x l ih => exact ih (wf_set hm x.1 x.2)
/-- Cells taken out keep the canonical form. -/
theorem wf_filter {m : List Host.Cell} (f : Host.Cell → Bool) {lo : Nat} (hm : above lo m = true) : above lo (m.filter f) = true := by
  induction m generalizing lo with
  | nil => rfl
  | cons x m ih =>
    simp only [above, Bool.and_eq_true, decide_eq_true_eq] at hm
    by_cases h : f x = true
    · simp only [List.filter_cons_of_pos h, above, Bool.and_eq_true, decide_eq_true_eq]; exact ⟨hm.1, ih hm.2⟩
    · rw [List.filter_cons_of_neg h]; exact above_mono (by omega) (ih hm.2)
theorem get_erase {m : List Host.Cell} (a e : Nat) : get (erase m a) e = if e = a then blank else get m e := by
  induction m with
  | nil => simp [erase, get]
  | cons x m ih =>
    obtain ⟨k, v⟩ := x
    by_cases h : k = a <;> by_cases h2 : k = e <;> grind [erase, get]
theorem get_insert {m : List Host.Cell} {lo : Nat} (hm : above lo m = true) (a e : Nat) (b : Byte) :
    get (insert m a b) e = if e = a then b else get m e := by
  induction m generalizing lo with
  | nil => simp [insert, get, eq_comm]
  | cons x m ih =>
    simp only [above, Bool.and_eq_true, decide_eq_true_eq] at hm
    obtain ⟨k, v⟩ := x
    have := @ih (k + 1) hm.2
    by_cases h : k = a <;> by_cases h2 : a < k <;> grind [insert, get]
/-- A read gives the byte that was written there, and every other address reads as before. -/
theorem get_set {m : List Host.Cell} (hm : wf m = true) (a e : Nat) (b : Byte) : get (set m a b) e = if e = a then b else get m e := by
  unfold set; split
  · subst b; exact get_erase a e
  · exact get_insert hm a e b
/-- Memories in canonical form that read alike are equal. -/
theorem eq_of_get {m n : List Host.Cell} {lo : Nat} (hm : above lo m = true) (hn : above lo n = true) (h : ∀ a, get m a = get n a) : m = n := by
  induction m generalizing lo n with
  | nil =>
    cases n with
    | nil => rfl
    | cons y n =>
      simp only [above, Bool.and_eq_true, decide_eq_true_eq, bne_iff_ne, ne_eq] at hn
      exact absurd (by simpa [get] using (h y.1).symm) hn.1.2
  | cons x m ih =>
    simp only [above, Bool.and_eq_true, decide_eq_true_eq, bne_iff_ne, ne_eq] at hm
    cases n with
    | nil => exact absurd (by simpa [get] using h x.1) hm.1.2
    | cons y n =>
      simp only [above, Bool.and_eq_true, decide_eq_true_eq, bne_iff_ne, ne_eq] at hn
      have hxy : x.1 = y.1 := by
        rcases Nat.lt_trichotomy x.1 y.1 with hl | he | hl
        · exact absurd (by simpa [get, Nat.ne_of_gt hl, get_below hn.2 (show x.1 < y.1 + 1 by omega)] using h x.1) hm.1.2
        · exact he
        · exact absurd (by simpa [get, Nat.ne_of_gt hl, get_below hm.2 (show y.1 < x.1 + 1 by omega)] using (h y.1).symm) hn.1.2
      have hv : x.2 = y.2 := by simpa [get, hxy] using h x.1
      have hr : m = n := ih hm.2 (hxy ▸ hn.2) (fun a => by
        by_cases ha : a ≤ x.1
        · rw [get_below hm.2 (by omega), get_below hn.2 (by omega)]
        · have := h a
          rwa [get, get, if_neg (by omega), if_neg (by omega)] at this)
      rw [hr, Prod.ext hxy hv]

end Sys2Proof.Machine.Memory
end

