-- ==== Sys2Proof/Laws/PerInstr.lean ====
section
/-! SUPPORT. Statements made of every instruction: each is encoded in as many 32-bit words as its kind has, an event in none. -/

namespace Sys2Proof.Laws.Encodes

/-- The number of 32-bit words of an instruction (R14 to R23), and whether it has words at all. -/
def Statement (i : Instr) : Prop := (encode i).map List.length = match wordKind i with
  | .scalar => some 1
  | .scalarX => some 2
  | .lane => some 3
  | .matrix => some 2
  | .event => none

theorem sadd : ∀ d a b f, Statement (.sadd d a b f) := fun _ _ _ _ => rfl
theorem ssub : ∀ d a b f, Statement (.ssub d a b f) := fun _ _ _ _ => rfl
theorem smul : ∀ d a b f, Statement (.smul d a b f) := fun _ _ _ _ => rfl
theorem smulh : ∀ d a b f, Statement (.smulh d a b f) := fun _ _ _ _ => rfl
theorem smin : ∀ d a b f, Statement (.smin d a b f) := fun _ _ _ _ => rfl
theorem smax : ∀ d a b f, Statement (.smax d a b f) := fun _ _ _ _ => rfl
theorem sabs : ∀ d a f, Statement (.sabs d a f) := fun _ _ _ => rfl
theorem sneg : ∀ d a f, Statement (.sneg d a f) := fun _ _ _ => rfl
theorem saddc : ∀ d a b f, Statement (.saddc d a b f) := fun _ _ _ _ => rfl
theorem sand : ∀ d a b f, Statement (.sand d a b f) := fun _ _ _ _ => rfl
theorem sor : ∀ d a b f, Statement (.sor d a b f) := fun _ _ _ _ => rfl
theorem sxor : ∀ d a b f, Statement (.sxor d a b f) := fun _ _ _ _ => rfl
theorem snot : ∀ d a f, Statement (.snot d a f) := fun _ _ _ => rfl
theorem sshl : ∀ d a b f, Statement (.sshl d a b f) := fun _ _ _ _ => rfl
theorem sshr : ∀ d a b f, Statement (.sshr d a b f) := fun _ _ _ _ => rfl
theorem ssra : ∀ d a b f, Statement (.ssra d a b f) := fun _ _ _ _ => rfl
theorem spopc : ∀ d a f, Statement (.spopc d a f) := fun _ _ _ => rfl
theorem sclz : ∀ d a f, Statement (.sclz d a f) := fun _ _ _ => rfl
theorem sbrev : ∀ d a f, Statement (.sbrev d a f) := fun _ _ _ => rfl
theorem smov : ∀ d a f, Statement (.smov d a f) := fun _ _ _ => rfl
theorem scmp : ∀ d a b c f, Statement (.scmp d a b c f) := fun _ _ _ _ _ => rfl
theorem sfadd : ∀ d a b f, Statement (.sfadd d a b f) := fun _ _ _ _ => rfl
theorem sfmul : ∀ d a b f, Statement (.sfmul d a b f) := fun _ _ _ _ => rfl
theorem sfmin : ∀ d a b f, Statement (.sfmin d a b f) := fun _ _ _ _ => rfl
theorem sfmax : ∀ d a b f, Statement (.sfmax d a b f) := fun _ _ _ _ => rfl
theorem scvt : ∀ d a t f, Statement (.scvt d a t f) := fun _ _ _ _ => rfl
theorem sfcmp : ∀ d a b c f, Statement (.sfcmp d a b c f) := fun _ _ _ _ _ => rfl
theorem saddImm : ∀ d a im, Statement (.saddImm d a im) := fun _ _ _ => rfl
theorem smulImm : ∀ d a im, Statement (.smulImm d a im) := fun _ _ _ => rfl
theorem sandImm : ∀ d a im, Statement (.sandImm d a im) := fun _ _ _ => rfl
theorem sorImm : ∀ d a im, Statement (.sorImm d a im) := fun _ _ _ => rfl
theorem sxorImm : ∀ d a im, Statement (.sxorImm d a im) := fun _ _ _ => rfl
theorem sshlImm : ∀ d a n, Statement (.sshlImm d a n) := fun _ _ _ => rfl
theorem sshrImm : ∀ d a n, Statement (.sshrImm d a n) := fun _ _ _ => rfl
theorem ssraImm : ∀ d a n, Statement (.ssraImm d a n) := fun _ _ _ => rfl
theorem sbfe : ∀ d a l p, Statement (.sbfe d a l p) := fun _ _ _ _ => rfl
theorem sbfi : ∀ d a l p, Statement (.sbfi d a l p) := fun _ _ _ _ => rfl
theorem sld : ∀ d a im, Statement (.sld d a im) := fun _ _ _ => rfl
theorem sst : ∀ d a im, Statement (.sst d a im) := fun _ _ _ => rfl
theorem cpy : ∀ a b e m, Statement (.cpy a b e m) := fun _ _ _ _ => rfl
theorem cpyg : ∀ a b e x, Statement (.cpyg a b e x) := fun _ _ _ _ => rfl
theorem cseal : ∀ d, Statement (.cseal d) := fun _ => rfl
theorem cwait : ∀ a, Statement (.cwait a) := fun _ => rfl
theorem cpoll : ∀ d a, Statement (.cpoll d a) := fun _ _ => rfl
theorem omap : ∀ a k, Statement (.omap a k) := fun _ _ => rfl
theorem ostat : ∀ d k, Statement (.ostat d k) := fun _ _ => rfl
theorem tdef : ∀ a b, Statement (.tdef a b) := fun _ _ => rfl
theorem trds : ∀ a b, Statement (.trds a b) := fun _ _ => rfl
theorem tkill : ∀ a, Statement (.tkill a) := fun _ => rfl
theorem tqry : ∀ d a, Statement (.tqry d a) := fun _ _ => rfl
theorem snapdef : ∀ a b, Statement (.snapdef a b) := fun _ _ => rfl
theorem snap : ∀ a, Statement (.snap a) := fun _ => rfl
theorem sacc : ∀ a, Statement (.sacc a) := fun _ => rfl
theorem srej : ∀ a o, Statement (.srej a o) := fun _ _ => rfl
theorem sqry : ∀ d a, Statement (.sqry d a) := fun _ _ => rfl
theorem ssweep : ∀ a, Statement (.ssweep a) := fun _ => rfl
theorem bar : ∀ d sc, Statement (.bar d sc) := fun _ _ => rfl
theorem nbinit : ∀ n a, Statement (.nbinit n a) := fun _ _ => rfl
theorem nbarr : ∀ n, Statement (.nbarr n) := fun _ => rfl
theorem nbwait : ∀ n a, Statement (.nbwait n a) := fun _ _ => rfl
theorem ctradd : ∀ a b o, Statement (.ctradd a b o) := fun _ _ _ => rfl
theorem ctrwait : ∀ a b o, Statement (.ctrwait a b o) := fun _ _ _ => rfl
theorem ticket : ∀ d a b, Statement (.ticket d a b) := fun _ _ _ => rfl
theorem diffmax : ∀ d a b, Statement (.diffmax d a b) := fun _ _ _ => rfl
theorem launch : ∀ d a b, Statement (.launch d a b) := fun _ _ _ => rfl
theorem launchDirect : ∀ d a b, Statement (.launchDirect d a b) := fun _ _ _ => rfl
theorem rmput : ∀ a b e, Statement (.rmput a b e) := fun _ _ _ => rfl
theorem rmget : ∀ a b e, Statement (.rmget a b e) := fun _ _ _ => rfl
theorem rmatom : ∀ d a b w op, Statement (.rmatom d a b w op) := fun _ _ _ _ _ => rfl
theorem rmatomCas : ∀ d a b w, Statement (.rmatomCas d a b w) := fun _ _ _ _ => rfl
theorem rmflush : ∀ a, Statement (.rmflush a) := fun _ => rfl
theorem keyset : ∀ d a b r, Statement (.keyset d a b r) := fun _ _ _ _ => rfl
theorem keyrev : ∀ a, Statement (.keyrev a) := fun _ => rfl
theorem flushp : ∀ a, Statement (.flushp a) := fun _ => rfl
theorem fence : ∀ o, Statement (.fence o) := fun _ => rfl
theorem linv : ∀ a b, Statement (.linv a b) := fun _ _ => rfl
theorem lwb : ∀ a b, Statement (.lwb a b) := fun _ _ => rfl
theorem saper : ∀ d a, Statement (.saper d a) := fun _ _ => rfl
theorem pprobe : ∀ d a k, Statement (.pprobe d a k) := fun _ _ _ => rfl
theorem tlbiRange : ∀ a b, Statement (.tlbiRange a b) := fun _ _ => rfl
theorem tlbiSset : ∀ a, Statement (.tlbiSset a) := fun _ => rfl
theorem sfmt : ∀ a, Statement (.sfmt a) := fun _ => rfl
theorem trialon : ∀ a b, Statement (.trialon a b) := fun _ _ => rfl
theorem trialoff : ∀ d, Statement (.trialoff d) := fun _ => rfl
theorem prog : ∀ c, Statement (.prog c) := fun _ => rfl
theorem bkpt : ∀ c, Statement (.bkpt c) := fun _ => rfl
theorem trap : ∀ a c, Statement (.trap a c) := fun _ _ => rfl
theorem sysr : ∀ d n, Statement (.sysr d n) := fun _ _ => rfl
theorem sysw : ∀ a n, Statement (.sysw a n) := fun _ _ => rfl
theorem preq : ∀ d a b, Statement (.preq d a b) := fun _ _ _ => rfl
theorem preqRst : ∀ d a b, Statement (.preqRst d a b) := fun _ _ _ => rfl
theorem halt : ∀ d a, Statement (.halt d a) := fun _ _ => rfl
theorem sret : ∀ a, Statement (.sret a) := fun _ => rfl
theorem spause : ∀ a, Statement (.spause a) := fun _ => rfl
theorem sbrZ : ∀ a o, Statement (.sbrZ a o) := fun _ _ => rfl
theorem sbrNz : ∀ a o, Statement (.sbrNz a o) := fun _ _ => rfl
theorem sjmp : ∀ o, Statement (.sjmp o) := fun _ => rfl
theorem scall : ∀ a o, Statement (.scall a o) := fun _ _ => rfl
theorem lissue : ∀ w0 w1 w2 w3 t, Statement (.lissue w0 w1 w2 w3 t) := fun _ _ _ _ _ => rfl
theorem sli : ∀ d im, Statement (.sli d im) := fun _ _ => rfl
theorem slih : ∀ d im, Statement (.slih d im) := fun _ _ => rfl
theorem slea : ∀ d a b n im, Statement (.slea d a b n im) := fun _ _ _ _ _ => rfl
theorem ssel : ∀ d a b c, Statement (.ssel d a b c) := fun _ _ _ _ => rfl
theorem sldX : ∀ d a x, Statement (.sldX d a x) := fun _ _ _ => rfl
theorem sstX : ∀ d a x, Statement (.sstX d a x) := fun _ _ _ => rfl
theorem satom : ∀ d a b op x, Statement (.satom d a b op x) := fun _ _ _ _ _ => rfl
theorem scas : ∀ d a b n x, Statement (.scas d a b n x) := fun _ _ _ _ _ => rfl
theorem fadd : ∀ w, Statement (.fadd w) := fun _ => rfl
theorem fmul : ∀ w, Statement (.fmul w) := fun _ => rfl
theorem ffma : ∀ w, Statement (.ffma w) := fun _ => rfl
theorem fmin : ∀ w, Statement (.fmin w) := fun _ => rfl
theorem fmax : ∀ w, Statement (.fmax w) := fun _ => rfl
theorem frnd : ∀ w, Statement (.frnd w) := fun _ => rfl
theorem fcmp : ∀ w, Statement (.fcmp w) := fun _ => rfl
theorem fdivc : ∀ w, Statement (.fdivc w) := fun _ => rfl
theorem frcp : ∀ w, Statement (.frcp w) := fun _ => rfl
theorem frsq : ∀ w, Statement (.frsq w) := fun _ => rfl
theorem fsqrt : ∀ w, Statement (.fsqrt w) := fun _ => rfl
theorem fex2 : ∀ w, Statement (.fex2 w) := fun _ => rfl
theorem flg2 : ∀ w, Statement (.flg2 w) := fun _ => rfl
theorem fsin : ∀ w, Statement (.fsin w) := fun _ => rfl
theorem fcos : ∀ w, Statement (.fcos w) := fun _ => rfl
theorem bfadd2 : ∀ w, Statement (.bfadd2 w) := fun _ => rfl
theorem bfmul2 : ∀ w, Statement (.bfmul2 w) := fun _ => rfl
theorem bffma2 : ∀ w, Statement (.bffma2 w) := fun _ => rfl
theorem bfmin2 : ∀ w, Statement (.bfmin2 w) := fun _ => rfl
theorem bfmax2 : ∀ w, Statement (.bfmax2 w) := fun _ => rfl
theorem dadd : ∀ w, Statement (.dadd w) := fun _ => rfl
theorem dmul : ∀ w, Statement (.dmul w) := fun _ => rfl
theorem dfma : ∀ w, Statement (.dfma w) := fun _ => rfl
theorem dmin : ∀ w, Statement (.dmin w) := fun _ => rfl
theorem dmax : ∀ w, Statement (.dmax w) := fun _ => rfl
theorem dcmp : ∀ w, Statement (.dcmp w) := fun _ => rfl
theorem drcp : ∀ w, Statement (.drcp w) := fun _ => rfl
theorem drsq : ∀ w, Statement (.drsq w) := fun _ => rfl
theorem dsqrt : ∀ w, Statement (.dsqrt w) := fun _ => rfl
theorem iadd : ∀ w, Statement (.iadd w) := fun _ => rfl
theorem isub : ∀ w, Statement (.isub w) := fun _ => rfl
theorem imul : ∀ w, Statement (.imul w) := fun _ => rfl
theorem imulh : ∀ w, Statement (.imulh w) := fun _ => rfl
theorem imad : ∀ w, Statement (.imad w) := fun _ => rfl
theorem imin : ∀ w, Statement (.imin w) := fun _ => rfl
theorem imax : ∀ w, Statement (.imax w) := fun _ => rfl
theorem iabs : ∀ w, Statement (.iabs w) := fun _ => rfl
theorem ineg : ∀ w, Statement (.ineg w) := fun _ => rfl
theorem iaddc : ∀ w, Statement (.iaddc w) := fun _ => rfl
theorem icmp : ∀ w, Statement (.icmp w) := fun _ => rfl
theorem land : ∀ w, Statement (.land w) := fun _ => rfl
theorem lor : ∀ w, Statement (.lor w) := fun _ => rfl
theorem lxor : ∀ w, Statement (.lxor w) := fun _ => rfl
theorem lnot : ∀ w, Statement (.lnot w) := fun _ => rfl
theorem shl : ∀ w, Statement (.shl w) := fun _ => rfl
theorem shr : ∀ w, Statement (.shr w) := fun _ => rfl
theorem sra : ∀ w, Statement (.sra w) := fun _ => rfl
theorem bfe : ∀ w, Statement (.bfe w) := fun _ => rfl
theorem bfi : ∀ w, Statement (.bfi w) := fun _ => rfl
theorem popc : ∀ w, Statement (.popc w) := fun _ => rfl
theorem clz : ∀ w, Statement (.clz w) := fun _ => rfl
theorem brev : ∀ w, Statement (.brev w) := fun _ => rfl
theorem cvt : ∀ w, Statement (.cvt w) := fun _ => rfl
theorem mov : ∀ w, Statement (.mov w) := fun _ => rfl
theorem sel : ∀ w, Statement (.sel w) := fun _ => rfl
theorem plop : ∀ w, Statement (.plop w) := fun _ => rfl
theorem movW : ∀ w, Statement (.movW w) := fun _ => rfl
theorem laneid : ∀ w, Statement (.laneid w) := fun _ => rfl
theorem movi : ∀ w, Statement (.movi w) := fun _ => rfl
theorem faddImm : ∀ w, Statement (.faddImm w) := fun _ => rfl
theorem fmulImm : ∀ w, Statement (.fmulImm w) := fun _ => rfl
theorem ffmaImm : ∀ w, Statement (.ffmaImm w) := fun _ => rfl
theorem fminImm : ∀ w, Statement (.fminImm w) := fun _ => rfl
theorem fmaxImm : ∀ w, Statement (.fmaxImm w) := fun _ => rfl
theorem fcmpImm : ∀ w, Statement (.fcmpImm w) := fun _ => rfl
theorem fdivcImm : ∀ w, Statement (.fdivcImm w) := fun _ => rfl
theorem bfadd2Imm : ∀ w, Statement (.bfadd2Imm w) := fun _ => rfl
theorem bfmul2Imm : ∀ w, Statement (.bfmul2Imm w) := fun _ => rfl
theorem bffma2Imm : ∀ w, Statement (.bffma2Imm w) := fun _ => rfl
theorem bfmin2Imm : ∀ w, Statement (.bfmin2Imm w) := fun _ => rfl
theorem bfmax2Imm : ∀ w, Statement (.bfmax2Imm w) := fun _ => rfl
theorem daddImm : ∀ w, Statement (.daddImm w) := fun _ => rfl
theorem dmulImm : ∀ w, Statement (.dmulImm w) := fun _ => rfl
theorem dfmaImm : ∀ w, Statement (.dfmaImm w) := fun _ => rfl
theorem dminImm : ∀ w, Statement (.dminImm w) := fun _ => rfl
theorem dmaxImm : ∀ w, Statement (.dmaxImm w) := fun _ => rfl
theorem dcmpImm : ∀ w, Statement (.dcmpImm w) := fun _ => rfl
theorem iaddImm : ∀ w, Statement (.iaddImm w) := fun _ => rfl
theorem isubImm : ∀ w, Statement (.isubImm w) := fun _ => rfl
theorem imulImm : ∀ w, Statement (.imulImm w) := fun _ => rfl
theorem imulhImm : ∀ w, Statement (.imulhImm w) := fun _ => rfl
theorem imadImm : ∀ w, Statement (.imadImm w) := fun _ => rfl
theorem iminImm : ∀ w, Statement (.iminImm w) := fun _ => rfl
theorem imaxImm : ∀ w, Statement (.imaxImm w) := fun _ => rfl
theorem iaddcImm : ∀ w, Statement (.iaddcImm w) := fun _ => rfl
theorem icmpImm : ∀ w, Statement (.icmpImm w) := fun _ => rfl
theorem landImm : ∀ w, Statement (.landImm w) := fun _ => rfl
theorem lorImm : ∀ w, Statement (.lorImm w) := fun _ => rfl
theorem lxorImm : ∀ w, Statement (.lxorImm w) := fun _ => rfl
theorem shlImm : ∀ w, Statement (.shlImm w) := fun _ => rfl
theorem shrImm : ∀ w, Statement (.shrImm w) := fun _ => rfl
theorem sraImm : ∀ w, Statement (.sraImm w) := fun _ => rfl
theorem bfeImm : ∀ w, Statement (.bfeImm w) := fun _ => rfl
theorem bfiImm : ∀ w, Statement (.bfiImm w) := fun _ => rfl
theorem shfl : ∀ w, Statement (.shfl w) := fun _ => rfl
theorem shflImm : ∀ w, Statement (.shflImm w) := fun _ => rfl
theorem vote : ∀ w, Statement (.vote w) := fun _ => rfl
theorem gred : ∀ w, Statement (.gred w) := fun _ => rfl
theorem gscan : ∀ w, Statement (.gscan w) := fun _ => rfl
theorem ld : ∀ w, Statement (.ld w) := fun _ => rfl
theorem st : ∀ w, Statement (.st w) := fun _ => rfl
theorem atom : ∀ w, Statement (.atom w) := fun _ => rfl
theorem cas : ∀ w, Statement (.cas w) := fun _ => rfl
theorem pref : ∀ w, Statement (.pref w) := fun _ => rfl
theorem ldImm : ∀ w, Statement (.ldImm w) := fun _ => rfl
theorem stImm : ∀ w, Statement (.stImm w) := fun _ => rfl
theorem prefImm : ∀ w, Statement (.prefImm w) := fun _ => rfl
theorem fez : ∀ w, Statement (.fez w) := fun _ => rfl
theorem feset : ∀ w, Statement (.feset w) := fun _ => rfl
theorem feq : ∀ w, Statement (.feq w) := fun _ => rfl
theorem lcpy : ∀ w, Statement (.lcpy w) := fun _ => rfl
theorem tdefv : ∀ w, Statement (.tdefv w) := fun _ => rfl
theorem trd : ∀ w, Statement (.trd w) := fun _ => rfl
theorem pushm : ∀ w, Statement (.pushm w) := fun _ => rfl
theorem popm : ∀ w, Statement (.popm w) := fun _ => rfl
theorem lfmt : ∀ w, Statement (.lfmt w) := fun _ => rfl
theorem rdspec : ∀ w, Statement (.rdspec w) := fun _ => rfl
theorem enq : ∀ w, Statement (.enq w) := fun _ => rfl
theorem enqd : ∀ w, Statement (.enqd w) := fun _ => rfl
theorem laneFence : ∀ w, Statement (.laneFence w) := fun _ => rfl
theorem bra : ∀ w, Statement (.bra w) := fun _ => rfl
theorem lcall : ∀ w, Statement (.lcall w) := fun _ => rfl
theorem lexit : ∀ w, Statement (.lexit w) := fun _ => rfl
theorem laneBkpt : ∀ w, Statement (.laneBkpt w) := fun _ => rfl
theorem laneProg : ∀ w, Statement (.laneProg w) := fun _ => rfl
theorem laneTrap : ∀ w, Statement (.laneTrap w) := fun _ => rfl
theorem mma : ∀ w, Statement (.mma w) := fun _ => rfl
theorem mmaq : ∀ w, Statement (.mmaq w) := fun _ => rfl
theorem mzero : ∀ w, Statement (.mzero w) := fun _ => rfl
theorem mlda : ∀ w, Statement (.mlda w) := fun _ => rfl
theorem msta : ∀ w, Statement (.msta w) := fun _ => rfl
theorem madda : ∀ w, Statement (.madda w) := fun _ => rfl
theorem mprdCnt : ∀ w, Statement (.mprdCnt w) := fun _ => rfl
theorem mprdQ : ∀ w, Statement (.mprdQ w) := fun _ => rfl
theorem msclSet : ∀ w, Statement (.msclSet w) := fun _ => rfl
theorem msclClr : ∀ w, Statement (.msclClr w) := fun _ => rfl
theorem tlbiCtx : Statement .tlbiCtx := rfl
theorem rft : Statement .rft := rfl
theorem rftSkip : Statement .rftSkip := rfl
theorem sexit : Statement .sexit := rfl
theorem lsync : Statement .lsync := rfl
theorem shint : Statement .shint := rfl
theorem lend : Statement .lend := rfl
theorem wide : Statement .wide := rfl
theorem endw : Statement .endw := rfl
theorem lret : Statement .lret := rfl
theorem hint : Statement .hint := rfl
theorem mnba : Statement .mnba := rfl
theorem mnbw : Statement .mnbw := rfl
theorem mwaits : Statement .mwaits := rfl
theorem mloop : Statement .mloop := rfl
theorem mend : Statement .mend := rfl
theorem mjmp : Statement .mjmp := rfl
theorem msafe : Statement .msafe := rfl
theorem mexit : Statement .mexit := rfl
theorem mhint : Statement .mhint := rfl
theorem srseedWrite : Statement .srseedWrite := rfl
theorem rlwaysWrite : Statement .rlwaysWrite := rfl
theorem parkResume : Statement .parkResume := rfl
theorem producerWrite : Statement .producerWrite := rfl
theorem laneBlockStart : Statement .laneBlockStart := rfl
theorem requestTableGrant : Statement .requestTableGrant := rfl
theorem faultResolved : Statement .faultResolved := rfl
theorem faultFatal : Statement .faultFatal := rfl
theorem maskedWriteback : Statement .maskedWriteback := rfl
theorem fillReturn : Statement .fillReturn := rfl
theorem remoteLineAgeExpiry : Statement .remoteLineAgeExpiry := rfl
theorem waitlistResend : Statement .waitlistResend := rfl
theorem copyStart : Statement .copyStart := rfl
theorem copyUnitWrite : Statement .copyUnitWrite := rfl
theorem copyComplete : Statement .copyComplete := rfl
theorem fetcherDeliver : Statement .fetcherDeliver := rfl
theorem matrixUnitComplete : Statement .matrixUnitComplete := rfl
theorem sequencerSaveTimeout : Statement .sequencerSaveTimeout := rfl
theorem tileOpAccept : Statement .tileOpAccept := rfl
theorem tileDefined : Statement .tileDefined := rfl
theorem tileDefineFail : Statement .tileDefineFail := rfl
theorem tileReadComplete : Statement .tileReadComplete := rfl
theorem tileKillEffect : Statement .tileKillEffect := rfl
theorem tilePlacementMove : Statement .tilePlacementMove := rfl
theorem tileDeadlock : Statement .tileDeadlock := rfl
theorem runAppend : Statement .runAppend := rfl
theorem remoteRecordArrival : Statement .remoteRecordArrival := rfl
theorem refillMove : Statement .refillMove := rfl
theorem portForward : Statement .portForward := rfl
theorem flitReceive : Statement .flitReceive := rfl
theorem escapeTreeRebuild : Statement .escapeTreeRebuild := rfl
theorem xoff : Statement .xoff := rfl
theorem xon : Statement .xon := rfl
theorem portXoff : Statement .portXoff := rfl
theorem progressTimerExpiry : Statement .progressTimerExpiry := rfl
theorem remoteLoadRequest : Statement .remoteLoadRequest := rfl
theorem remoteStoreArrival : Statement .remoteStoreArrival := rfl
theorem remoteAtomicRequest : Statement .remoteAtomicRequest := rfl
theorem rmaSegmentArrival : Statement .rmaSegmentArrival := rfl
theorem rmaChannelClose : Statement .rmaChannelClose := rfl
theorem ackReceive : Statement .ackReceive := rfl
theorem nackReceive : Statement .nackReceive := rfl
theorem retryReceive : Statement .retryReceive := rfl
theorem resendTimerExpiry : Statement .resendTimerExpiry := rfl
theorem summarySend : Statement .summarySend := rfl
theorem summaryReceive : Statement .summaryReceive := rfl
theorem terminationRound : Statement .terminationRound := rfl
theorem sinterMergeDone : Statement .sinterMergeDone := rfl
theorem sinterRestoreDone : Statement .sinterRestoreDone := rfl
theorem sinterGrowDone : Statement .sinterGrowDone := rfl
theorem sinterSweepDone : Statement .sinterSweepDone := rfl
theorem snapdefTagsDone : Statement .snapdefTagsDone := rfl
theorem preempt : Statement .preempt := rfl
theorem hostWrite : Statement .hostWrite := rfl
theorem hostRead : Statement .hostRead := rfl
theorem hostAtomic : Statement .hostAtomic := rfl
theorem doorbell : Statement .doorbell := rfl
theorem controlWindowWrite : Statement .controlWindowWrite := rfl
theorem partitionReset : Statement .partitionReset := rfl
theorem dbgen : Statement .dbgen := rfl
theorem debugStop : Statement .debugStop := rfl
theorem stopDump : Statement .stopDump := rfl
theorem debugResume : Statement .debugResume := rfl
theorem debugStep : Statement .debugStep := rfl
theorem commandStart : Statement .commandStart := rfl
theorem commandComplete : Statement .commandComplete := rfl
theorem geyserAgeingStep : Statement .geyserAgeingStep := rfl
theorem stealReqSend : Statement .stealReqSend := rfl
theorem stealReq : Statement .stealReq := rfl
theorem stealGrant : Statement .stealGrant := rfl
theorem vectorPendingSend : Statement .vectorPendingSend := rfl
theorem partitionDescriptorWrite : Statement .partitionDescriptorWrite := rfl
theorem powerOn : Statement .powerOn := rfl
theorem spdmGetVersion : Statement .spdmGetVersion := rfl
theorem spdmGetCapabilities : Statement .spdmGetCapabilities := rfl
theorem spdmNegotiateAlgorithms : Statement .spdmNegotiateAlgorithms := rfl
theorem spdmGetDigests : Statement .spdmGetDigests := rfl
theorem spdmGetCertificate : Statement .spdmGetCertificate := rfl
theorem spdmChallenge : Statement .spdmChallenge := rfl
theorem spdmGetMeasurements : Statement .spdmGetMeasurements := rfl
theorem spdmUnsupportedRequest : Statement .spdmUnsupportedRequest := rfl
theorem powerMeasurement : Statement .powerMeasurement := rfl
theorem thermalTrip : Statement .thermalTrip := rfl
theorem stallSample : Statement .stallSample := rfl
theorem acceptedByHostMemory : Statement .acceptedByHostMemory := rfl

end Sys2Proof.Laws.Encodes
end

