-- ==== Sys2Proof/Laws/State.lean ====
section
/-! SUPPORT. What each named update of the state leaves in each of its fields. -/

namespace Sys2Proof.Machine

/-! ## setGroup -/

@[simp] theorem setGroup_turn (s : State) (c sl : Nat) (g : Group) : (s.setGroup c sl g).turn = s.turn := rfl
@[simp] theorem setGroup_input (s : State) (c sl : Nat) (g : Group) : (s.setGroup c sl g).input = s.input := rfl
@[simp] theorem setGroup_word (s : State) (c sl : Nat) (g : Group) : (s.setGroup c sl g).word = s.word := rfl
@[simp] theorem setGroup_tick (s : State) (c sl : Nat) (g : Group) : (s.setGroup c sl g).tick = s.tick := rfl
@[simp] theorem setGroup_clock (s : State) (c sl : Nat) (g : Group) : (s.setGroup c sl g).clock = s.clock := rfl
@[simp] theorem setGroup_mem (s : State) (c sl : Nat) (g : Group) : (s.setGroup c sl g).mem = s.mem := rfl
@[simp] theorem setGroup_chip (s : State) (c sl : Nat) (g : Group) : (s.setGroup c sl g).chip = s.chip := rfl
@[simp] theorem setGroup_spad (s : State) (c sl : Nat) (g : Group) : (s.setGroup c sl g).spad = s.spad := rfl
@[simp] theorem setGroup_spadCtx (s : State) (c sl : Nat) (g : Group) : (s.setGroup c sl g).spadCtx = s.spadCtx := rfl
@[simp] theorem setGroup_full (s : State) (c sl : Nat) (g : Group) : (s.setGroup c sl g).full = s.full := rfl
@[simp] theorem setGroup_hostSize (s : State) (c sl : Nat) (g : Group) : (s.setGroup c sl g).hostSize = s.hostSize := rfl
@[simp] theorem setGroup_devnum (s : State) (c sl : Nat) (g : Group) : (s.setGroup c sl g).devnum = s.devnum := rfl
@[simp] theorem setGroup_groups (s : State) (c sl : Nat) (g : Group) : (s.setGroup c sl g).groups = s.groups.set (c * 48 + sl) g := rfl
@[simp] theorem setGroup_blocks (s : State) (c sl : Nat) (g : Group) : (s.setGroup c sl g).blocks = s.blocks := rfl
@[simp] theorem setGroup_nbhds (s : State) (c sl : Nat) (g : Group) : (s.setGroup c sl g).nbhds = s.nbhds := rfl
@[simp] theorem setGroup_cores (s : State) (c sl : Nat) (g : Group) : (s.setGroup c sl g).cores = s.cores := rfl
@[simp] theorem setGroup_dies (s : State) (c sl : Nat) (g : Group) : (s.setGroup c sl g).dies = s.dies := rfl
@[simp] theorem setGroup_ctxs (s : State) (c sl : Nat) (g : Group) : (s.setGroup c sl g).ctxs = s.ctxs := rfl
@[simp] theorem setGroup_parts (s : State) (c sl : Nat) (g : Group) : (s.setGroup c sl g).parts = s.parts := rfl
@[simp] theorem setGroup_faults (s : State) (c sl : Nat) (g : Group) : (s.setGroup c sl g).faults = s.faults := rfl
@[simp] theorem setGroup_fills (s : State) (c sl : Nat) (g : Group) : (s.setGroup c sl g).fills = s.fills := rfl
@[simp] theorem setGroup_tags (s : State) (c sl : Nat) (g : Group) : (s.setGroup c sl g).tags = s.tags := rfl
@[simp] theorem setGroup_pageMap (s : State) (c sl : Nat) (g : Group) : (s.setGroup c sl g).pageMap = s.pageMap := rfl
@[simp] theorem setGroup_regions (s : State) (c sl : Nat) (g : Group) : (s.setGroup c sl g).regions = s.regions := rfl
@[simp] theorem setGroup_links (s : State) (c sl : Nat) (g : Group) : (s.setGroup c sl g).links = s.links := rfl
@[simp] theorem setGroup_requests (s : State) (c sl : Nat) (g : Group) : (s.setGroup c sl g).requests = s.requests := rfl
@[simp] theorem setGroup_chans (s : State) (c sl : Nat) (g : Group) : (s.setGroup c sl g).chans = s.chans := rfl
@[simp] theorem setGroup_tchans (s : State) (c sl : Nat) (g : Group) : (s.setGroup c sl g).tchans = s.tchans := rfl
@[simp] theorem setGroup_answers (s : State) (c sl : Nat) (g : Group) : (s.setGroup c sl g).answers = s.answers := rfl
@[simp] theorem setGroup_hostWrites (s : State) (c sl : Nat) (g : Group) : (s.setGroup c sl g).hostWrites = s.hostWrites := rfl
@[simp] theorem setGroup_hostHeld (s : State) (c sl : Nat) (g : Group) : (s.setGroup c sl g).hostHeld = s.hostHeld := rfl
@[simp] theorem setGroup_runs (s : State) (c sl : Nat) (g : Group) : (s.setGroup c sl g).runs = s.runs := rfl
@[simp] theorem setGroup_outbound (s : State) (c sl : Nat) (g : Group) : (s.setGroup c sl g).outbound = s.outbound := rfl
@[simp] theorem setGroup_uqs (s : State) (c sl : Nat) (g : Group) : (s.setGroup c sl g).uqs = s.uqs := rfl
@[simp] theorem setGroup_cmds (s : State) (c sl : Nat) (g : Group) : (s.setGroup c sl g).cmds = s.cmds := rfl
@[simp] theorem setGroup_graphs (s : State) (c sl : Nat) (g : Group) : (s.setGroup c sl g).graphs = s.graphs := rfl
@[simp] theorem setGroup_saveOps (s : State) (c sl : Nat) (g : Group) : (s.setGroup c sl g).saveOps = s.saveOps := rfl
@[simp] theorem setGroup_saves (s : State) (c sl : Nat) (g : Group) : (s.setGroup c sl g).saves = s.saves := rfl
@[simp] theorem setGroup_mgmt (s : State) (c sl : Nat) (g : Group) : (s.setGroup c sl g).mgmt = s.mgmt := rfl
@[simp] theorem setGroup_nextId (s : State) (c sl : Nat) (g : Group) : (s.setGroup c sl g).nextId = s.nextId := rfl
@[simp] theorem setGroup_free (s : State) (c sl : Nat) (g : Group) : (s.setGroup c sl g).free = s.free := rfl

/-! ## updGroup -/

@[simp] theorem updGroup_turn (s : State) (c sl : Nat) (f : Group → Group) : (s.updGroup c sl f).turn = s.turn := rfl
@[simp] theorem updGroup_input (s : State) (c sl : Nat) (f : Group → Group) : (s.updGroup c sl f).input = s.input := rfl
@[simp] theorem updGroup_word (s : State) (c sl : Nat) (f : Group → Group) : (s.updGroup c sl f).word = s.word := rfl
@[simp] theorem updGroup_tick (s : State) (c sl : Nat) (f : Group → Group) : (s.updGroup c sl f).tick = s.tick := rfl
@[simp] theorem updGroup_clock (s : State) (c sl : Nat) (f : Group → Group) : (s.updGroup c sl f).clock = s.clock := rfl
@[simp] theorem updGroup_mem (s : State) (c sl : Nat) (f : Group → Group) : (s.updGroup c sl f).mem = s.mem := rfl
@[simp] theorem updGroup_chip (s : State) (c sl : Nat) (f : Group → Group) : (s.updGroup c sl f).chip = s.chip := rfl
@[simp] theorem updGroup_spad (s : State) (c sl : Nat) (f : Group → Group) : (s.updGroup c sl f).spad = s.spad := rfl
@[simp] theorem updGroup_spadCtx (s : State) (c sl : Nat) (f : Group → Group) : (s.updGroup c sl f).spadCtx = s.spadCtx := rfl
@[simp] theorem updGroup_full (s : State) (c sl : Nat) (f : Group → Group) : (s.updGroup c sl f).full = s.full := rfl
@[simp] theorem updGroup_hostSize (s : State) (c sl : Nat) (f : Group → Group) : (s.updGroup c sl f).hostSize = s.hostSize := rfl
@[simp] theorem updGroup_devnum (s : State) (c sl : Nat) (f : Group → Group) : (s.updGroup c sl f).devnum = s.devnum := rfl
@[simp] theorem updGroup_groups (s : State) (c sl : Nat) (f : Group → Group) : (s.updGroup c sl f).groups = s.groups.modify f (c * 48 + sl) := rfl
@[simp] theorem updGroup_blocks (s : State) (c sl : Nat) (f : Group → Group) : (s.updGroup c sl f).blocks = s.blocks := rfl
@[simp] theorem updGroup_nbhds (s : State) (c sl : Nat) (f : Group → Group) : (s.updGroup c sl f).nbhds = s.nbhds := rfl
@[simp] theorem updGroup_cores (s : State) (c sl : Nat) (f : Group → Group) : (s.updGroup c sl f).cores = s.cores := rfl
@[simp] theorem updGroup_dies (s : State) (c sl : Nat) (f : Group → Group) : (s.updGroup c sl f).dies = s.dies := rfl
@[simp] theorem updGroup_ctxs (s : State) (c sl : Nat) (f : Group → Group) : (s.updGroup c sl f).ctxs = s.ctxs := rfl
@[simp] theorem updGroup_parts (s : State) (c sl : Nat) (f : Group → Group) : (s.updGroup c sl f).parts = s.parts := rfl
@[simp] theorem updGroup_faults (s : State) (c sl : Nat) (f : Group → Group) : (s.updGroup c sl f).faults = s.faults := rfl
@[simp] theorem updGroup_fills (s : State) (c sl : Nat) (f : Group → Group) : (s.updGroup c sl f).fills = s.fills := rfl
@[simp] theorem updGroup_tags (s : State) (c sl : Nat) (f : Group → Group) : (s.updGroup c sl f).tags = s.tags := rfl
@[simp] theorem updGroup_pageMap (s : State) (c sl : Nat) (f : Group → Group) : (s.updGroup c sl f).pageMap = s.pageMap := rfl
@[simp] theorem updGroup_regions (s : State) (c sl : Nat) (f : Group → Group) : (s.updGroup c sl f).regions = s.regions := rfl
@[simp] theorem updGroup_links (s : State) (c sl : Nat) (f : Group → Group) : (s.updGroup c sl f).links = s.links := rfl
@[simp] theorem updGroup_requests (s : State) (c sl : Nat) (f : Group → Group) : (s.updGroup c sl f).requests = s.requests := rfl
@[simp] theorem updGroup_chans (s : State) (c sl : Nat) (f : Group → Group) : (s.updGroup c sl f).chans = s.chans := rfl
@[simp] theorem updGroup_tchans (s : State) (c sl : Nat) (f : Group → Group) : (s.updGroup c sl f).tchans = s.tchans := rfl
@[simp] theorem updGroup_answers (s : State) (c sl : Nat) (f : Group → Group) : (s.updGroup c sl f).answers = s.answers := rfl
@[simp] theorem updGroup_hostWrites (s : State) (c sl : Nat) (f : Group → Group) : (s.updGroup c sl f).hostWrites = s.hostWrites := rfl
@[simp] theorem updGroup_hostHeld (s : State) (c sl : Nat) (f : Group → Group) : (s.updGroup c sl f).hostHeld = s.hostHeld := rfl
@[simp] theorem updGroup_runs (s : State) (c sl : Nat) (f : Group → Group) : (s.updGroup c sl f).runs = s.runs := rfl
@[simp] theorem updGroup_outbound (s : State) (c sl : Nat) (f : Group → Group) : (s.updGroup c sl f).outbound = s.outbound := rfl
@[simp] theorem updGroup_uqs (s : State) (c sl : Nat) (f : Group → Group) : (s.updGroup c sl f).uqs = s.uqs := rfl
@[simp] theorem updGroup_cmds (s : State) (c sl : Nat) (f : Group → Group) : (s.updGroup c sl f).cmds = s.cmds := rfl
@[simp] theorem updGroup_graphs (s : State) (c sl : Nat) (f : Group → Group) : (s.updGroup c sl f).graphs = s.graphs := rfl
@[simp] theorem updGroup_saveOps (s : State) (c sl : Nat) (f : Group → Group) : (s.updGroup c sl f).saveOps = s.saveOps := rfl
@[simp] theorem updGroup_saves (s : State) (c sl : Nat) (f : Group → Group) : (s.updGroup c sl f).saves = s.saves := rfl
@[simp] theorem updGroup_mgmt (s : State) (c sl : Nat) (f : Group → Group) : (s.updGroup c sl f).mgmt = s.mgmt := rfl
@[simp] theorem updGroup_nextId (s : State) (c sl : Nat) (f : Group → Group) : (s.updGroup c sl f).nextId = s.nextId := rfl
@[simp] theorem updGroup_free (s : State) (c sl : Nat) (f : Group → Group) : (s.updGroup c sl f).free = s.free := rfl

/-! ## setBlock -/

@[simp] theorem setBlock_turn (s : State) (b : Nat) (x : Block) : (s.setBlock b x).turn = s.turn := rfl
@[simp] theorem setBlock_input (s : State) (b : Nat) (x : Block) : (s.setBlock b x).input = s.input := rfl
@[simp] theorem setBlock_word (s : State) (b : Nat) (x : Block) : (s.setBlock b x).word = s.word := rfl
@[simp] theorem setBlock_tick (s : State) (b : Nat) (x : Block) : (s.setBlock b x).tick = s.tick := rfl
@[simp] theorem setBlock_clock (s : State) (b : Nat) (x : Block) : (s.setBlock b x).clock = s.clock := rfl
@[simp] theorem setBlock_mem (s : State) (b : Nat) (x : Block) : (s.setBlock b x).mem = s.mem := rfl
@[simp] theorem setBlock_chip (s : State) (b : Nat) (x : Block) : (s.setBlock b x).chip = s.chip := rfl
@[simp] theorem setBlock_spad (s : State) (b : Nat) (x : Block) : (s.setBlock b x).spad = s.spad := rfl
@[simp] theorem setBlock_spadCtx (s : State) (b : Nat) (x : Block) : (s.setBlock b x).spadCtx = s.spadCtx := rfl
@[simp] theorem setBlock_full (s : State) (b : Nat) (x : Block) : (s.setBlock b x).full = s.full := rfl
@[simp] theorem setBlock_hostSize (s : State) (b : Nat) (x : Block) : (s.setBlock b x).hostSize = s.hostSize := rfl
@[simp] theorem setBlock_devnum (s : State) (b : Nat) (x : Block) : (s.setBlock b x).devnum = s.devnum := rfl
@[simp] theorem setBlock_groups (s : State) (b : Nat) (x : Block) : (s.setBlock b x).groups = s.groups := rfl
@[simp] theorem setBlock_blocks (s : State) (b : Nat) (x : Block) : (s.setBlock b x).blocks = s.blocks.set b x := rfl
@[simp] theorem setBlock_nbhds (s : State) (b : Nat) (x : Block) : (s.setBlock b x).nbhds = s.nbhds := rfl
@[simp] theorem setBlock_cores (s : State) (b : Nat) (x : Block) : (s.setBlock b x).cores = s.cores := rfl
@[simp] theorem setBlock_dies (s : State) (b : Nat) (x : Block) : (s.setBlock b x).dies = s.dies := rfl
@[simp] theorem setBlock_ctxs (s : State) (b : Nat) (x : Block) : (s.setBlock b x).ctxs = s.ctxs := rfl
@[simp] theorem setBlock_parts (s : State) (b : Nat) (x : Block) : (s.setBlock b x).parts = s.parts := rfl
@[simp] theorem setBlock_faults (s : State) (b : Nat) (x : Block) : (s.setBlock b x).faults = s.faults := rfl
@[simp] theorem setBlock_fills (s : State) (b : Nat) (x : Block) : (s.setBlock b x).fills = s.fills := rfl
@[simp] theorem setBlock_tags (s : State) (b : Nat) (x : Block) : (s.setBlock b x).tags = s.tags := rfl
@[simp] theorem setBlock_pageMap (s : State) (b : Nat) (x : Block) : (s.setBlock b x).pageMap = s.pageMap := rfl
@[simp] theorem setBlock_regions (s : State) (b : Nat) (x : Block) : (s.setBlock b x).regions = s.regions := rfl
@[simp] theorem setBlock_links (s : State) (b : Nat) (x : Block) : (s.setBlock b x).links = s.links := rfl
@[simp] theorem setBlock_requests (s : State) (b : Nat) (x : Block) : (s.setBlock b x).requests = s.requests := rfl
@[simp] theorem setBlock_chans (s : State) (b : Nat) (x : Block) : (s.setBlock b x).chans = s.chans := rfl
@[simp] theorem setBlock_tchans (s : State) (b : Nat) (x : Block) : (s.setBlock b x).tchans = s.tchans := rfl
@[simp] theorem setBlock_answers (s : State) (b : Nat) (x : Block) : (s.setBlock b x).answers = s.answers := rfl
@[simp] theorem setBlock_hostWrites (s : State) (b : Nat) (x : Block) : (s.setBlock b x).hostWrites = s.hostWrites := rfl
@[simp] theorem setBlock_hostHeld (s : State) (b : Nat) (x : Block) : (s.setBlock b x).hostHeld = s.hostHeld := rfl
@[simp] theorem setBlock_runs (s : State) (b : Nat) (x : Block) : (s.setBlock b x).runs = s.runs := rfl
@[simp] theorem setBlock_outbound (s : State) (b : Nat) (x : Block) : (s.setBlock b x).outbound = s.outbound := rfl
@[simp] theorem setBlock_uqs (s : State) (b : Nat) (x : Block) : (s.setBlock b x).uqs = s.uqs := rfl
@[simp] theorem setBlock_cmds (s : State) (b : Nat) (x : Block) : (s.setBlock b x).cmds = s.cmds := rfl
@[simp] theorem setBlock_graphs (s : State) (b : Nat) (x : Block) : (s.setBlock b x).graphs = s.graphs := rfl
@[simp] theorem setBlock_saveOps (s : State) (b : Nat) (x : Block) : (s.setBlock b x).saveOps = s.saveOps := rfl
@[simp] theorem setBlock_saves (s : State) (b : Nat) (x : Block) : (s.setBlock b x).saves = s.saves := rfl
@[simp] theorem setBlock_mgmt (s : State) (b : Nat) (x : Block) : (s.setBlock b x).mgmt = s.mgmt := rfl
@[simp] theorem setBlock_nextId (s : State) (b : Nat) (x : Block) : (s.setBlock b x).nextId = s.nextId := rfl
@[simp] theorem setBlock_free (s : State) (b : Nat) (x : Block) : (s.setBlock b x).free = s.free := rfl

/-! ## updBlock -/

@[simp] theorem updBlock_turn (s : State) (b : Nat) (f : Block → Block) : (s.updBlock b f).turn = s.turn := rfl
@[simp] theorem updBlock_input (s : State) (b : Nat) (f : Block → Block) : (s.updBlock b f).input = s.input := rfl
@[simp] theorem updBlock_word (s : State) (b : Nat) (f : Block → Block) : (s.updBlock b f).word = s.word := rfl
@[simp] theorem updBlock_tick (s : State) (b : Nat) (f : Block → Block) : (s.updBlock b f).tick = s.tick := rfl
@[simp] theorem updBlock_clock (s : State) (b : Nat) (f : Block → Block) : (s.updBlock b f).clock = s.clock := rfl
@[simp] theorem updBlock_mem (s : State) (b : Nat) (f : Block → Block) : (s.updBlock b f).mem = s.mem := rfl
@[simp] theorem updBlock_chip (s : State) (b : Nat) (f : Block → Block) : (s.updBlock b f).chip = s.chip := rfl
@[simp] theorem updBlock_spad (s : State) (b : Nat) (f : Block → Block) : (s.updBlock b f).spad = s.spad := rfl
@[simp] theorem updBlock_spadCtx (s : State) (b : Nat) (f : Block → Block) : (s.updBlock b f).spadCtx = s.spadCtx := rfl
@[simp] theorem updBlock_full (s : State) (b : Nat) (f : Block → Block) : (s.updBlock b f).full = s.full := rfl
@[simp] theorem updBlock_hostSize (s : State) (b : Nat) (f : Block → Block) : (s.updBlock b f).hostSize = s.hostSize := rfl
@[simp] theorem updBlock_devnum (s : State) (b : Nat) (f : Block → Block) : (s.updBlock b f).devnum = s.devnum := rfl
@[simp] theorem updBlock_groups (s : State) (b : Nat) (f : Block → Block) : (s.updBlock b f).groups = s.groups := rfl
@[simp] theorem updBlock_blocks (s : State) (b : Nat) (f : Block → Block) : (s.updBlock b f).blocks = s.blocks.modify f b := rfl
@[simp] theorem updBlock_nbhds (s : State) (b : Nat) (f : Block → Block) : (s.updBlock b f).nbhds = s.nbhds := rfl
@[simp] theorem updBlock_cores (s : State) (b : Nat) (f : Block → Block) : (s.updBlock b f).cores = s.cores := rfl
@[simp] theorem updBlock_dies (s : State) (b : Nat) (f : Block → Block) : (s.updBlock b f).dies = s.dies := rfl
@[simp] theorem updBlock_ctxs (s : State) (b : Nat) (f : Block → Block) : (s.updBlock b f).ctxs = s.ctxs := rfl
@[simp] theorem updBlock_parts (s : State) (b : Nat) (f : Block → Block) : (s.updBlock b f).parts = s.parts := rfl
@[simp] theorem updBlock_faults (s : State) (b : Nat) (f : Block → Block) : (s.updBlock b f).faults = s.faults := rfl
@[simp] theorem updBlock_fills (s : State) (b : Nat) (f : Block → Block) : (s.updBlock b f).fills = s.fills := rfl
@[simp] theorem updBlock_tags (s : State) (b : Nat) (f : Block → Block) : (s.updBlock b f).tags = s.tags := rfl
@[simp] theorem updBlock_pageMap (s : State) (b : Nat) (f : Block → Block) : (s.updBlock b f).pageMap = s.pageMap := rfl
@[simp] theorem updBlock_regions (s : State) (b : Nat) (f : Block → Block) : (s.updBlock b f).regions = s.regions := rfl
@[simp] theorem updBlock_links (s : State) (b : Nat) (f : Block → Block) : (s.updBlock b f).links = s.links := rfl
@[simp] theorem updBlock_requests (s : State) (b : Nat) (f : Block → Block) : (s.updBlock b f).requests = s.requests := rfl
@[simp] theorem updBlock_chans (s : State) (b : Nat) (f : Block → Block) : (s.updBlock b f).chans = s.chans := rfl
@[simp] theorem updBlock_tchans (s : State) (b : Nat) (f : Block → Block) : (s.updBlock b f).tchans = s.tchans := rfl
@[simp] theorem updBlock_answers (s : State) (b : Nat) (f : Block → Block) : (s.updBlock b f).answers = s.answers := rfl
@[simp] theorem updBlock_hostWrites (s : State) (b : Nat) (f : Block → Block) : (s.updBlock b f).hostWrites = s.hostWrites := rfl
@[simp] theorem updBlock_hostHeld (s : State) (b : Nat) (f : Block → Block) : (s.updBlock b f).hostHeld = s.hostHeld := rfl
@[simp] theorem updBlock_runs (s : State) (b : Nat) (f : Block → Block) : (s.updBlock b f).runs = s.runs := rfl
@[simp] theorem updBlock_outbound (s : State) (b : Nat) (f : Block → Block) : (s.updBlock b f).outbound = s.outbound := rfl
@[simp] theorem updBlock_uqs (s : State) (b : Nat) (f : Block → Block) : (s.updBlock b f).uqs = s.uqs := rfl
@[simp] theorem updBlock_cmds (s : State) (b : Nat) (f : Block → Block) : (s.updBlock b f).cmds = s.cmds := rfl
@[simp] theorem updBlock_graphs (s : State) (b : Nat) (f : Block → Block) : (s.updBlock b f).graphs = s.graphs := rfl
@[simp] theorem updBlock_saveOps (s : State) (b : Nat) (f : Block → Block) : (s.updBlock b f).saveOps = s.saveOps := rfl
@[simp] theorem updBlock_saves (s : State) (b : Nat) (f : Block → Block) : (s.updBlock b f).saves = s.saves := rfl
@[simp] theorem updBlock_mgmt (s : State) (b : Nat) (f : Block → Block) : (s.updBlock b f).mgmt = s.mgmt := rfl
@[simp] theorem updBlock_nextId (s : State) (b : Nat) (f : Block → Block) : (s.updBlock b f).nextId = s.nextId := rfl
@[simp] theorem updBlock_free (s : State) (b : Nat) (f : Block → Block) : (s.updBlock b f).free = s.free := rfl

/-! ## updNbhd -/

@[simp] theorem updNbhd_turn (s : State) (n : Nat) (f : Nbhd → Nbhd) : (s.updNbhd n f).turn = s.turn := rfl
@[simp] theorem updNbhd_input (s : State) (n : Nat) (f : Nbhd → Nbhd) : (s.updNbhd n f).input = s.input := rfl
@[simp] theorem updNbhd_word (s : State) (n : Nat) (f : Nbhd → Nbhd) : (s.updNbhd n f).word = s.word := rfl
@[simp] theorem updNbhd_tick (s : State) (n : Nat) (f : Nbhd → Nbhd) : (s.updNbhd n f).tick = s.tick := rfl
@[simp] theorem updNbhd_clock (s : State) (n : Nat) (f : Nbhd → Nbhd) : (s.updNbhd n f).clock = s.clock := rfl
@[simp] theorem updNbhd_mem (s : State) (n : Nat) (f : Nbhd → Nbhd) : (s.updNbhd n f).mem = s.mem := rfl
@[simp] theorem updNbhd_chip (s : State) (n : Nat) (f : Nbhd → Nbhd) : (s.updNbhd n f).chip = s.chip := rfl
@[simp] theorem updNbhd_spad (s : State) (n : Nat) (f : Nbhd → Nbhd) : (s.updNbhd n f).spad = s.spad := rfl
@[simp] theorem updNbhd_spadCtx (s : State) (n : Nat) (f : Nbhd → Nbhd) : (s.updNbhd n f).spadCtx = s.spadCtx := rfl
@[simp] theorem updNbhd_full (s : State) (n : Nat) (f : Nbhd → Nbhd) : (s.updNbhd n f).full = s.full := rfl
@[simp] theorem updNbhd_hostSize (s : State) (n : Nat) (f : Nbhd → Nbhd) : (s.updNbhd n f).hostSize = s.hostSize := rfl
@[simp] theorem updNbhd_devnum (s : State) (n : Nat) (f : Nbhd → Nbhd) : (s.updNbhd n f).devnum = s.devnum := rfl
@[simp] theorem updNbhd_groups (s : State) (n : Nat) (f : Nbhd → Nbhd) : (s.updNbhd n f).groups = s.groups := rfl
@[simp] theorem updNbhd_blocks (s : State) (n : Nat) (f : Nbhd → Nbhd) : (s.updNbhd n f).blocks = s.blocks := rfl
@[simp] theorem updNbhd_nbhds (s : State) (n : Nat) (f : Nbhd → Nbhd) : (s.updNbhd n f).nbhds = s.nbhds.modify f n := rfl
@[simp] theorem updNbhd_cores (s : State) (n : Nat) (f : Nbhd → Nbhd) : (s.updNbhd n f).cores = s.cores := rfl
@[simp] theorem updNbhd_dies (s : State) (n : Nat) (f : Nbhd → Nbhd) : (s.updNbhd n f).dies = s.dies := rfl
@[simp] theorem updNbhd_ctxs (s : State) (n : Nat) (f : Nbhd → Nbhd) : (s.updNbhd n f).ctxs = s.ctxs := rfl
@[simp] theorem updNbhd_parts (s : State) (n : Nat) (f : Nbhd → Nbhd) : (s.updNbhd n f).parts = s.parts := rfl
@[simp] theorem updNbhd_faults (s : State) (n : Nat) (f : Nbhd → Nbhd) : (s.updNbhd n f).faults = s.faults := rfl
@[simp] theorem updNbhd_fills (s : State) (n : Nat) (f : Nbhd → Nbhd) : (s.updNbhd n f).fills = s.fills := rfl
@[simp] theorem updNbhd_tags (s : State) (n : Nat) (f : Nbhd → Nbhd) : (s.updNbhd n f).tags = s.tags := rfl
@[simp] theorem updNbhd_pageMap (s : State) (n : Nat) (f : Nbhd → Nbhd) : (s.updNbhd n f).pageMap = s.pageMap := rfl
@[simp] theorem updNbhd_regions (s : State) (n : Nat) (f : Nbhd → Nbhd) : (s.updNbhd n f).regions = s.regions := rfl
@[simp] theorem updNbhd_links (s : State) (n : Nat) (f : Nbhd → Nbhd) : (s.updNbhd n f).links = s.links := rfl
@[simp] theorem updNbhd_requests (s : State) (n : Nat) (f : Nbhd → Nbhd) : (s.updNbhd n f).requests = s.requests := rfl
@[simp] theorem updNbhd_chans (s : State) (n : Nat) (f : Nbhd → Nbhd) : (s.updNbhd n f).chans = s.chans := rfl
@[simp] theorem updNbhd_tchans (s : State) (n : Nat) (f : Nbhd → Nbhd) : (s.updNbhd n f).tchans = s.tchans := rfl
@[simp] theorem updNbhd_answers (s : State) (n : Nat) (f : Nbhd → Nbhd) : (s.updNbhd n f).answers = s.answers := rfl
@[simp] theorem updNbhd_hostWrites (s : State) (n : Nat) (f : Nbhd → Nbhd) : (s.updNbhd n f).hostWrites = s.hostWrites := rfl
@[simp] theorem updNbhd_hostHeld (s : State) (n : Nat) (f : Nbhd → Nbhd) : (s.updNbhd n f).hostHeld = s.hostHeld := rfl
@[simp] theorem updNbhd_runs (s : State) (n : Nat) (f : Nbhd → Nbhd) : (s.updNbhd n f).runs = s.runs := rfl
@[simp] theorem updNbhd_outbound (s : State) (n : Nat) (f : Nbhd → Nbhd) : (s.updNbhd n f).outbound = s.outbound := rfl
@[simp] theorem updNbhd_uqs (s : State) (n : Nat) (f : Nbhd → Nbhd) : (s.updNbhd n f).uqs = s.uqs := rfl
@[simp] theorem updNbhd_cmds (s : State) (n : Nat) (f : Nbhd → Nbhd) : (s.updNbhd n f).cmds = s.cmds := rfl
@[simp] theorem updNbhd_graphs (s : State) (n : Nat) (f : Nbhd → Nbhd) : (s.updNbhd n f).graphs = s.graphs := rfl
@[simp] theorem updNbhd_saveOps (s : State) (n : Nat) (f : Nbhd → Nbhd) : (s.updNbhd n f).saveOps = s.saveOps := rfl
@[simp] theorem updNbhd_saves (s : State) (n : Nat) (f : Nbhd → Nbhd) : (s.updNbhd n f).saves = s.saves := rfl
@[simp] theorem updNbhd_mgmt (s : State) (n : Nat) (f : Nbhd → Nbhd) : (s.updNbhd n f).mgmt = s.mgmt := rfl
@[simp] theorem updNbhd_nextId (s : State) (n : Nat) (f : Nbhd → Nbhd) : (s.updNbhd n f).nextId = s.nextId := rfl
@[simp] theorem updNbhd_free (s : State) (n : Nat) (f : Nbhd → Nbhd) : (s.updNbhd n f).free = s.free := rfl

/-! ## setCore -/

@[simp] theorem setCore_turn (s : State) (c : Nat) (k : Core) : (s.setCore c k).turn = s.turn := rfl
@[simp] theorem setCore_input (s : State) (c : Nat) (k : Core) : (s.setCore c k).input = s.input := rfl
@[simp] theorem setCore_word (s : State) (c : Nat) (k : Core) : (s.setCore c k).word = s.word := rfl
@[simp] theorem setCore_tick (s : State) (c : Nat) (k : Core) : (s.setCore c k).tick = s.tick := rfl
@[simp] theorem setCore_clock (s : State) (c : Nat) (k : Core) : (s.setCore c k).clock = s.clock := rfl
@[simp] theorem setCore_mem (s : State) (c : Nat) (k : Core) : (s.setCore c k).mem = s.mem := rfl
@[simp] theorem setCore_chip (s : State) (c : Nat) (k : Core) : (s.setCore c k).chip = s.chip := rfl
@[simp] theorem setCore_spad (s : State) (c : Nat) (k : Core) : (s.setCore c k).spad = s.spad := rfl
@[simp] theorem setCore_spadCtx (s : State) (c : Nat) (k : Core) : (s.setCore c k).spadCtx = s.spadCtx := rfl
@[simp] theorem setCore_full (s : State) (c : Nat) (k : Core) : (s.setCore c k).full = s.full := rfl
@[simp] theorem setCore_hostSize (s : State) (c : Nat) (k : Core) : (s.setCore c k).hostSize = s.hostSize := rfl
@[simp] theorem setCore_devnum (s : State) (c : Nat) (k : Core) : (s.setCore c k).devnum = s.devnum := rfl
@[simp] theorem setCore_groups (s : State) (c : Nat) (k : Core) : (s.setCore c k).groups = s.groups := rfl
@[simp] theorem setCore_blocks (s : State) (c : Nat) (k : Core) : (s.setCore c k).blocks = s.blocks := rfl
@[simp] theorem setCore_nbhds (s : State) (c : Nat) (k : Core) : (s.setCore c k).nbhds = s.nbhds := rfl
@[simp] theorem setCore_cores (s : State) (c : Nat) (k : Core) : (s.setCore c k).cores = s.cores.set c k := rfl
@[simp] theorem setCore_dies (s : State) (c : Nat) (k : Core) : (s.setCore c k).dies = s.dies := rfl
@[simp] theorem setCore_ctxs (s : State) (c : Nat) (k : Core) : (s.setCore c k).ctxs = s.ctxs := rfl
@[simp] theorem setCore_parts (s : State) (c : Nat) (k : Core) : (s.setCore c k).parts = s.parts := rfl
@[simp] theorem setCore_faults (s : State) (c : Nat) (k : Core) : (s.setCore c k).faults = s.faults := rfl
@[simp] theorem setCore_fills (s : State) (c : Nat) (k : Core) : (s.setCore c k).fills = s.fills := rfl
@[simp] theorem setCore_tags (s : State) (c : Nat) (k : Core) : (s.setCore c k).tags = s.tags := rfl
@[simp] theorem setCore_pageMap (s : State) (c : Nat) (k : Core) : (s.setCore c k).pageMap = s.pageMap := rfl
@[simp] theorem setCore_regions (s : State) (c : Nat) (k : Core) : (s.setCore c k).regions = s.regions := rfl
@[simp] theorem setCore_links (s : State) (c : Nat) (k : Core) : (s.setCore c k).links = s.links := rfl
@[simp] theorem setCore_requests (s : State) (c : Nat) (k : Core) : (s.setCore c k).requests = s.requests := rfl
@[simp] theorem setCore_chans (s : State) (c : Nat) (k : Core) : (s.setCore c k).chans = s.chans := rfl
@[simp] theorem setCore_tchans (s : State) (c : Nat) (k : Core) : (s.setCore c k).tchans = s.tchans := rfl
@[simp] theorem setCore_answers (s : State) (c : Nat) (k : Core) : (s.setCore c k).answers = s.answers := rfl
@[simp] theorem setCore_hostWrites (s : State) (c : Nat) (k : Core) : (s.setCore c k).hostWrites = s.hostWrites := rfl
@[simp] theorem setCore_hostHeld (s : State) (c : Nat) (k : Core) : (s.setCore c k).hostHeld = s.hostHeld := rfl
@[simp] theorem setCore_runs (s : State) (c : Nat) (k : Core) : (s.setCore c k).runs = s.runs := rfl
@[simp] theorem setCore_outbound (s : State) (c : Nat) (k : Core) : (s.setCore c k).outbound = s.outbound := rfl
@[simp] theorem setCore_uqs (s : State) (c : Nat) (k : Core) : (s.setCore c k).uqs = s.uqs := rfl
@[simp] theorem setCore_cmds (s : State) (c : Nat) (k : Core) : (s.setCore c k).cmds = s.cmds := rfl
@[simp] theorem setCore_graphs (s : State) (c : Nat) (k : Core) : (s.setCore c k).graphs = s.graphs := rfl
@[simp] theorem setCore_saveOps (s : State) (c : Nat) (k : Core) : (s.setCore c k).saveOps = s.saveOps := rfl
@[simp] theorem setCore_saves (s : State) (c : Nat) (k : Core) : (s.setCore c k).saves = s.saves := rfl
@[simp] theorem setCore_mgmt (s : State) (c : Nat) (k : Core) : (s.setCore c k).mgmt = s.mgmt := rfl
@[simp] theorem setCore_nextId (s : State) (c : Nat) (k : Core) : (s.setCore c k).nextId = s.nextId := rfl
@[simp] theorem setCore_free (s : State) (c : Nat) (k : Core) : (s.setCore c k).free = s.free := rfl

/-! ## updCore -/

@[simp] theorem updCore_turn (s : State) (c : Nat) (f : Core → Core) : (s.updCore c f).turn = s.turn := rfl
@[simp] theorem updCore_input (s : State) (c : Nat) (f : Core → Core) : (s.updCore c f).input = s.input := rfl
@[simp] theorem updCore_word (s : State) (c : Nat) (f : Core → Core) : (s.updCore c f).word = s.word := rfl
@[simp] theorem updCore_tick (s : State) (c : Nat) (f : Core → Core) : (s.updCore c f).tick = s.tick := rfl
@[simp] theorem updCore_clock (s : State) (c : Nat) (f : Core → Core) : (s.updCore c f).clock = s.clock := rfl
@[simp] theorem updCore_mem (s : State) (c : Nat) (f : Core → Core) : (s.updCore c f).mem = s.mem := rfl
@[simp] theorem updCore_chip (s : State) (c : Nat) (f : Core → Core) : (s.updCore c f).chip = s.chip := rfl
@[simp] theorem updCore_spad (s : State) (c : Nat) (f : Core → Core) : (s.updCore c f).spad = s.spad := rfl
@[simp] theorem updCore_spadCtx (s : State) (c : Nat) (f : Core → Core) : (s.updCore c f).spadCtx = s.spadCtx := rfl
@[simp] theorem updCore_full (s : State) (c : Nat) (f : Core → Core) : (s.updCore c f).full = s.full := rfl
@[simp] theorem updCore_hostSize (s : State) (c : Nat) (f : Core → Core) : (s.updCore c f).hostSize = s.hostSize := rfl
@[simp] theorem updCore_devnum (s : State) (c : Nat) (f : Core → Core) : (s.updCore c f).devnum = s.devnum := rfl
@[simp] theorem updCore_groups (s : State) (c : Nat) (f : Core → Core) : (s.updCore c f).groups = s.groups := rfl
@[simp] theorem updCore_blocks (s : State) (c : Nat) (f : Core → Core) : (s.updCore c f).blocks = s.blocks := rfl
@[simp] theorem updCore_nbhds (s : State) (c : Nat) (f : Core → Core) : (s.updCore c f).nbhds = s.nbhds := rfl
@[simp] theorem updCore_cores (s : State) (c : Nat) (f : Core → Core) : (s.updCore c f).cores = s.cores.set c (f (s.core c)) := rfl
@[simp] theorem updCore_dies (s : State) (c : Nat) (f : Core → Core) : (s.updCore c f).dies = s.dies := rfl
@[simp] theorem updCore_ctxs (s : State) (c : Nat) (f : Core → Core) : (s.updCore c f).ctxs = s.ctxs := rfl
@[simp] theorem updCore_parts (s : State) (c : Nat) (f : Core → Core) : (s.updCore c f).parts = s.parts := rfl
@[simp] theorem updCore_faults (s : State) (c : Nat) (f : Core → Core) : (s.updCore c f).faults = s.faults := rfl
@[simp] theorem updCore_fills (s : State) (c : Nat) (f : Core → Core) : (s.updCore c f).fills = s.fills := rfl
@[simp] theorem updCore_tags (s : State) (c : Nat) (f : Core → Core) : (s.updCore c f).tags = s.tags := rfl
@[simp] theorem updCore_pageMap (s : State) (c : Nat) (f : Core → Core) : (s.updCore c f).pageMap = s.pageMap := rfl
@[simp] theorem updCore_regions (s : State) (c : Nat) (f : Core → Core) : (s.updCore c f).regions = s.regions := rfl
@[simp] theorem updCore_links (s : State) (c : Nat) (f : Core → Core) : (s.updCore c f).links = s.links := rfl
@[simp] theorem updCore_requests (s : State) (c : Nat) (f : Core → Core) : (s.updCore c f).requests = s.requests := rfl
@[simp] theorem updCore_chans (s : State) (c : Nat) (f : Core → Core) : (s.updCore c f).chans = s.chans := rfl
@[simp] theorem updCore_tchans (s : State) (c : Nat) (f : Core → Core) : (s.updCore c f).tchans = s.tchans := rfl
@[simp] theorem updCore_answers (s : State) (c : Nat) (f : Core → Core) : (s.updCore c f).answers = s.answers := rfl
@[simp] theorem updCore_hostWrites (s : State) (c : Nat) (f : Core → Core) : (s.updCore c f).hostWrites = s.hostWrites := rfl
@[simp] theorem updCore_hostHeld (s : State) (c : Nat) (f : Core → Core) : (s.updCore c f).hostHeld = s.hostHeld := rfl
@[simp] theorem updCore_runs (s : State) (c : Nat) (f : Core → Core) : (s.updCore c f).runs = s.runs := rfl
@[simp] theorem updCore_outbound (s : State) (c : Nat) (f : Core → Core) : (s.updCore c f).outbound = s.outbound := rfl
@[simp] theorem updCore_uqs (s : State) (c : Nat) (f : Core → Core) : (s.updCore c f).uqs = s.uqs := rfl
@[simp] theorem updCore_cmds (s : State) (c : Nat) (f : Core → Core) : (s.updCore c f).cmds = s.cmds := rfl
@[simp] theorem updCore_graphs (s : State) (c : Nat) (f : Core → Core) : (s.updCore c f).graphs = s.graphs := rfl
@[simp] theorem updCore_saveOps (s : State) (c : Nat) (f : Core → Core) : (s.updCore c f).saveOps = s.saveOps := rfl
@[simp] theorem updCore_saves (s : State) (c : Nat) (f : Core → Core) : (s.updCore c f).saves = s.saves := rfl
@[simp] theorem updCore_mgmt (s : State) (c : Nat) (f : Core → Core) : (s.updCore c f).mgmt = s.mgmt := rfl
@[simp] theorem updCore_nextId (s : State) (c : Nat) (f : Core → Core) : (s.updCore c f).nextId = s.nextId := rfl
@[simp] theorem updCore_free (s : State) (c : Nat) (f : Core → Core) : (s.updCore c f).free = s.free := rfl

/-! ## updDie -/

@[simp] theorem updDie_turn (s : State) (d : Nat) (f : Die → Die) : (s.updDie d f).turn = s.turn := rfl
@[simp] theorem updDie_input (s : State) (d : Nat) (f : Die → Die) : (s.updDie d f).input = s.input := rfl
@[simp] theorem updDie_word (s : State) (d : Nat) (f : Die → Die) : (s.updDie d f).word = s.word := rfl
@[simp] theorem updDie_tick (s : State) (d : Nat) (f : Die → Die) : (s.updDie d f).tick = s.tick := rfl
@[simp] theorem updDie_clock (s : State) (d : Nat) (f : Die → Die) : (s.updDie d f).clock = s.clock := rfl
@[simp] theorem updDie_mem (s : State) (d : Nat) (f : Die → Die) : (s.updDie d f).mem = s.mem := rfl
@[simp] theorem updDie_chip (s : State) (d : Nat) (f : Die → Die) : (s.updDie d f).chip = s.chip := rfl
@[simp] theorem updDie_spad (s : State) (d : Nat) (f : Die → Die) : (s.updDie d f).spad = s.spad := rfl
@[simp] theorem updDie_spadCtx (s : State) (d : Nat) (f : Die → Die) : (s.updDie d f).spadCtx = s.spadCtx := rfl
@[simp] theorem updDie_full (s : State) (d : Nat) (f : Die → Die) : (s.updDie d f).full = s.full := rfl
@[simp] theorem updDie_hostSize (s : State) (d : Nat) (f : Die → Die) : (s.updDie d f).hostSize = s.hostSize := rfl
@[simp] theorem updDie_devnum (s : State) (d : Nat) (f : Die → Die) : (s.updDie d f).devnum = s.devnum := rfl
@[simp] theorem updDie_groups (s : State) (d : Nat) (f : Die → Die) : (s.updDie d f).groups = s.groups := rfl
@[simp] theorem updDie_blocks (s : State) (d : Nat) (f : Die → Die) : (s.updDie d f).blocks = s.blocks := rfl
@[simp] theorem updDie_nbhds (s : State) (d : Nat) (f : Die → Die) : (s.updDie d f).nbhds = s.nbhds := rfl
@[simp] theorem updDie_cores (s : State) (d : Nat) (f : Die → Die) : (s.updDie d f).cores = s.cores := rfl
@[simp] theorem updDie_dies (s : State) (d : Nat) (f : Die → Die) : (s.updDie d f).dies = s.dies.set d (f (s.die d)) := rfl
@[simp] theorem updDie_ctxs (s : State) (d : Nat) (f : Die → Die) : (s.updDie d f).ctxs = s.ctxs := rfl
@[simp] theorem updDie_parts (s : State) (d : Nat) (f : Die → Die) : (s.updDie d f).parts = s.parts := rfl
@[simp] theorem updDie_faults (s : State) (d : Nat) (f : Die → Die) : (s.updDie d f).faults = s.faults := rfl
@[simp] theorem updDie_fills (s : State) (d : Nat) (f : Die → Die) : (s.updDie d f).fills = s.fills := rfl
@[simp] theorem updDie_tags (s : State) (d : Nat) (f : Die → Die) : (s.updDie d f).tags = s.tags := rfl
@[simp] theorem updDie_pageMap (s : State) (d : Nat) (f : Die → Die) : (s.updDie d f).pageMap = s.pageMap := rfl
@[simp] theorem updDie_regions (s : State) (d : Nat) (f : Die → Die) : (s.updDie d f).regions = s.regions := rfl
@[simp] theorem updDie_links (s : State) (d : Nat) (f : Die → Die) : (s.updDie d f).links = s.links := rfl
@[simp] theorem updDie_requests (s : State) (d : Nat) (f : Die → Die) : (s.updDie d f).requests = s.requests := rfl
@[simp] theorem updDie_chans (s : State) (d : Nat) (f : Die → Die) : (s.updDie d f).chans = s.chans := rfl
@[simp] theorem updDie_tchans (s : State) (d : Nat) (f : Die → Die) : (s.updDie d f).tchans = s.tchans := rfl
@[simp] theorem updDie_answers (s : State) (d : Nat) (f : Die → Die) : (s.updDie d f).answers = s.answers := rfl
@[simp] theorem updDie_hostWrites (s : State) (d : Nat) (f : Die → Die) : (s.updDie d f).hostWrites = s.hostWrites := rfl
@[simp] theorem updDie_hostHeld (s : State) (d : Nat) (f : Die → Die) : (s.updDie d f).hostHeld = s.hostHeld := rfl
@[simp] theorem updDie_runs (s : State) (d : Nat) (f : Die → Die) : (s.updDie d f).runs = s.runs := rfl
@[simp] theorem updDie_outbound (s : State) (d : Nat) (f : Die → Die) : (s.updDie d f).outbound = s.outbound := rfl
@[simp] theorem updDie_uqs (s : State) (d : Nat) (f : Die → Die) : (s.updDie d f).uqs = s.uqs := rfl
@[simp] theorem updDie_cmds (s : State) (d : Nat) (f : Die → Die) : (s.updDie d f).cmds = s.cmds := rfl
@[simp] theorem updDie_graphs (s : State) (d : Nat) (f : Die → Die) : (s.updDie d f).graphs = s.graphs := rfl
@[simp] theorem updDie_saveOps (s : State) (d : Nat) (f : Die → Die) : (s.updDie d f).saveOps = s.saveOps := rfl
@[simp] theorem updDie_saves (s : State) (d : Nat) (f : Die → Die) : (s.updDie d f).saves = s.saves := rfl
@[simp] theorem updDie_mgmt (s : State) (d : Nat) (f : Die → Die) : (s.updDie d f).mgmt = s.mgmt := rfl
@[simp] theorem updDie_nextId (s : State) (d : Nat) (f : Die → Die) : (s.updDie d f).nextId = s.nextId := rfl
@[simp] theorem updDie_free (s : State) (d : Nat) (f : Die → Die) : (s.updDie d f).free = s.free := rfl

/-! ## updPart -/

@[simp] theorem updPart_turn (s : State) (p : Nat) (f : Part → Part) : (s.updPart p f).turn = s.turn := rfl
@[simp] theorem updPart_input (s : State) (p : Nat) (f : Part → Part) : (s.updPart p f).input = s.input := rfl
@[simp] theorem updPart_word (s : State) (p : Nat) (f : Part → Part) : (s.updPart p f).word = s.word := rfl
@[simp] theorem updPart_tick (s : State) (p : Nat) (f : Part → Part) : (s.updPart p f).tick = s.tick := rfl
@[simp] theorem updPart_clock (s : State) (p : Nat) (f : Part → Part) : (s.updPart p f).clock = s.clock := rfl
@[simp] theorem updPart_mem (s : State) (p : Nat) (f : Part → Part) : (s.updPart p f).mem = s.mem := rfl
@[simp] theorem updPart_chip (s : State) (p : Nat) (f : Part → Part) : (s.updPart p f).chip = s.chip := rfl
@[simp] theorem updPart_spad (s : State) (p : Nat) (f : Part → Part) : (s.updPart p f).spad = s.spad := rfl
@[simp] theorem updPart_spadCtx (s : State) (p : Nat) (f : Part → Part) : (s.updPart p f).spadCtx = s.spadCtx := rfl
@[simp] theorem updPart_full (s : State) (p : Nat) (f : Part → Part) : (s.updPart p f).full = s.full := rfl
@[simp] theorem updPart_hostSize (s : State) (p : Nat) (f : Part → Part) : (s.updPart p f).hostSize = s.hostSize := rfl
@[simp] theorem updPart_devnum (s : State) (p : Nat) (f : Part → Part) : (s.updPart p f).devnum = s.devnum := rfl
@[simp] theorem updPart_groups (s : State) (p : Nat) (f : Part → Part) : (s.updPart p f).groups = s.groups := rfl
@[simp] theorem updPart_blocks (s : State) (p : Nat) (f : Part → Part) : (s.updPart p f).blocks = s.blocks := rfl
@[simp] theorem updPart_nbhds (s : State) (p : Nat) (f : Part → Part) : (s.updPart p f).nbhds = s.nbhds := rfl
@[simp] theorem updPart_cores (s : State) (p : Nat) (f : Part → Part) : (s.updPart p f).cores = s.cores := rfl
@[simp] theorem updPart_dies (s : State) (p : Nat) (f : Part → Part) : (s.updPart p f).dies = s.dies := rfl
@[simp] theorem updPart_ctxs (s : State) (p : Nat) (f : Part → Part) : (s.updPart p f).ctxs = s.ctxs := rfl
@[simp] theorem updPart_parts (s : State) (p : Nat) (f : Part → Part) : (s.updPart p f).parts = s.parts.modify f p := rfl
@[simp] theorem updPart_faults (s : State) (p : Nat) (f : Part → Part) : (s.updPart p f).faults = s.faults := rfl
@[simp] theorem updPart_fills (s : State) (p : Nat) (f : Part → Part) : (s.updPart p f).fills = s.fills := rfl
@[simp] theorem updPart_tags (s : State) (p : Nat) (f : Part → Part) : (s.updPart p f).tags = s.tags := rfl
@[simp] theorem updPart_pageMap (s : State) (p : Nat) (f : Part → Part) : (s.updPart p f).pageMap = s.pageMap := rfl
@[simp] theorem updPart_regions (s : State) (p : Nat) (f : Part → Part) : (s.updPart p f).regions = s.regions := rfl
@[simp] theorem updPart_links (s : State) (p : Nat) (f : Part → Part) : (s.updPart p f).links = s.links := rfl
@[simp] theorem updPart_requests (s : State) (p : Nat) (f : Part → Part) : (s.updPart p f).requests = s.requests := rfl
@[simp] theorem updPart_chans (s : State) (p : Nat) (f : Part → Part) : (s.updPart p f).chans = s.chans := rfl
@[simp] theorem updPart_tchans (s : State) (p : Nat) (f : Part → Part) : (s.updPart p f).tchans = s.tchans := rfl
@[simp] theorem updPart_answers (s : State) (p : Nat) (f : Part → Part) : (s.updPart p f).answers = s.answers := rfl
@[simp] theorem updPart_hostWrites (s : State) (p : Nat) (f : Part → Part) : (s.updPart p f).hostWrites = s.hostWrites := rfl
@[simp] theorem updPart_hostHeld (s : State) (p : Nat) (f : Part → Part) : (s.updPart p f).hostHeld = s.hostHeld := rfl
@[simp] theorem updPart_runs (s : State) (p : Nat) (f : Part → Part) : (s.updPart p f).runs = s.runs := rfl
@[simp] theorem updPart_outbound (s : State) (p : Nat) (f : Part → Part) : (s.updPart p f).outbound = s.outbound := rfl
@[simp] theorem updPart_uqs (s : State) (p : Nat) (f : Part → Part) : (s.updPart p f).uqs = s.uqs := rfl
@[simp] theorem updPart_cmds (s : State) (p : Nat) (f : Part → Part) : (s.updPart p f).cmds = s.cmds := rfl
@[simp] theorem updPart_graphs (s : State) (p : Nat) (f : Part → Part) : (s.updPart p f).graphs = s.graphs := rfl
@[simp] theorem updPart_saveOps (s : State) (p : Nat) (f : Part → Part) : (s.updPart p f).saveOps = s.saveOps := rfl
@[simp] theorem updPart_saves (s : State) (p : Nat) (f : Part → Part) : (s.updPart p f).saves = s.saves := rfl
@[simp] theorem updPart_mgmt (s : State) (p : Nat) (f : Part → Part) : (s.updPart p f).mgmt = s.mgmt := rfl
@[simp] theorem updPart_nextId (s : State) (p : Nat) (f : Part → Part) : (s.updPart p f).nextId = s.nextId := rfl
@[simp] theorem updPart_free (s : State) (p : Nat) (f : Part → Part) : (s.updPart p f).free = s.free := rfl

/-! ## updRegion -/

@[simp] theorem updRegion_turn (s : State) (i : Nat) (f : Region → Region) : (s.updRegion i f).turn = s.turn := rfl
@[simp] theorem updRegion_input (s : State) (i : Nat) (f : Region → Region) : (s.updRegion i f).input = s.input := rfl
@[simp] theorem updRegion_word (s : State) (i : Nat) (f : Region → Region) : (s.updRegion i f).word = s.word := rfl
@[simp] theorem updRegion_tick (s : State) (i : Nat) (f : Region → Region) : (s.updRegion i f).tick = s.tick := rfl
@[simp] theorem updRegion_clock (s : State) (i : Nat) (f : Region → Region) : (s.updRegion i f).clock = s.clock := rfl
@[simp] theorem updRegion_mem (s : State) (i : Nat) (f : Region → Region) : (s.updRegion i f).mem = s.mem := rfl
@[simp] theorem updRegion_chip (s : State) (i : Nat) (f : Region → Region) : (s.updRegion i f).chip = s.chip := rfl
@[simp] theorem updRegion_spad (s : State) (i : Nat) (f : Region → Region) : (s.updRegion i f).spad = s.spad := rfl
@[simp] theorem updRegion_spadCtx (s : State) (i : Nat) (f : Region → Region) : (s.updRegion i f).spadCtx = s.spadCtx := rfl
@[simp] theorem updRegion_full (s : State) (i : Nat) (f : Region → Region) : (s.updRegion i f).full = s.full := rfl
@[simp] theorem updRegion_hostSize (s : State) (i : Nat) (f : Region → Region) : (s.updRegion i f).hostSize = s.hostSize := rfl
@[simp] theorem updRegion_devnum (s : State) (i : Nat) (f : Region → Region) : (s.updRegion i f).devnum = s.devnum := rfl
@[simp] theorem updRegion_groups (s : State) (i : Nat) (f : Region → Region) : (s.updRegion i f).groups = s.groups := rfl
@[simp] theorem updRegion_blocks (s : State) (i : Nat) (f : Region → Region) : (s.updRegion i f).blocks = s.blocks := rfl
@[simp] theorem updRegion_nbhds (s : State) (i : Nat) (f : Region → Region) : (s.updRegion i f).nbhds = s.nbhds := rfl
@[simp] theorem updRegion_cores (s : State) (i : Nat) (f : Region → Region) : (s.updRegion i f).cores = s.cores := rfl
@[simp] theorem updRegion_dies (s : State) (i : Nat) (f : Region → Region) : (s.updRegion i f).dies = s.dies := rfl
@[simp] theorem updRegion_ctxs (s : State) (i : Nat) (f : Region → Region) : (s.updRegion i f).ctxs = s.ctxs := rfl
@[simp] theorem updRegion_parts (s : State) (i : Nat) (f : Region → Region) : (s.updRegion i f).parts = s.parts := rfl
@[simp] theorem updRegion_faults (s : State) (i : Nat) (f : Region → Region) : (s.updRegion i f).faults = s.faults := rfl
@[simp] theorem updRegion_fills (s : State) (i : Nat) (f : Region → Region) : (s.updRegion i f).fills = s.fills := rfl
@[simp] theorem updRegion_tags (s : State) (i : Nat) (f : Region → Region) : (s.updRegion i f).tags = s.tags := rfl
@[simp] theorem updRegion_pageMap (s : State) (i : Nat) (f : Region → Region) : (s.updRegion i f).pageMap = s.pageMap := rfl
@[simp] theorem updRegion_regions (s : State) (i : Nat) (f : Region → Region) : (s.updRegion i f).regions = s.regions.modify f i := rfl
@[simp] theorem updRegion_links (s : State) (i : Nat) (f : Region → Region) : (s.updRegion i f).links = s.links := rfl
@[simp] theorem updRegion_requests (s : State) (i : Nat) (f : Region → Region) : (s.updRegion i f).requests = s.requests := rfl
@[simp] theorem updRegion_chans (s : State) (i : Nat) (f : Region → Region) : (s.updRegion i f).chans = s.chans := rfl
@[simp] theorem updRegion_tchans (s : State) (i : Nat) (f : Region → Region) : (s.updRegion i f).tchans = s.tchans := rfl
@[simp] theorem updRegion_answers (s : State) (i : Nat) (f : Region → Region) : (s.updRegion i f).answers = s.answers := rfl
@[simp] theorem updRegion_hostWrites (s : State) (i : Nat) (f : Region → Region) : (s.updRegion i f).hostWrites = s.hostWrites := rfl
@[simp] theorem updRegion_hostHeld (s : State) (i : Nat) (f : Region → Region) : (s.updRegion i f).hostHeld = s.hostHeld := rfl
@[simp] theorem updRegion_runs (s : State) (i : Nat) (f : Region → Region) : (s.updRegion i f).runs = s.runs := rfl
@[simp] theorem updRegion_outbound (s : State) (i : Nat) (f : Region → Region) : (s.updRegion i f).outbound = s.outbound := rfl
@[simp] theorem updRegion_uqs (s : State) (i : Nat) (f : Region → Region) : (s.updRegion i f).uqs = s.uqs := rfl
@[simp] theorem updRegion_cmds (s : State) (i : Nat) (f : Region → Region) : (s.updRegion i f).cmds = s.cmds := rfl
@[simp] theorem updRegion_graphs (s : State) (i : Nat) (f : Region → Region) : (s.updRegion i f).graphs = s.graphs := rfl
@[simp] theorem updRegion_saveOps (s : State) (i : Nat) (f : Region → Region) : (s.updRegion i f).saveOps = s.saveOps := rfl
@[simp] theorem updRegion_saves (s : State) (i : Nat) (f : Region → Region) : (s.updRegion i f).saves = s.saves := rfl
@[simp] theorem updRegion_mgmt (s : State) (i : Nat) (f : Region → Region) : (s.updRegion i f).mgmt = s.mgmt := rfl
@[simp] theorem updRegion_nextId (s : State) (i : Nat) (f : Region → Region) : (s.updRegion i f).nextId = s.nextId := rfl
@[simp] theorem updRegion_free (s : State) (i : Nat) (f : Region → Region) : (s.updRegion i f).free = s.free := rfl

/-! ## poke -/

@[simp] theorem poke_turn (s : State) (l : List (Nat × Byte)) : (s.poke l).turn = s.turn := rfl
@[simp] theorem poke_input (s : State) (l : List (Nat × Byte)) : (s.poke l).input = s.input := rfl
@[simp] theorem poke_word (s : State) (l : List (Nat × Byte)) : (s.poke l).word = s.word := rfl
@[simp] theorem poke_tick (s : State) (l : List (Nat × Byte)) : (s.poke l).tick = s.tick := rfl
@[simp] theorem poke_clock (s : State) (l : List (Nat × Byte)) : (s.poke l).clock = s.clock := rfl
@[simp] theorem poke_mem (s : State) (l : List (Nat × Byte)) : (s.poke l).mem = Memory.write s.mem l := rfl
@[simp] theorem poke_chip (s : State) (l : List (Nat × Byte)) : (s.poke l).chip = s.chip := rfl
@[simp] theorem poke_spad (s : State) (l : List (Nat × Byte)) : (s.poke l).spad = s.spad := rfl
@[simp] theorem poke_spadCtx (s : State) (l : List (Nat × Byte)) : (s.poke l).spadCtx = s.spadCtx := rfl
@[simp] theorem poke_full (s : State) (l : List (Nat × Byte)) : (s.poke l).full = s.full := rfl
@[simp] theorem poke_hostSize (s : State) (l : List (Nat × Byte)) : (s.poke l).hostSize = s.hostSize := rfl
@[simp] theorem poke_devnum (s : State) (l : List (Nat × Byte)) : (s.poke l).devnum = s.devnum := rfl
@[simp] theorem poke_groups (s : State) (l : List (Nat × Byte)) : (s.poke l).groups = s.groups := rfl
@[simp] theorem poke_blocks (s : State) (l : List (Nat × Byte)) : (s.poke l).blocks = s.blocks := rfl
@[simp] theorem poke_nbhds (s : State) (l : List (Nat × Byte)) : (s.poke l).nbhds = s.nbhds := rfl
@[simp] theorem poke_cores (s : State) (l : List (Nat × Byte)) : (s.poke l).cores = s.cores := rfl
@[simp] theorem poke_dies (s : State) (l : List (Nat × Byte)) : (s.poke l).dies = s.dies := rfl
@[simp] theorem poke_ctxs (s : State) (l : List (Nat × Byte)) : (s.poke l).ctxs = s.ctxs := rfl
@[simp] theorem poke_parts (s : State) (l : List (Nat × Byte)) : (s.poke l).parts = s.parts := rfl
@[simp] theorem poke_faults (s : State) (l : List (Nat × Byte)) : (s.poke l).faults = s.faults := rfl
@[simp] theorem poke_fills (s : State) (l : List (Nat × Byte)) : (s.poke l).fills = s.fills := rfl
@[simp] theorem poke_tags (s : State) (l : List (Nat × Byte)) : (s.poke l).tags = s.tags := rfl
@[simp] theorem poke_pageMap (s : State) (l : List (Nat × Byte)) : (s.poke l).pageMap = s.pageMap := rfl
@[simp] theorem poke_regions (s : State) (l : List (Nat × Byte)) : (s.poke l).regions = s.regions := rfl
@[simp] theorem poke_links (s : State) (l : List (Nat × Byte)) : (s.poke l).links = s.links := rfl
@[simp] theorem poke_requests (s : State) (l : List (Nat × Byte)) : (s.poke l).requests = s.requests := rfl
@[simp] theorem poke_chans (s : State) (l : List (Nat × Byte)) : (s.poke l).chans = s.chans := rfl
@[simp] theorem poke_tchans (s : State) (l : List (Nat × Byte)) : (s.poke l).tchans = s.tchans := rfl
@[simp] theorem poke_answers (s : State) (l : List (Nat × Byte)) : (s.poke l).answers = s.answers := rfl
@[simp] theorem poke_hostWrites (s : State) (l : List (Nat × Byte)) : (s.poke l).hostWrites = s.hostWrites := rfl
@[simp] theorem poke_hostHeld (s : State) (l : List (Nat × Byte)) : (s.poke l).hostHeld = s.hostHeld := rfl
@[simp] theorem poke_runs (s : State) (l : List (Nat × Byte)) : (s.poke l).runs = s.runs := rfl
@[simp] theorem poke_outbound (s : State) (l : List (Nat × Byte)) : (s.poke l).outbound = s.outbound := rfl
@[simp] theorem poke_uqs (s : State) (l : List (Nat × Byte)) : (s.poke l).uqs = s.uqs := rfl
@[simp] theorem poke_cmds (s : State) (l : List (Nat × Byte)) : (s.poke l).cmds = s.cmds := rfl
@[simp] theorem poke_graphs (s : State) (l : List (Nat × Byte)) : (s.poke l).graphs = s.graphs := rfl
@[simp] theorem poke_saveOps (s : State) (l : List (Nat × Byte)) : (s.poke l).saveOps = s.saveOps := rfl
@[simp] theorem poke_saves (s : State) (l : List (Nat × Byte)) : (s.poke l).saves = s.saves := rfl
@[simp] theorem poke_mgmt (s : State) (l : List (Nat × Byte)) : (s.poke l).mgmt = s.mgmt := rfl
@[simp] theorem poke_nextId (s : State) (l : List (Nat × Byte)) : (s.poke l).nextId = s.nextId := rfl
@[simp] theorem poke_free (s : State) (l : List (Nat × Byte)) : (s.poke l).free = s.free := rfl

end Sys2Proof.Machine
end

