-- ==== Sys2Proof/Laws/Streams.lean ====
section
/-! SUPPORT. How a matrix word and an event run, where a scalar word traps before its body, and what a step does around a word. -/

namespace Sys2Proof.Machine
open Bits

/-- A sequencer in turn runs the body of its word. -/
theorem seqRun_turn {s : State} {b : Nat} {x : Block} {q : Seq} (h : SeqTurn s b x q) (f : Nat → Block → Seq → Res) :
    seqRun f s = .next (endM b (f b x q)) := by
  obtain ⟨h1, h2, h3, _⟩ := h
  have hb : b / 8 * 8 + b % 8 = b := by omega
  simp [seqRun, h1, hb, h2, h3]
/-- A word that waits for the accumulator store finds nothing in flight. -/
theorem alone_turn {s : State} {b : Nat} {x : Block} {q : Seq} (h : SeqTurn s b x q) (f : Unit → Res) : alone s q f = f () := by
  simp [alone, h.2.2.2]
/-- A privileged word of another group than the firmware agent traps PRIVILEGE (R33, R366). -/
theorem scalarRun_priv {s : State} {c sl : Nat} {g : Group} (ht : s.turn = .scalar c sl) (hg : s.group? c sl = some g)
    (hs : sl ≠ Config.agentSlot) (deny len : Nat) (regs : List Nat) (body : Nat → Nat → Group → Res) :
    scalarRun true deny len regs body s = .next (raise s c sl 0 0 true { cause := 3 }) := by
  have h : (sl != Config.agentSlot) = true := by simpa using hs
  simp [scalarRun, ht, hg, h, endS]
/-- An event that is not due changes nothing, and one that is due gives its state. -/
theorem event_none {f : State → Option State} {s : State} (h : f s = none) : event f s = .next s := by simp [event, h]
theorem event_some {f : State → Option State} {s t : State} (h : f s = some t) : event f s = .next t := by simp [event, h]
/-- A step is the turn and what passes after it. -/
theorem step_turn {s t : State} (h : runTurn s = .next t) : step s = .next (advance t) := by simp [step, h, onNext]

end Sys2Proof.Machine
end

