-- ==== Sys2Proof/Laws/Values.lean ====
section
/-! SUPPORT. Register fields and immediates as numbers and as words, and tables after an entry is taken out. -/

namespace Sys2Proof.Machine
open Bits

/-- A register field as a number is the register as a word. -/
theorem field_reg (g : Group) (r : BitVec 6) : g.field r = (g.reg r).toNat := rfl
/-- A register is zero as a number where it is zero as a word. -/
theorem reg_zero (g : Group) (r : BitVec 6) : ((g.reg r).toNat = 0) = (g.reg r = 0) := by
  simp [BitVec.toNat_eq]
/-- A sign-extended immediate. -/
theorem sext_eq (n : Nat) (o : BitVec n) : sext64 n o.toNat = o.signExtend 64 := by
  unfold sext64 toInt BitVec.signExtend
  rw [BitVec.toInt_eq_msb_cond, BitVec.msb_eq_getLsbD_last]
  simp only [BitVec.getLsbD]
  split <;> simp
/-- A table without a key has no entry there, and the other entries stay. -/
theorem get?_erase {α : Type} (m : NMap α) (k n : Nat) : (NMap.erase m k).get? n = if k = n then none else m.get? n := by
  induction m with
  | nil => simp [NMap.erase, NMap.get?]
  | cons z m ih =>
    obtain ⟨j, v⟩ := z
    by_cases h : j = k
    · subst h; by_cases h2 : j = n
      · subst h2; simp [NMap.erase, ih]
      · simp [NMap.erase, NMap.get?, ih, h2]
    · by_cases h3 : j = n
      · subst h3; simp [NMap.erase, NMap.get?, h, Ne.symm h]
      · simp [NMap.erase, NMap.get?, h, ih, h3]
/-- A key that a table does not list is not listed once entries are dropped. -/
theorem get?_keep {α : Type} (f : Nat → α → Bool) (m : NMap α) (k : Nat) (h : m.get? k = none) : (NMap.keep f m).get? k = none := by
  induction m with
  | nil => rfl
  | cons z m ih =>
    obtain ⟨j, v⟩ := z
    by_cases h2 : j = k
    · simp [NMap.get?, h2] at h
    · simp [NMap.get?, h2] at h
      simp only [NMap.keep]; split <;> simp [NMap.get?, h2, ih h]

end Sys2Proof.Machine
end

