-- ==== Sys2Proof/Tests/Slice0.lean ====
section
/-! SUPPORT. Tests of the model on small states: the checks that an ill-formed term fails, words written out from the tables of the
instruction words, worked examples of the spec, and states that meet the hypotheses of the statements. -/

set_option Elab.async false
namespace Sys2Proof.Tests
open Sys2Proof Sys2Proof.Machine Sys2Proof.Bits

/-! ## Well-formed instructions (Table 1-13) -/

/-- Records of zeros. -/
def z : L3 := default
def y : LI := default
def x : MA := default
def p : MP := default
/-- One term for each check of field values that it fails, and the same term with the field put right. -/
theorem test_wellFormed_scalar : ¬ WellFormed (.sadd 1 2 3 5) ∧ WellFormed (.sadd 1 2 3 4) ∧ ¬ WellFormed (.sfadd 1 2 3 4) ∧
    ¬ WellFormed (.scmp 1 2 3 6 0) ∧ ¬ WellFormed (.sbfe 1 2 0 0) ∧ ¬ WellFormed (.sbfe 1 2 60 5) ∧ WellFormed (.sbfe 1 2 60 4) ∧
    ¬ WellFormed (.cpy 1 2 0 3) ∧ ¬ WellFormed (.bar 1 5) ∧ ¬ WellFormed (.fence 0) ∧ ¬ WellFormed (.pprobe 3 1 0) ∧
    ¬ WellFormed (.scvt 1 2 7 5) ∧ ¬ WellFormed (.sfcmp 1 2 3 8 5) ∧ ¬ WellFormed (.keyset 1 2 3 0) ∧ ¬ WellFormed (.sldX 1 2 ⟨0, 0, 0, 4, 0⟩) ∧
    ¬ WellFormed (.sstX 1 2 ⟨0, 0, 0, 3, 1⟩) ∧ ¬ WellFormed (.sldX 1 2 ⟨0, 1, 0, 3, 0⟩) ∧ ¬ WellFormed (.sldX 1 2 ⟨0, 2, 1, 3, 0⟩) ∧
    ¬ WellFormed (.satom 1 2 3 0 ⟨0, 0, 0, 1, 0⟩) ∧ WellFormed (.satom 1 2 3 0 ⟨0, 3, 1, 3, 0⟩) ∧ ¬ WellFormed (.scas 1 2 3 4 ⟨0, 0, 0, 4, 0⟩) := by
  unfold WellFormed; decide
theorem test_wellFormed_lane : Encoding.fault 256 (.fadd { z with fmt := 5, sc := 1 }) = some 3 ∧ Encoding.fault 256 (.fadd { z with fmt := 4 }) = some 4 ∧
    Encoding.fault 256 (.iadd { z with fmt := 1, nega := 1 }) = some 3 ∧ Encoding.fault 256 (.iadd { z with fmt := 5 }) = some 4 ∧
    Encoding.fault 8 (.iadd { z with fmt := 1, dst := 8 }) = some 6 ∧ Encoding.fault 9 (.iadd { z with fmt := 1, dst := 8 }) = none ∧
    Encoding.fault 256 (.iadd { z with fmt := 3, dst := 1 }) = some 7 ∧ Encoding.fault 256 (.fcmp { z with fmt := 5 }) = some 4 ∧
    Encoding.fault 256 (.ld { z with ord := 1 }) = some 4 ∧ Encoding.fault 256 (.st { z with ord := 1, obs := 1 }) = some 4 ∧
    Encoding.fault 256 (.vote { z with aux := 35, dst := 64 }) = some 6 ∧ Encoding.fault 256 (.plop { z with pdst := 1, sa := 8 }) = some 3 ∧
    Encoding.fault 256 (.bra { y with imm := 0x10000 }) = some 4 ∧ Encoding.fault 256 (.shflImm { y with imm := 32 }) = some 3 ∧
    Encoding.fault 256 (.faddImm { y with fmt := 5, sb := 1 }) = some 3 ∧ Encoding.fault 256 (.pushm { z with sa := 2, sb := 1 }) = some 4 := by decide
theorem test_wellFormed_matrix : ¬ WellFormed (.mma { x with sub := 1, af := 1, bf := 1 }) ∧ ¬ WellFormed (.mma { x with af := 1, bf := 2 }) ∧
    ¬ WellFormed (.mma { x with acc := 48, af := 1, bf := 1 }) ∧ ¬ WellFormed (.mma { x with af := 1, bf := 1, kc := 1, qk := 1 }) ∧
    ¬ WellFormed (.mma { x with af := 15, bf := 15, acc := 1 }) ∧ WellFormed (.mma { x with af := 15, bf := 15, acc := 2 }) ∧
    ¬ WellFormed (.msta { x with af := 14, rm := 5 }) ∧ ¬ WellFormed (.madda { x with acb := 48 }) ∧ ¬ WellFormed (.mprdCnt { p with cnt := 65 }) := by
  unfold WellFormed; decide

/-! ## Decoding (Tables 1-1, 1-3, 1-4 and 1-9 to 1-12): fields placed at their bits -/

def sr (op d a b sub f : Nat) : W32 := BitVec.ofNat 32 (op <<< 26 + d <<< 20 + a <<< 14 + b <<< 8 + sub <<< 3 + f)
def si (op d a i : Nat) : W32 := BitVec.ofNat 32 (op <<< 26 + d <<< 20 + a <<< 14 + i <<< 1)
def sb (op a o : Nat) : W32 := BitVec.ofNat 32 (op <<< 26 + a <<< 20 + o)
def se (op d a b sub c : Nat) : W32 := BitVec.ofNat 32 (op <<< 26 + d <<< 20 + a <<< 14 + b <<< 8 + sub <<< 5 + c)
def sx (op d a b c i : Nat) : W32 × W32 := (BitVec.ofNat 32 (op <<< 26 + d <<< 20 + a <<< 14 + b <<< 8 + c <<< 2), BitVec.ofNat 32 i)
def lw (op sub rest : Nat) : W96 := BitVec.ofNat 96 (op <<< 89 + sub <<< 82 + rest)
def mw (op rest : Nat) : W64 := BitVec.ofNat 64 (op <<< 58 + rest)
def ds (w : W32) : Except Nat Instr := decodeScalar w 0
def dx (w : W32 × W32) : Except Nat Instr := decodeScalar w.1 w.2
def dl (w : W96) : Except Nat Instr := decodeLane 256 w
def dm (w : W64) : Except Nat Instr := decodeMatrix w

theorem test_decode_scalar_integers :
    ds (sr 0x00 1 2 3 0 1) = .ok (.sadd 1 2 3 1) ∧ ds (sr 0x00 1 2 3 1 1) = .ok (.ssub 1 2 3 1) ∧ ds (sr 0x00 1 2 3 2 1) = .ok (.smul 1 2 3 1) ∧
    ds (sr 0x00 1 2 3 3 1) = .ok (.smulh 1 2 3 1) ∧ ds (sr 0x00 1 2 3 4 1) = .ok (.smin 1 2 3 1) ∧ ds (sr 0x00 1 2 3 5 1) = .ok (.smax 1 2 3 1) ∧
    ds (sr 0x00 1 2 0 6 1) = .ok (.sabs 1 2 1) ∧ ds (sr 0x00 1 2 0 7 1) = .ok (.sneg 1 2 1) ∧ ds (sr 0x00 1 2 3 8 1) = .ok (.saddc 1 2 3 1) ∧
    ds (sr 0x00 1 2 3 9 1) = .ok (.sand 1 2 3 1) ∧ ds (sr 0x00 1 2 3 10 1) = .ok (.sor 1 2 3 1) ∧ ds (sr 0x00 1 2 3 11 1) = .ok (.sxor 1 2 3 1) ∧
    ds (sr 0x00 1 2 0 12 1) = .ok (.snot 1 2 1) ∧ ds (sr 0x00 1 2 3 13 1) = .ok (.sshl 1 2 3 1) ∧ ds (sr 0x00 1 2 3 14 1) = .ok (.sshr 1 2 3 1) ∧
    ds (sr 0x00 1 2 3 15 1) = .ok (.ssra 1 2 3 1) ∧ ds (sr 0x00 1 2 0 16 1) = .ok (.spopc 1 2 1) ∧ ds (sr 0x00 1 2 0 17 1) = .ok (.sclz 1 2 1) ∧
    ds (sr 0x00 1 2 0 18 1) = .ok (.sbrev 1 2 1) ∧ ds (sr 0x00 1 2 0 19 1) = .ok (.smov 1 2 1) ∧ ds (sr 0x01 1 2 3 5 4) = .ok (.scmp 1 2 3 5 4) := by decide
theorem test_decode_scalar_floats :
    ds (sr 0x02 1 2 3 0 6) = .ok (.sfadd 1 2 3 6) ∧ ds (sr 0x02 1 2 3 1 6) = .ok (.sfmul 1 2 3 6) ∧ ds (sr 0x02 1 2 3 2 6) = .ok (.sfmin 1 2 3 6) ∧
    ds (sr 0x02 1 2 3 3 6) = .ok (.sfmax 1 2 3 6) ∧ ds (sr 0x02 1 2 5 4 6) = .ok (.scvt 1 2 5 6) ∧ ds (sr 0x03 1 2 3 7 5) = .ok (.sfcmp 1 2 3 7 5) := by decide
theorem test_decode_scalar_immediates :
    ds (si 16 1 2 0x1FFE) = .ok (.saddImm 1 2 0x1FFE) ∧ ds (si 17 1 2 0x1FFE) = .ok (.smulImm 1 2 0x1FFE) ∧
    ds (si 18 1 2 0x1FFE) = .ok (.sandImm 1 2 0x1FFE) ∧ ds (si 19 1 2 0x1FFE) = .ok (.sorImm 1 2 0x1FFE) ∧
    ds (si 20 1 2 0x1FFE) = .ok (.sxorImm 1 2 0x1FFE) ∧ ds (si 21 1 2 63) = .ok (.sshlImm 1 2 63) ∧ ds (si 22 1 2 63) = .ok (.sshrImm 1 2 63) ∧
    ds (si 23 1 2 63) = .ok (.ssraImm 1 2 63) ∧ ds (si 0x18 1 2 (32 * 64 + 5)) = .ok (.sbfe 1 2 32 5) ∧
    ds (si 0x19 1 2 (64 * 64)) = .ok (.sbfi 1 2 64 0) ∧ ds (si 0x1A 1 2 8) = .ok (.sld 1 2 8) ∧ ds (si 0x1B 1 2 8) = .ok (.sst 1 2 8) := by decide
theorem test_decode_copy_words :
    ds (se 0x20 0 2 3 0 0b10010) = .ok (.cpy 2 3 1 2) ∧ ds (se 0x20 0 2 3 1 0b10001) = .ok (.cpyg 2 3 1 1) ∧
    ds (se 0x20 1 0 0 2 0) = .ok (.cseal 1) ∧ ds (se 0x20 0 2 0 3 0) = .ok (.cwait 2) ∧ ds (se 0x20 1 2 0 4 0) = .ok (.cpoll 1 2) ∧
    ds (se 0x20 0 2 0 5 15) = .ok (.omap 2 15) ∧ ds (se 0x20 1 0 0 6 7) = .ok (.ostat 1 7) ∧ ds (se 0x21 0 2 3 0 0) = .ok (.tdef 2 3) ∧
    ds (se 0x21 0 2 3 1 0) = .ok (.trds 2 3) ∧ ds (se 0x21 0 2 0 2 0) = .ok (.tkill 2) ∧ ds (se 0x21 1 2 0 3 0) = .ok (.tqry 1 2) := by decide
theorem test_decode_region_and_barrier_words :
    ds (se 0x22 0 2 3 0 0) = .ok (.snapdef 2 3) ∧ ds (se 0x22 0 2 0 1 0) = .ok (.snap 2) ∧ ds (se 0x22 0 2 0 2 0) = .ok (.sacc 2) ∧
    ds (se 0x22 0 2 0 3 30) = .ok (.srej 2 30) ∧ ds (se 0x22 1 2 0 4 0) = .ok (.sqry 1 2) ∧ ds (se 0x22 0 2 0 5 0) = .ok (.ssweep 2) ∧
    ds (se 0x23 63 0 0 0 4) = .ok (.bar 63 4) ∧ ds (se 0x23 15 2 0 1 0) = .ok (.nbinit 15 2) ∧ ds (se 0x23 15 0 0 2 0) = .ok (.nbarr 15) ∧
    ds (se 0x23 15 2 0 3 0) = .ok (.nbwait 15 2) := by decide
theorem test_decode_graph_and_remote_words :
    ds (se 0x24 0 2 3 0 16) = .ok (.ctradd 2 3 16) ∧ ds (se 0x24 0 2 3 1 16) = .ok (.ctrwait 2 3 16) ∧ ds (se 0x24 1 2 3 2 0) = .ok (.ticket 1 2 3) ∧
    ds (se 0x24 1 2 3 3 0) = .ok (.diffmax 1 2 3) ∧ ds (se 0x24 1 2 3 4 0) = .ok (.launch 1 2 3) ∧
    ds (se 0x24 1 2 3 4 1) = .ok (.launchDirect 1 2 3) ∧ ds (se 0x25 0 2 3 0 16) = .ok (.rmput 2 3 1) ∧
    ds (se 0x25 0 2 3 1 16) = .ok (.rmget 2 3 1) ∧ ds (se 0x25 1 2 3 2 0b01111) = .ok (.rmatom 1 2 3 1 7) ∧
    ds (se 0x25 1 2 3 2 0b11000) = .ok (.rmatomCas 1 2 3 1) ∧ ds (se 0x25 0 2 0 3 0) = .ok (.rmflush 2) ∧
    ds (se 0x25 1 2 3 4 7) = .ok (.keyset 1 2 3 7) ∧ ds (se 0x25 0 2 0 5 0) = .ok (.keyrev 2) ∧ ds (se 0x25 0 2 0 6 0) = .ok (.flushp 2) := by decide
theorem test_decode_fence_and_translation_words :
    ds (se 0x26 0 0 0 0 18) = .ok (.fence 18) ∧ ds (se 0x26 0 2 3 1 0) = .ok (.linv 2 3) ∧ ds (se 0x26 0 2 3 2 0) = .ok (.lwb 2 3) ∧
    ds (se 0x27 1 2 0 0 0) = .ok (.saper 1 2) ∧ ds (se 0x27 2 2 0 1 3) = .ok (.pprobe 2 2 3) ∧ ds (se 0x27 0 2 3 2 0) = .ok (.tlbiRange 2 3) ∧
    ds (se 0x27 0 0 0 2 1) = .ok (.tlbiCtx) ∧ ds (se 0x27 0 2 0 2 2) = .ok (.tlbiSset 2) := by decide
theorem test_decode_system_words :
    ds (se 0x28 0 2 0 0 0) = .ok (.sfmt 2) ∧ ds (se 0x28 0 2 3 1 0) = .ok (.trialon 2 3) ∧ ds (se 0x28 1 0 0 2 0) = .ok (.trialoff 1) ∧
    ds (se 0x28 0 0 0 3 7) = .ok (.prog 7) ∧ ds (se 0x28 0 0 0 4 31) = .ok (.bkpt 31) ∧ ds (se 0x29 0 2 0 0 31) = .ok (.trap 2 31) ∧
    ds (se 0x29 0 0 0 1 0) = .ok (.rft) ∧ ds (se 0x29 0 0 0 1 1) = .ok (.rftSkip) ∧ ds (se 0x29 1 0 2 2 1) = .ok (.sysr 1 0x041) ∧
    ds (se 0x29 0 2 2 3 1) = .ok (.sysw 2 0x041) ∧ ds (se 0x29 1 2 3 4 0) = .ok (.preq 1 2 3) ∧ ds (se 0x29 1 2 3 4 1) = .ok (.preqRst 1 2 3) ∧
    ds (se 0x29 1 2 0 5 0) = .ok (.halt 1 2) ∧ ds (se 0x2A 0 0 0 0 0) = .ok (.sexit) ∧ ds (se 0x2A 0 2 0 1 0) = .ok (.sret 2) ∧
    ds (se 0x2A 0 0 0 2 0) = .ok (.lsync) ∧ ds (se 0x2A 0 2 0 3 0) = .ok (.spause 2) := by decide
theorem test_decode_branch_words :
    ds (sb 0x30 2 0xFFFFE) = .ok (.sbrZ 2 0xFFFFE) ∧ ds (sb 0x31 2 4) = .ok (.sbrNz 2 4) ∧ ds (sb 0x32 0 4) = .ok (.sjmp 4) ∧
    ds (sb 0x33 2 4) = .ok (.scall 2 4) ∧ ds (sb 0x35 63 0x12345) = .ok (.shint) := by decide
theorem test_decode_extended_words :
    dx (sx 0x34 1 2 3 4 0x80000001) = .ok (.lissue 1 2 3 4 0x80000001) ∧ dx (sx 0x38 1 0 0 0 0x80000001) = .ok (.sli 1 0x80000001) ∧
    dx (sx 0x39 1 0 0 0 0x80000001) = .ok (.slih 1 0x80000001) ∧ dx (sx 0x3A 1 2 3 63 0x80000001) = .ok (.slea 1 2 3 63 0x80000001) ∧
    dx (sx 0x3B 1 2 3 4 0) = .ok (.ssel 1 2 3 4) ∧
    dx (sx 0x3C 1 2 0 0 (0xFFFFC <<< 12 + 1 <<< 10 + 16 <<< 5 + 2 <<< 2 + 1 <<< 1)) = .ok (.sldX 1 2 ⟨0xFFFFC, 1, 16, 2, 1⟩) ∧
    dx (sx 0x3D 1 2 0 0 (4 <<< 12 + 2 <<< 10 + 1 <<< 5 + 3 <<< 2 + 0 <<< 1)) = .ok (.sstX 1 2 ⟨4, 2, 1, 3, 0⟩) ∧
    dx (sx 0x3E 1 2 3 7 (4 <<< 12 + 3 <<< 10 + 31 <<< 5 + 3 <<< 2 + 0 <<< 1)) = .ok (.satom 1 2 3 7 ⟨4, 3, 31, 3, 0⟩) ∧
    dx (sx 0x3F 1 2 3 4 (4 <<< 12 + 0 <<< 10 + 0 <<< 5 + 2 <<< 2 + 0 <<< 1)) = .ok (.scas 1 2 3 4 ⟨4, 0, 0, 2, 0⟩) := by decide
theorem test_decode_lane_fp32 :
    dl (lw 0 0 (2 <<< 59 + 4 <<< 51 + 6 <<< 43 + 5 <<< 78 + 1 <<< 21)) = .ok (.fadd { z with dst := 2, sa := 4, sb := 6, fmt := 5, clp := 1 }) ∧
    dl (lw 0 1 (2 <<< 59 + 4 <<< 51 + 6 <<< 43 + 5 <<< 78 + 7 <<< 18)) = .ok (.fmul { z with dst := 2, sa := 4, sb := 6, fmt := 5, scl := 7 }) ∧
    dl (lw 0 2 (2 <<< 59 + 4 <<< 51 + 6 <<< 43 + 8 <<< 27 + 5 <<< 78 + 1 <<< 26 + 1 <<< 25)) = .ok (.ffma { z with dst := 2, sa := 4, sb := 6, sc := 8, fmt := 5, negc := 1, absc := 1 }) ∧
    dl (lw 0 3 (2 <<< 59 + 4 <<< 51 + 6 <<< 43 + 5 <<< 78 + 1 <<< 42)) = .ok (.fmin { z with dst := 2, sa := 4, sb := 6, fmt := 5, nega := 1 }) ∧
    dl (lw 0 4 (2 <<< 59 + 4 <<< 51 + 6 <<< 43 + 5 <<< 78 + 1 <<< 39)) = .ok (.fmax { z with dst := 2, sa := 4, sb := 6, fmt := 5, absb := 1 }) ∧
    dl (lw 0 5 (2 <<< 59 + 4 <<< 51 + 5 <<< 78 + 4 <<< 15)) = .ok (.frnd { z with dst := 2, sa := 4, fmt := 5, rm := 4 }) ∧
    dl (lw 0 6 (4 <<< 51 + 6 <<< 43 + 5 <<< 78 + 7 <<< 67 + 7 <<< 0)) = .ok (.fcmp { z with sa := 4, sb := 6, fmt := 5, pdst := 7, aux := 7 }) ∧
    dl (lw 0 7 (2 <<< 59 + 4 <<< 51 + 6 <<< 43 + 5 <<< 78 + 1 <<< 37)) = .ok (.fdivc { z with dst := 2, sa := 4, sb := 6, fmt := 5, feb := 1 }) ∧
    dl (lw 1 0 (2 <<< 59 + 4 <<< 51 + 5 <<< 78)) = .ok (.frcp { z with dst := 2, sa := 4, fmt := 5 }) ∧
    dl (lw 1 1 (2 <<< 59 + 4 <<< 51 + 5 <<< 78)) = .ok (.frsq { z with dst := 2, sa := 4, fmt := 5 }) ∧
    dl (lw 1 2 (2 <<< 59 + 4 <<< 51 + 5 <<< 78)) = .ok (.fsqrt { z with dst := 2, sa := 4, fmt := 5 }) ∧
    dl (lw 1 3 (2 <<< 59 + 4 <<< 51 + 5 <<< 78)) = .ok (.fex2 { z with dst := 2, sa := 4, fmt := 5 }) ∧
    dl (lw 1 4 (2 <<< 59 + 4 <<< 51 + 5 <<< 78)) = .ok (.flg2 { z with dst := 2, sa := 4, fmt := 5 }) ∧
    dl (lw 1 5 (2 <<< 59 + 4 <<< 51 + 5 <<< 78)) = .ok (.fsin { z with dst := 2, sa := 4, fmt := 5 }) ∧
    dl (lw 1 6 (2 <<< 59 + 4 <<< 51 + 5 <<< 78)) = .ok (.fcos { z with dst := 2, sa := 4, fmt := 5 }) := by decide
theorem test_decode_lane_bf16_and_fp64 :
    dl (lw 2 0 (2 <<< 59 + 4 <<< 51 + 6 <<< 43 + 7 <<< 78)) = .ok (.bfadd2 { z with dst := 2, sa := 4, sb := 6, fmt := 7 }) ∧
    dl (lw 2 1 (2 <<< 59 + 4 <<< 51 + 6 <<< 43 + 7 <<< 78)) = .ok (.bfmul2 { z with dst := 2, sa := 4, sb := 6, fmt := 7 }) ∧
    dl (lw 2 2 (2 <<< 59 + 4 <<< 51 + 6 <<< 43 + 8 <<< 27 + 7 <<< 78)) = .ok (.bffma2 { z with dst := 2, sa := 4, sb := 6, sc := 8, fmt := 7 }) ∧
    dl (lw 2 3 (2 <<< 59 + 4 <<< 51 + 6 <<< 43 + 7 <<< 78)) = .ok (.bfmin2 { z with dst := 2, sa := 4, sb := 6, fmt := 7 }) ∧
    dl (lw 2 4 (2 <<< 59 + 4 <<< 51 + 6 <<< 43 + 7 <<< 78)) = .ok (.bfmax2 { z with dst := 2, sa := 4, sb := 6, fmt := 7 }) ∧
    dl (lw 3 0 (2 <<< 59 + 4 <<< 51 + 6 <<< 43 + 8 <<< 78)) = .ok (.dadd { z with dst := 2, sa := 4, sb := 6, fmt := 8 }) ∧
    dl (lw 3 1 (2 <<< 59 + 4 <<< 51 + 6 <<< 43 + 8 <<< 78)) = .ok (.dmul { z with dst := 2, sa := 4, sb := 6, fmt := 8 }) ∧
    dl (lw 3 2 (2 <<< 59 + 4 <<< 51 + 6 <<< 43 + 8 <<< 27 + 8 <<< 78)) = .ok (.dfma { z with dst := 2, sa := 4, sb := 6, sc := 8, fmt := 8 }) ∧
    dl (lw 3 3 (2 <<< 59 + 4 <<< 51 + 6 <<< 43 + 8 <<< 78)) = .ok (.dmin { z with dst := 2, sa := 4, sb := 6, fmt := 8 }) ∧
    dl (lw 3 4 (2 <<< 59 + 4 <<< 51 + 6 <<< 43 + 8 <<< 78)) = .ok (.dmax { z with dst := 2, sa := 4, sb := 6, fmt := 8 }) ∧
    dl (lw 3 5 (4 <<< 51 + 6 <<< 43 + 8 <<< 78 + 1 <<< 67 + 6 <<< 0)) = .ok (.dcmp { z with sa := 4, sb := 6, fmt := 8, pdst := 1, aux := 6 }) ∧
    dl (lw 4 0 (2 <<< 59 + 4 <<< 51 + 8 <<< 78)) = .ok (.drcp { z with dst := 2, sa := 4, fmt := 8 }) ∧
    dl (lw 4 1 (2 <<< 59 + 4 <<< 51 + 8 <<< 78)) = .ok (.drsq { z with dst := 2, sa := 4, fmt := 8 }) ∧
    dl (lw 4 2 (2 <<< 59 + 4 <<< 51 + 8 <<< 78)) = .ok (.dsqrt { z with dst := 2, sa := 4, fmt := 8 }) := by decide
theorem test_decode_lane_integers :
    dl (lw 5 0 (2 <<< 59 + 4 <<< 51 + 6 <<< 43 + 3 <<< 78)) = .ok (.iadd { z with dst := 2, sa := 4, sb := 6, fmt := 3 }) ∧
    dl (lw 5 1 (2 <<< 59 + 4 <<< 51 + 6 <<< 43 + 3 <<< 78)) = .ok (.isub { z with dst := 2, sa := 4, sb := 6, fmt := 3 }) ∧
    dl (lw 5 2 (2 <<< 59 + 4 <<< 51 + 6 <<< 43 + 1 <<< 78)) = .ok (.imul { z with dst := 2, sa := 4, sb := 6, fmt := 1 }) ∧
    dl (lw 5 3 (2 <<< 59 + 4 <<< 51 + 6 <<< 43 + 1 <<< 78)) = .ok (.imulh { z with dst := 2, sa := 4, sb := 6, fmt := 1 }) ∧
    dl (lw 5 4 (2 <<< 59 + 4 <<< 51 + 6 <<< 43 + 8 <<< 27 + 1 <<< 78)) = .ok (.imad { z with dst := 2, sa := 4, sb := 6, sc := 8, fmt := 1 }) ∧
    dl (lw 5 5 (2 <<< 59 + 4 <<< 51 + 6 <<< 43 + 3 <<< 78)) = .ok (.imin { z with dst := 2, sa := 4, sb := 6, fmt := 3 }) ∧
    dl (lw 5 6 (2 <<< 59 + 4 <<< 51 + 6 <<< 43 + 4 <<< 78)) = .ok (.imax { z with dst := 2, sa := 4, sb := 6, fmt := 4 }) ∧
    dl (lw 5 7 (2 <<< 59 + 4 <<< 51 + 3 <<< 78)) = .ok (.iabs { z with dst := 2, sa := 4, fmt := 3 }) ∧
    dl (lw 5 8 (2 <<< 59 + 4 <<< 51 + 1 <<< 78)) = .ok (.ineg { z with dst := 2, sa := 4, fmt := 1 }) ∧
    dl (lw 5 9 (2 <<< 59 + 4 <<< 51 + 6 <<< 43 + 2 <<< 78 + 1 <<< 67 + 7 <<< 0)) = .ok (.iaddc { z with dst := 2, sa := 4, sb := 6, fmt := 2, pdst := 1, aux := 7 }) ∧
    dl (lw 5 10 (4 <<< 51 + 6 <<< 43 + 4 <<< 78 + 2 <<< 67 + 5 <<< 0)) = .ok (.icmp { z with sa := 4, sb := 6, fmt := 4, pdst := 2, aux := 5 }) ∧
    dl (lw 6 0 (2 <<< 59 + 4 <<< 51 + 6 <<< 43 + 0 <<< 78)) = .ok (.land { z with dst := 2, sa := 4, sb := 6, fmt := 0 }) ∧
    dl (lw 6 1 (2 <<< 59 + 4 <<< 51 + 6 <<< 43 + 0 <<< 78)) = .ok (.lor { z with dst := 2, sa := 4, sb := 6, fmt := 0 }) ∧
    dl (lw 6 2 (2 <<< 59 + 4 <<< 51 + 6 <<< 43 + 3 <<< 78)) = .ok (.lxor { z with dst := 2, sa := 4, sb := 6, fmt := 3 }) ∧
    dl (lw 6 3 (2 <<< 59 + 4 <<< 51 + 0 <<< 78)) = .ok (.lnot { z with dst := 2, sa := 4, fmt := 0 }) ∧
    dl (lw 6 4 (2 <<< 59 + 4 <<< 51 + 6 <<< 43 + 3 <<< 78)) = .ok (.shl { z with dst := 2, sa := 4, sb := 6, fmt := 3 }) ∧
    dl (lw 6 5 (2 <<< 59 + 4 <<< 51 + 6 <<< 43 + 1 <<< 78)) = .ok (.shr { z with dst := 2, sa := 4, sb := 6, fmt := 1 }) ∧
    dl (lw 6 6 (2 <<< 59 + 4 <<< 51 + 6 <<< 43 + 4 <<< 78)) = .ok (.sra { z with dst := 2, sa := 4, sb := 6, fmt := 4 }) ∧
    dl (lw 6 7 (2 <<< 59 + 4 <<< 51 + 6 <<< 43 + 1 <<< 78)) = .ok (.bfe { z with dst := 2, sa := 4, sb := 6, fmt := 1 }) ∧
    dl (lw 6 8 (2 <<< 59 + 4 <<< 51 + 6 <<< 43 + 8 <<< 27 + 0 <<< 78)) = .ok (.bfi { z with dst := 2, sa := 4, sb := 6, sc := 8, fmt := 0 }) ∧
    dl (lw 6 9 (2 <<< 59 + 4 <<< 51 + 0 <<< 78)) = .ok (.popc { z with dst := 2, sa := 4, fmt := 0 }) ∧
    dl (lw 6 10 (2 <<< 59 + 4 <<< 51 + 0 <<< 78)) = .ok (.clz { z with dst := 2, sa := 4, fmt := 0 }) ∧
    dl (lw 6 11 (2 <<< 59 + 4 <<< 51 + 0 <<< 78)) = .ok (.brev { z with dst := 2, sa := 4, fmt := 0 }) := by decide
theorem test_decode_lane_moves :
    dl (lw 7 0 (2 <<< 59 + 4 <<< 51 + 6 <<< 78 + 5 <<< 0 + 5 <<< 15)) = .ok (.cvt { z with dst := 2, sa := 4, fmt := 6, aux := 5, rm := 5 }) ∧
    dl (lw 7 1 (2 <<< 59 + 4 <<< 51 + 0 <<< 78 + 8 <<< 70)) = .ok (.mov { z with dst := 2, sa := 4, fmt := 0, prd := 8 }) ∧
    dl (lw 7 2 (2 <<< 59 + 4 <<< 51 + 6 <<< 43 + 0 <<< 78 + 9 <<< 0)) = .ok (.sel { z with dst := 2, sa := 4, sb := 6, fmt := 0, aux := 9 }) ∧
    dl (lw 7 3 (7 <<< 51 + 3 <<< 43 + 4 <<< 67 + 6 <<< 0)) = .ok (.plop { z with sa := 7, sb := 3, pdst := 4, aux := 6 }) ∧
    dl (lw 7 4 (2 <<< 59 + 3 <<< 78 + 3 <<< 0)) = .ok (.movW { z with dst := 2, fmt := 3, aux := 3 }) ∧
    dl (lw 7 5 (2 <<< 59)) = .ok (.laneid { z with dst := 2 }) ∧
    dl (lw 0x10 0 (2 <<< 59 + 4 <<< 51 + 6 <<< 43 + 0 <<< 78 + 3 <<< 0)) = .ok (.shfl { z with dst := 2, sa := 4, sb := 6, fmt := 0, aux := 3 }) ∧
    dl (lw 0x10 1 (2 <<< 59 + 9 <<< 51 + 35 <<< 0)) = .ok (.vote { z with dst := 2, sa := 9, aux := 35 }) ∧
    dl (lw 0x10 2 (2 <<< 59 + 4 <<< 51 + 5 <<< 78 + 0 <<< 0 + 1 <<< 15)) = .ok (.gred { z with dst := 2, sa := 4, fmt := 5, aux := 0, rm := 1 }) ∧
    dl (lw 0x10 3 (2 <<< 59 + 4 <<< 51 + 1 <<< 78 + 13 <<< 0)) = .ok (.gscan { z with dst := 2, sa := 4, fmt := 1, aux := 13 }) := by decide
theorem test_decode_lane_immediates :
    dl (lw 8 0 (2 <<< 59 + 4 <<< 51 + 0x80000001 <<< 3 + 5 <<< 78)) = .ok (.faddImm { y with dst := 2, sa := 4, imm := 0x80000001, fmt := 5 }) ∧
    dl (lw 8 1 (2 <<< 59 + 4 <<< 51 + 0x80000001 <<< 3 + 5 <<< 78)) = .ok (.fmulImm { y with dst := 2, sa := 4, imm := 0x80000001, fmt := 5 }) ∧
    dl (lw 8 3 (2 <<< 59 + 4 <<< 51 + 0x80000001 <<< 3 + 5 <<< 78)) = .ok (.fminImm { y with dst := 2, sa := 4, imm := 0x80000001, fmt := 5 }) ∧
    dl (lw 8 4 (2 <<< 59 + 4 <<< 51 + 0x80000001 <<< 3 + 5 <<< 78)) = .ok (.fmaxImm { y with dst := 2, sa := 4, imm := 0x80000001, fmt := 5 }) ∧
    dl (lw 8 7 (2 <<< 59 + 4 <<< 51 + 0x80000001 <<< 3 + 5 <<< 78)) = .ok (.fdivcImm { y with dst := 2, sa := 4, imm := 0x80000001, fmt := 5 }) ∧
    dl (lw 8 2 (2 <<< 59 + 4 <<< 51 + 6 <<< 43 + 0x80000001 <<< 3 + 5 <<< 78)) = .ok (.ffmaImm { y with dst := 2, sa := 4, sb := 6, imm := 0x80000001, fmt := 5 }) ∧
    dl (lw 8 6 (4 <<< 51 + 1 <<< 3 + 5 <<< 78 + 1 <<< 67 + 6 <<< 0)) = .ok (.fcmpImm { y with sa := 4, imm := 1, fmt := 5, pdst := 1, rm := 6 }) ∧
    dl (lw 0x0A 0 (2 <<< 59 + 4 <<< 51 + 0x80000001 <<< 3 + 7 <<< 78)) = .ok (.bfadd2Imm { y with dst := 2, sa := 4, imm := 0x80000001, fmt := 7 }) ∧
    dl (lw 0x0A 1 (2 <<< 59 + 4 <<< 51 + 0x80000001 <<< 3 + 7 <<< 78)) = .ok (.bfmul2Imm { y with dst := 2, sa := 4, imm := 0x80000001, fmt := 7 }) ∧
    dl (lw 0x0A 3 (2 <<< 59 + 4 <<< 51 + 0x80000001 <<< 3 + 7 <<< 78)) = .ok (.bfmin2Imm { y with dst := 2, sa := 4, imm := 0x80000001, fmt := 7 }) ∧
    dl (lw 0x0A 4 (2 <<< 59 + 4 <<< 51 + 0x80000001 <<< 3 + 7 <<< 78)) = .ok (.bfmax2Imm { y with dst := 2, sa := 4, imm := 0x80000001, fmt := 7 }) ∧
    dl (lw 0x0A 2 (2 <<< 59 + 4 <<< 51 + 6 <<< 43 + 0x80000001 <<< 3 + 7 <<< 78)) = .ok (.bffma2Imm { y with dst := 2, sa := 4, sb := 6, imm := 0x80000001, fmt := 7 }) ∧
    dl (lw 0x0B 0 (2 <<< 59 + 4 <<< 51 + 0x80000001 <<< 3 + 8 <<< 78)) = .ok (.daddImm { y with dst := 2, sa := 4, imm := 0x80000001, fmt := 8 }) ∧
    dl (lw 0x0B 1 (2 <<< 59 + 4 <<< 51 + 0x80000001 <<< 3 + 8 <<< 78)) = .ok (.dmulImm { y with dst := 2, sa := 4, imm := 0x80000001, fmt := 8 }) ∧
    dl (lw 0x0B 3 (2 <<< 59 + 4 <<< 51 + 0x80000001 <<< 3 + 8 <<< 78)) = .ok (.dminImm { y with dst := 2, sa := 4, imm := 0x80000001, fmt := 8 }) ∧
    dl (lw 0x0B 4 (2 <<< 59 + 4 <<< 51 + 0x80000001 <<< 3 + 8 <<< 78)) = .ok (.dmaxImm { y with dst := 2, sa := 4, imm := 0x80000001, fmt := 8 }) ∧
    dl (lw 0x0B 2 (2 <<< 59 + 4 <<< 51 + 6 <<< 43 + 0x80000001 <<< 3 + 8 <<< 78)) = .ok (.dfmaImm { y with dst := 2, sa := 4, sb := 6, imm := 0x80000001, fmt := 8 }) ∧
    dl (lw 0x0B 5 (4 <<< 51 + 1 <<< 3 + 8 <<< 78 + 1 <<< 67 + 7 <<< 0)) = .ok (.dcmpImm { y with sa := 4, imm := 1, fmt := 8, pdst := 1, rm := 7 }) := by decide
theorem test_decode_lane_integer_immediates :
    dl (lw 0x0D 0 (2 <<< 59 + 4 <<< 51 + 0x80000001 <<< 3 + 1 <<< 78)) = .ok (.iaddImm { y with dst := 2, sa := 4, imm := 0x80000001, fmt := 1 }) ∧
    dl (lw 0x0D 1 (2 <<< 59 + 4 <<< 51 + 0x80000001 <<< 3 + 1 <<< 78)) = .ok (.isubImm { y with dst := 2, sa := 4, imm := 0x80000001, fmt := 1 }) ∧
    dl (lw 0x0D 2 (2 <<< 59 + 4 <<< 51 + 0x80000001 <<< 3 + 1 <<< 78)) = .ok (.imulImm { y with dst := 2, sa := 4, imm := 0x80000001, fmt := 1 }) ∧
    dl (lw 0x0D 3 (2 <<< 59 + 4 <<< 51 + 0x80000001 <<< 3 + 1 <<< 78)) = .ok (.imulhImm { y with dst := 2, sa := 4, imm := 0x80000001, fmt := 1 }) ∧
    dl (lw 0x0D 5 (2 <<< 59 + 4 <<< 51 + 0x80000001 <<< 3 + 1 <<< 78)) = .ok (.iminImm { y with dst := 2, sa := 4, imm := 0x80000001, fmt := 1 }) ∧
    dl (lw 0x0D 6 (2 <<< 59 + 4 <<< 51 + 0x80000001 <<< 3 + 1 <<< 78)) = .ok (.imaxImm { y with dst := 2, sa := 4, imm := 0x80000001, fmt := 1 }) ∧
    dl (lw 0x0D 4 (2 <<< 59 + 4 <<< 51 + 6 <<< 43 + 0x80000001 <<< 3 + 1 <<< 78)) = .ok (.imadImm { y with dst := 2, sa := 4, sb := 6, imm := 0x80000001, fmt := 1 }) ∧
    dl (lw 0x0D 9 (2 <<< 59 + 4 <<< 51 + 0x80000001 <<< 3 + 1 <<< 78 + 6 <<< 0 + 1 <<< 67)) = .ok (.iaddcImm { y with dst := 2, sa := 4, imm := 0x80000001, fmt := 1, rm := 6, pdst := 1 }) ∧
    dl (lw 0x0D 10 (4 <<< 51 + 1 <<< 3 + 3 <<< 78 + 1 <<< 67 + 5 <<< 0)) = .ok (.icmpImm { y with sa := 4, imm := 1, fmt := 3, pdst := 1, rm := 5 }) ∧
    dl (lw 0x0E 0 (2 <<< 59 + 4 <<< 51 + 0x80000001 <<< 3 + 0 <<< 78)) = .ok (.landImm { y with dst := 2, sa := 4, imm := 0x80000001, fmt := 0 }) ∧
    dl (lw 0x0E 1 (2 <<< 59 + 4 <<< 51 + 0x80000001 <<< 3 + 0 <<< 78)) = .ok (.lorImm { y with dst := 2, sa := 4, imm := 0x80000001, fmt := 0 }) ∧
    dl (lw 0x0E 2 (2 <<< 59 + 4 <<< 51 + 0x80000001 <<< 3 + 0 <<< 78)) = .ok (.lxorImm { y with dst := 2, sa := 4, imm := 0x80000001, fmt := 0 }) ∧
    dl (lw 0x0E 4 (2 <<< 59 + 4 <<< 51 + 0x80000001 <<< 3 + 0 <<< 78)) = .ok (.shlImm { y with dst := 2, sa := 4, imm := 0x80000001, fmt := 0 }) ∧
    dl (lw 0x0E 5 (2 <<< 59 + 4 <<< 51 + 0x80000001 <<< 3 + 0 <<< 78)) = .ok (.shrImm { y with dst := 2, sa := 4, imm := 0x80000001, fmt := 0 }) ∧
    dl (lw 0x0E 6 (2 <<< 59 + 4 <<< 51 + 0x80000001 <<< 3 + 0 <<< 78)) = .ok (.sraImm { y with dst := 2, sa := 4, imm := 0x80000001, fmt := 0 }) ∧
    dl (lw 0x0E 7 (2 <<< 59 + 4 <<< 51 + 0x80000001 <<< 3 + 0 <<< 78)) = .ok (.bfeImm { y with dst := 2, sa := 4, imm := 0x80000001, fmt := 0 }) ∧
    dl (lw 0x0E 8 (2 <<< 59 + 4 <<< 51 + 6 <<< 43 + 0x80000001 <<< 3 + 0 <<< 78)) = .ok (.bfiImm { y with dst := 2, sa := 4, sb := 6, imm := 0x80000001, fmt := 0 }) ∧
    dl (lw 0x0F 0 (2 <<< 59 + 0x80000001 <<< 3 + 3 <<< 78)) = .ok (.movi { y with dst := 2, imm := 0x80000001, fmt := 3 }) ∧
    dl (lw 0x18 0 (2 <<< 59 + 4 <<< 51 + 31 <<< 3 + 3 <<< 78 + 3 <<< 0)) = .ok (.shflImm { y with dst := 2, sa := 4, imm := 31, fmt := 3, rm := 3 }) := by decide
theorem test_decode_lane_memory :
    dl (lw 0x20 0 (4 <<< 59 + 8 <<< 51 + 4 <<< 0 + 3 <<< 6)) = .ok (.ld { z with dst := 4, sa := 8, aux := 4, ch := 3 }) ∧
    dl (lw 0x20 1 (8 <<< 51 + 4 <<< 43 + 5 <<< 78 + 1 <<< 74 + 3 <<< 0 + 5 <<< 15)) = .ok (.st { z with sa := 8, sb := 4, fmt := 5, mfmt := 1, aux := 3, rm := 5 }) ∧
    dl (lw 0x20 2 (2 <<< 59 + 4 <<< 51 + 6 <<< 43 + 1 <<< 78 + 58 <<< 0 + 3 <<< 8 + 16 <<< 10)) = .ok (.atom { z with dst := 2, sa := 4, sb := 6, fmt := 1, aux := 58, ord := 3, obs := 16 }) ∧
    dl (lw 0x20 3 (2 <<< 59 + 4 <<< 51 + 6 <<< 43 + 8 <<< 27 + 3 <<< 78 + 3 <<< 0)) = .ok (.cas { z with dst := 2, sa := 4, sb := 6, sc := 8, fmt := 3, aux := 3 }) ∧
    dl (lw 0x20 4 (4 <<< 51 + 2 <<< 0)) = .ok (.pref { z with sa := 4, aux := 2 }) ∧
    dl (lw 0x21 0 (4 <<< 51 + 6 <<< 43)) = .ok (.fez { z with sa := 4, sb := 6 }) ∧
    dl (lw 0x21 1 (4 <<< 51 + 6 <<< 43)) = .ok (.feset { z with sa := 4, sb := 6 }) ∧
    dl (lw 0x21 2 (2 <<< 59 + 4 <<< 51)) = .ok (.feq { z with dst := 2, sa := 4 }) ∧
    dl (lw 0x22 0 (4 <<< 51 + 6 <<< 43 + 8 <<< 27)) = .ok (.lcpy { z with sa := 4, sb := 6, sc := 8 }) ∧
    dl (lw 0x23 0 (4 <<< 51 + 5 <<< 78 + 1 <<< 74 + 3 <<< 0)) = .ok (.tdefv { z with sa := 4, fmt := 5, mfmt := 1, aux := 3 }) ∧
    dl (lw 0x23 1 (2 <<< 59 + 4 <<< 51 + 6 <<< 43 + 5 <<< 78 + 2 <<< 0)) = .ok (.trd { z with dst := 2, sa := 4, sb := 6, fmt := 5, aux := 2 }) ∧
    dl (lw 0x24 0 (4 <<< 51 + 9 <<< 43)) = .ok (.pushm { z with sa := 4, sb := 9 }) ∧
    dl (lw 0x24 1 (4 <<< 51 + 4 <<< 43)) = .ok (.popm { z with sa := 4, sb := 4 }) ∧ dl (lw 0x24 2 (4 <<< 51)) = .ok (.lfmt { z with sa := 4 }) ∧
    dl (lw 0x24 3 (2 <<< 59 + 15 <<< 0)) = .ok (.rdspec { z with dst := 2, aux := 15 }) ∧
    dl (lw 0x25 0 (4 <<< 51 + 1 <<< 0 + 2 <<< 8 + 16 <<< 10)) = .ok (.enq { z with sa := 4, aux := 1, ord := 2, obs := 16 }) ∧
    dl (lw 0x25 1 (4 <<< 51 + 20 <<< 43 + 1 <<< 0)) = .ok (.enqd { z with sa := 4, sb := 20, aux := 1 }) ∧
    dl (lw 0x26 0 (18 <<< 10)) = .ok (.laneFence { z with obs := 18 }) ∧
    dl (lw 0x28 0 (2 <<< 59 + 4 <<< 51 + 0xFFFFFFFC <<< 3 + 1 <<< 42 + 2 <<< 0)) = .ok (.ldImm { y with dst := 2, sa := 4, imm := 0xFFFFFFFC, nega := 1, rm := 2 }) ∧
    dl (lw 0x28 1 (4 <<< 51 + 6 <<< 43 + 4 <<< 3 + 1 <<< 41 + 1 <<< 42 + 2 <<< 0)) = .ok (.stImm { y with sa := 4, sb := 6, imm := 4, negb := 1, nega := 1, rm := 2 }) ∧
    dl (lw 0x28 4 (4 <<< 51 + 4 <<< 3 + 1 <<< 40 + 1 <<< 39)) = .ok (.prefImm { y with sa := 4, imm := 4, absa := 1, absb := 1 }) := by decide
theorem test_decode_lane_control :
    dl (lw 0x30 0 (0xFFFE0001 <<< 3 + 9 <<< 70)) = .ok (.bra { y with imm := 0xFFFE0001, prd := 9 }) ∧
    dl (lw 0x30 1 (0xFFFFFFFE <<< 3)) = .ok (.lcall { y with imm := 0xFFFFFFFE }) ∧ dl (lw 0x31 0 (1 <<< 70)) = .ok (.lexit { z with prd := 1 }) ∧
    dl (lw 0x31 1 0) = .ok (.lend) ∧ dl (lw 0x31 2 0) = .ok (.wide) ∧ dl (lw 0x31 3 0) = .ok (.endw) ∧ dl (lw 0x31 4 0) = .ok (.lret) ∧
    dl (lw 0x32 0 (63 <<< 0)) = .ok (.laneBkpt { z with aux := 63 }) ∧ dl (lw 0x32 1 (7 <<< 0)) = .ok (.laneProg { z with aux := 7 }) ∧
    dl (lw 0x33 0 (63 <<< 0)) = .ok (.laneTrap { z with aux := 63 }) ∧ dl (lw 0x7E 127 (2 ^ 82 - 1)) = .ok (.hint) := by decide
theorem test_decode_matrix :
    dm (mw 0 (47 <<< 48 + 1 <<< 46 + 2 <<< 44 + 7 <<< 40 + 8 <<< 36 + 1 <<< 32 + 3 <<< 30 + 2 <<< 28 + 4095 <<< 16)) = .ok (.mma { x with acc := 47, sa := 1, sb := 2, af := 7, bf := 8, sat := 1, mrp := 3, mcp := 2, kc := 4095 }) ∧
    dm (mw 1 (1 <<< 48 + 3 <<< 46 + 3 <<< 44 + 13 <<< 40 + 13 <<< 36 + 15 <<< 12)) = .ok (.mmaq { x with acc := 1, sa := 3, sb := 3, af := 13, bf := 13, qk := 15 }) ∧
    dm (mw 2 (46 <<< 48)) = .ok (.mzero { x with acc := 46 }) ∧
    dm (mw 3 (5 <<< 48 + 14 <<< 40 + 15 <<< 2)) = .ok (.mlda { x with acc := 5, af := 14, omi := 15 }) ∧
    dm (mw 4 (5 <<< 48 + 6 <<< 40 + 5 <<< 33 + 1 <<< 32 + 1 <<< 30 + 1 <<< 28 + 2 <<< 2)) = .ok (.msta { x with acc := 5, af := 6, rm := 5, sat := 1, mrp := 1, mcp := 1, omi := 2 }) ∧
    dm (mw 5 (5 <<< 48 + 1 <<< 30 + 2 <<< 28 + 47 <<< 6)) = .ok (.madda { x with acc := 5, mrp := 1, mcp := 2, acb := 47 }) ∧
    dm (mw 0x10 (1 <<< 53 + 3 <<< 51 + 64 <<< 44 + 63 <<< 38)) = .ok (.mprdCnt { p with rc := 1, pi := 3, cnt := 64, first := 63 }) ∧
    dm (mw 0x10 (1 <<< 54 + 1 <<< 53 + 3 <<< 51 + 63 <<< 38 + 15 <<< 34)) = .ok (.mprdQ { p with rc := 1, pi := 3, first := 63, qs := 15 }) ∧
    dm (mw 0x11 (1 <<< 53 + 15 <<< 30)) = .ok (.msclSet { p with rc := 1, omi := 15 }) ∧
    dm (mw 0x11 (1 <<< 54 + 1 <<< 53)) = .ok (.msclClr { p with rc := 1 }) ∧ dm (mw 0x20 15) = .ok (.mnba) ∧ dm (mw 0x21 31) = .ok (.mnbw) ∧
    dm (mw 0x22 255) = .ok (.mwaits) ∧ dm (mw 0x23 (15 <<< 50 + 0xFFFFF)) = .ok (.mloop) ∧ dm (mw 0x24 0) = .ok (.mend) ∧
    dm (mw 0x25 0xFFFFF) = .ok (.mjmp) ∧ dm (mw 0x26 (2 ^ 48 - 1)) = .ok (.msafe) ∧ dm (mw 0x27 0) = .ok (.mexit) ∧
    dm (mw 0x3F (2 ^ 58 - 1)) = .ok (.mhint) := by decide

/-! ## States that meet the hypotheses of the statements -/

/-- A group with some scalar registers, and a state in which the scalar stream of a group in a slot of core 0 is in turn. -/
def gr (l : List (Nat × W64)) : Group := { bootGroup false with sregs := l }
def atSlot (sl : Nat) (g : Group) : State :=
  { placeWord State.reset 32 0 with
    turn := .scalar 0 sl, groups := [(sl, g)], blocks := [(0, { bootBlock false with groups := [sl] })] }
/-- The state with an EXPECT of k at barrier 63 of core 0. -/
def withBar (k : Nat) (s : State) : State := s.updPart 0 (fun q => { q with bars := [(barKey 0 0 63, { expect := k })] })
theorem meets_ScalarIntegerWords : ScalarTurn (atSlot 5 (gr [])) 0 5 (gr []) false 0 [1, 2, 3] := by decide
theorem meets_ScalarImmediates : ScalarTurn (atSlot 5 (gr [])) 0 5 (gr []) false 0 [1, 2, 3, 4] := by decide
theorem meets_ScalarFloat : ScalarTurn (atSlot 5 (gr [])) 0 5 (gr []) false 0 [63, 62, 61] := by decide
/-- SRET to 8 and to 6; a queue of 15 entries and one that is drained; SPAUSE of 0, of 1, and after its wait. -/
theorem meets_ScalarControl :
    (let g := gr [(2, 8)]; ScalarTurn (atSlot 5 g) 0 5 g false 0 [2] ∧ (g.reg 2).toNat % 4 = 0) ∧
    (let g := gr [(2, 6)]; ScalarTurn (atSlot 5 g) 0 5 g false 0 [2] ∧ (g.reg 2).toNat % 4 ≠ 0) ∧
    (let g : Group := { gr [] with dq := List.replicate 15 default }
     ScalarTurn (atSlot 5 g) 0 5 g false 0 [1, 2, 3, 4] ∧ g.trapMode = false ∧ g.dq.length < 16) ∧
    (let g : Group := { gr [] with trapMode := true }; ScalarTurn (atSlot 5 g) 0 5 g false 0 [1, 2, 3, 4] ∧ g.trapMode = true ∧ g.tlb = none) ∧
    (let g := gr []; ScalarTurn (atSlot 5 g) 0 5 g false 0 [1, 2, 3, 4] ∧ g.drained = true ∧ g.reg 1 = 0) ∧
    (let g : Group := { gr [(1, 1)] with arrived := some 0 }; ScalarTurn (atSlot 5 g) 0 5 g false 0 [1, 2, 3, 4] ∧ g.arrived.isSome = true) ∧
    (let g := gr [(1, 1)]; ScalarTurn (atSlot 5 g) 0 5 g false 0 [1, 2, 3, 4] ∧ g.reg 1 ≠ 0 ∧ g.arrived = none) := by and_intros <;> decide
theorem meets_GroupEnds :
    let g := gr []
    let s := atSlot 5 g
    ScalarTurn s 0 5 g false 0 [] ∧ g.drained = true ∧ g.copied = true ∧ returned s 0 5 g = true ∧ reportCopy g = none ∧
    (seqRuns (s.blockOf g) = true → (liveGroups s g.block).length ≠ 1) := by decide
/-- EXPECT at 1 and at 4,095; NBWAIT on a phase that differs and on one that does not; the last arrival of a core barrier and an earlier one. -/
theorem meets_BarrierWords :
    (∀ v ∈ [1, 4095], ScalarTurn (atSlot 5 (gr [(2, BitVec.ofNat 64 v)])) 0 5 (gr [(2, BitVec.ofNat 64 v)]) false 0 [2] ∧ 1 ≤ ((gr [(2, BitVec.ofNat 64 v)]).reg 2).toNat ∧
      ((gr [(2, BitVec.ofNat 64 v)]).reg 2).toNat ≤ 4095 ∧ (gr [(2, BitVec.ofNat 64 v)]).drained = true ∧
      heldGroup (atSlot 5 (gr [(2, BitVec.ofNat 64 v)])) 0 5 = none ∧ farLoads (atSlot 5 (gr [(2, BitVec.ofNat 64 v)])) 0 5 = false ∧
      (((atSlot 5 (gr [(2, BitVec.ofNat 64 v)])).blockOf (gr [(2, BitVec.ofNat 64 v)])).nbs.getD 15 {}).count = 0 ∧
      (((atSlot 5 (gr [(2, BitVec.ofNat 64 v)])).blockOf (gr [(2, BitVec.ofNat 64 v)])).nbs.getD 15 {}).phase ≠ ((gr [(2, BitVec.ofNat 64 v)]).reg 2).toNat % 2) ∧
    (let g := gr [(2, 2)]
     ScalarTurn (atSlot 5 g) 0 5 g false 0 [2] ∧ (((atSlot 5 g).blockOf g).nbs.getD 15 {}).phase = (g.reg 2).toNat % 2) ∧
    (∀ k ∈ [1, 2], ScalarTurn (withBar k (atSlot 5 (gr []))) 0 5 (gr []) false 0 [] ∧ (gr []).arrived = none ∧ (gr []).drained = true ∧ heldGroup (withBar k (atSlot 5 (gr []))) 0 5 = none ∧ farLoads (withBar k (atSlot 5 (gr []))) 0 5 = false ∧
      ((withBar k (atSlot 5 (gr []))).part? ((withBar k (atSlot 5 (gr []))).nbhdOf (gr [])).part).isSome = true ∧
      1 ≤ (barEntry (withBar k (atSlot 5 (gr []))) 0 (barKey 0 0 63)).expect ∧ (barEntry (withBar k (atSlot 5 (gr []))) 0 (barKey 0 0 63)).phase ≤ 1 ∧
      ((barEntry (withBar k (atSlot 5 (gr []))) 0 (barKey 0 0 63)).count + 1 = (barEntry (withBar k (atSlot 5 (gr []))) 0 (barKey 0 0 63)).expect ↔ k = 1)) := by
  and_intros <;> decide +kernel
/-- Bytes in memory, a test on a record that reads, and a state whose group has registers l and some bytes at 0x8000. -/
def withBytes (a : Nat) (l : List Byte) (s : State) : State := s.poke (cellsAt a l)
def okRec (r : Rec) (f : State → List Byte → Bool) : Bool := match r with
  | .ok u bs => f u bs
  | _ => false
def atData (l : List (Nat × W64)) (bs : List Byte) : State := withBytes 0x8000 bs (atSlot 5 (gr l))
def iss (l : List (Nat × W64)) (bs : List Byte) : Issuer := scalarIssuer (atData l bs) 0 5 (gr l)
/-- Registers 1 and 2. -/
def two (a b : Nat) : List (Nat × W64) := [(1, BitVec.ofNat 64 a), (2, BitVec.ofNat 64 b)]
def cpyRec : List Byte := bytesOf 8 0x10000 ++ bytesOf 8 0x20000 ++ bytesOf 8 64 ++ bytesOf 8 64 ++ bytesOf 8 4096 ++ bytesOf 8 4096
def cpygRec : List Byte := bytesOf 8 0x10000 ++ bytesOf 8 0x20000 ++ bytesOf 4 4096 ++ bytesOf 4 1 ++ bytesOf 4 4096 ++ bytesOf 4 0
def boxOk (l : List (Nat × W64)) (bs : List Byte) (n n1 n2 : Nat) : Bool :=
  decide (1 ≤ n % 2 ^ 24) && decide (1 ≤ n1) && decide (1 ≤ n2) &&
  (spanOutside (iss l cpyRec).p apScalar (wordAt bs 0) (n % 2 ^ 24) n1 n2 (wordAt bs 16) (wordAt bs 32)).isNone &&
  (spanOutside (iss l cpyRec).p apScalar (wordAt bs 8) (n % 2 ^ 24) n1 n2 (wordAt bs 24) (wordAt bs 40)).isNone
/-- CPY of 1 byte and of 2^32, of 3 rows of 64 bytes and of 2 planes of them; CPYG of one row of 4,096 bytes with an index at the end of its range. -/
theorem meets_CopyWords :
    ([1, 2 ^ 32].all (fun n => let l := two 0x8000 n
      decide (ScalarTurn (atData l cpyRec) 0 5 (gr l) false 4 [1, 2]) && okRec (readRecord (iss l cpyRec) ((gr l).reg 1).toNat 16 16 (atData l cpyRec))
        (fun u bs => decide (engineUsed u 0 1 < 32) && ((iss l cpyRec).p.outside apScalar (leAt bs 0 8) n).isNone &&
          ((iss l cpyRec).p.outside apScalar (leAt bs 8 8) n).isNone)) = true) ∧
    (let n := 64 + 3 * 2 ^ 24
     let l := two 0x8000 n
     (decide (ScalarTurn (atData l cpyRec) 0 5 (gr l) false 4 [1, 2]) && decide (n < 2 ^ 44) &&
       okRec (readRecord (iss l cpyRec) ((gr l).reg 1).toNat 32 16 (atData l cpyRec)) (fun u bs => decide (engineUsed u 0 0 < 32) && boxOk l bs n 3 1)) = true) ∧
    (let n := 64 + 3 * 2 ^ 24 + 2 * 2 ^ 44
     let l := two 0x8000 n
     (decide (ScalarTurn (atData l cpyRec) 0 5 (gr l) false 4 [1, 2]) &&
       okRec (readRecord (iss l cpyRec) ((gr l).reg 1).toNat 48 16 (atData l cpyRec)) (fun u bs => decide (engineUsed u 0 0 < 32) && boxOk l bs n 3 2)) = true) ∧
    (let l := two 0x8000 0x9000
     (decide (ScalarTurn (atData l cpygRec) 0 5 (gr l) false 4 [1, 2]) && okRec (readRecord (iss l cpygRec) ((gr l).reg 1).toNat 32 16 (atData l cpygRec))
       (fun u bs => decide (engineUsed u 0 0 < 32) && leAt bs 16 4 == 4096 && leAt bs 20 4 == 1 && leAt bs 28 4 == 0 && decide (((gr l).reg 2).toNat % 8 = 0) &&
         ((iss l cpygRec).p.outside apScalar ((gr l).reg 2).toNat (8 * 1)).isNone && ((iss l cpygRec).p.outside apScalar (wordAt bs 8).toNat 4096).isNone)) = true) := by
  decide +kernel
/-- A direct map of 64 bf16 elements in memory. -/
def omapRec : List Byte := bytesOf 8 0x10000 ++ bytesOf 8 0 ++ bytesOf 8 0 ++ bytesOf 2 64 ++ bytesOf 2 1 ++ bytesOf 2 1 ++ bytesOf 2 (1024 + 8)
def seqSlot (g : Group) : State := { atSlot 5 g with blocks := [(0, { bootBlock true with groups := [5] })] }
theorem meets_BatchAndMapWords :
    (let g : Group := { gr [(2, 1)] with bn := 2 ^ 32 - 1, batches := [{ num := 1, sealed := true, left := 0, fail := none }] }
     (decide (ScalarTurn (atSlot 5 g) 0 5 g false 0 [1, 2]) && g.drained &&
       g.batches.all (fun x => !(x.num == sealedLong (nextBatch g.bn) && x.sealed) || x.left == 0) &&
       g.batches.all (fun x => !covers g ((g.reg 2).toNat % 2 ^ 32) x || (x.left == 0 && x.fail.isNone))) = true) ∧
    (let l := two 0x8000 0
     let s := withBytes 0x8000 omapRec (seqSlot (gr l))
     (decide (ScalarTurn s 0 5 (gr l) false 4 [1]) && (s.blockOf (gr l)).seq.isSome &&
       okRec (readRecord (scalarIssuer s 0 5 (gr l)) ((gr l).reg 1).toNat 32 32 s) (fun u bs =>
         !(omapOf (pack 256 bs)).bad (scalarIssuer s 0 5 (gr l)).p && !feeding (u.blockOf (gr l)) 15)) = true) := by decide +kernel
/-- A tile operation of the scalar stream in a state of Table 9-2. -/
def withOp (o : TileOp) (s : State) : State := s.updNbhd 0 (fun n => { n with ops := [o] })
theorem meets_TileScalarWords :
    (let g := gr (two 0x30005 0)
     let s (st tag : Nat) : State := withOp { id := 9, strm := .scalar 0 5, kind := 0, tag, word := 5, st } (atSlot 5 g)
     [(2, 0), (1, 2), (2, 2), (3, 0)].all (fun x =>
       decide (ScalarTurn (s x.1 x.2) 0 5 g false 0 [3, 1, 2]) && decide (((s x.1 x.2).core 0).copies.length < 64) &&
       ((tileOf (s x.1 x.2) ((s x.1 x.2).blockOf g).nb (.scalar 0 5) x.2).map (·.st)) == some x.1) = true) ∧
    (let g := gr (two 5 0)
     (decide (ScalarTurn (atSlot 5 g) 0 5 g false 0 [1]) && (tileOf (atSlot 5 g) ((atSlot 5 g).blockOf g).nb (.scalar 0 5) 0).isNone) = true) ∧
    (let g := gr (two 0x30005 0x8000)
     let s := atSlot 5 g
     let i := scalarIssuer s 0 5 g
     let w := (g.reg 1).toNat % 2 ^ 32
     (decide (ScalarTurn s 0 5 g false 0 [1, 2]) && decide ((s.core 0).copies.length < 64) && (tileOf s (s.blockOf g).nb (.scalar 0 5) 0).isNone &&
       (tileOf s (s.blockOf g).nb (.scalar 0 5) 2).isNone && !shapeBad w && (rowsOutside i.p apScalar w (g.reg 2).toNat ((g.reg 1).toNat / 2 ^ 32)).isNone) = true) ∧
    (let g := gr (two 0x30005 (0xFFFF0 * 2 ^ 44))
     let s := atSlot 5 g
     ((scalarIssuer s 0 5 g).p.outside apGranule (g.reg 2).toNat 1).isNone = true) ∧
    ([0, 2].all (fun tag => let g := gr (two 0x30005 0x8000)
     let s := withOp { id := 9, strm := .scalar 0 5, kind := 0, tag, word := 5, st := 3 } (atSlot 5 g)
     decide (ScalarTurn s 0 5 g false 0 [1, 2]) && ((tileOf s (s.blockOf g).nb (.scalar 0 5) tag).map (·.st)) == some 3) = true) := by decide +kernel
/-- A region of one line with an idle engine. -/
def reg0 : Region := { ctx := 0, sg := 3, base := 0x100000, lines := 1, pent := 1, pool := 0x200000, pages := [256], poolPages := [512] }
def withRegion (r : Region) (s : State) : State := { s with regions := [(0, r)] }
def snapRec : List Byte := bytesOf 8 0 ++ bytesOf 4 0 ++ bytesOf 4 0 ++ bytesOf 8 0 ++ bytesOf 8 0
theorem meets_SnapshotWords :
    ([(0 : Nat), 1, 6].all (fun d => let l := two 3 0x8000
      let r := { reg0 with depth := d, e := 0xFFFE }
      let s := withRegion r (atData l snapRec)
      decide (ScalarTurn s 0 5 (gr l) false 0 [4, 1, 2]) && (findRegion s (s.nbhdOf (gr l)).ctx (((gr l).reg 1).toNat % 64) == some (0, r)) &&
      (gr l).arrived.isNone && r.st == 0 && (gr l).drained && firstAtRecord s r (recordPlace 0 5 (gr l)) &&
      (flushL1 0 (leaveRegion s 0 (recordPlace 0 5 (gr l)))).1 && decide (r.depth < 7) && r.e != 0xFFFF &&
      (d != 0 || okRec (readRecord (scalarIssuer s 0 5 (gr l)) ((gr l).reg 2).toNat 32 32 s) (fun u bs =>
        firstAtRecord (keepRec bs 0 5 u) r (recordPlace 0 5 (gr l)) && leAt bs 8 4 == 0 && leAt bs 24 8 == 0))) = true) ∧
    ([(0 : Nat), 1, 2].all (fun d => let g := gr (two 3 0)
      let r := { reg0 with depth := d }
      let s := withRegion r (atSlot 5 g)
      decide (ScalarTurn s 0 5 g false 0 [1]) && (findRegion s (s.nbhdOf g).ctx ((g.reg 1).toNat % 64) == some (0, r)) &&
      g.arrived.isNone && r.st == 0 && g.drained && firstAtRecord s r (recordPlace 0 5 g) &&
      (match releaseSteps (leaveRegion s 0 (recordPlace 0 5 g)) 0 5 0b11110 with
        | .ok _ => true
        | _ => false)) = true) ∧
    (let g : Group := { gr (two 3 0) with arrived := some 2 }
     let s := withRegion reg0 (atSlot 5 g)
     (decide (ScalarTurn s 0 5 g false 0 [1]) && (findRegion s (s.nbhdOf g).ctx ((g.reg 1).toNat % 64) == some (0, reg0)) && reg0.issuer != some (5, 0)) = true) := by
  decide +kernel
def withTvec (v : W64) (s : State) : State := { s with ctxs := [(0, { part := 0, ptroot := 0x10000, tvec := v })] }
theorem meets_TrapEntry :
    let s := withTvec 0x5000 (atSlot 5 (gr []))
    ScalarTurn s 0 5 (gr []) false 0 [2] ∧ (5 : Nat) ≠ Config.agentSlot ∧ (gr []).trapMode = false ∧ (s.ctx (s.nbhdOf (gr [])).ctx).tvec ≠ 0 ∧
    NothingOnWay s 0 5 (gr []) := by
  refine ⟨by decide, by decide, by decide, by decide, by decide, by decide, fun n h o ho => ?_⟩
  have e : (withTvec 0x5000 (atSlot 5 (gr []))).nbhd? ((withTvec 0x5000 (atSlot 5 (gr []))).blockOf (gr [])).nb = some bootNbhd := by decide
  obtain rfl : bootNbhd = n := by simpa using e.symm.trans h
  exact absurd ho List.not_mem_nil
/-- A scalar trap, and a lane trap that replays. -/
theorem meets_ReturnFromTrap :
    (let g : Group := { gr [] with trapMode := true }
     ScalarTurn (atSlot 5 g) 0 5 g false 0 [] ∧ g.trapMode = true ∧ g.tlb = none ∧ g.tstat.toNat % 4 = 0) ∧
    (let g : Group := { bootGroup true with trapMode := true, tstat := 0x21 }
     ScalarTurn (atSlot 5 g) 0 5 g false 0 [] ∧ g.tlb = none ∧ g.tstat.toNat % 4 = 1 ∧ g.tstat.getLsbD 5 = true ∧ g.lb.isSome = true) := by
  and_intros <;> decide
theorem meets_ReturnFromTrap_outside : ScalarTurn (atSlot 5 (gr [])) 0 5 (gr []) false 0 [] ∧ (gr []).trapMode = false := by decide
theorem meets_SystemRegisters :
    (let g : Group := { gr [] with trapMode := true }
     ScalarTurn (atSlot 5 g) 0 5 g false 0 [1] ∧ sysTrap 0x000 5 g.trapMode false = none ∧ sysTrap 0x001 5 g.trapMode true = none ∧ g.arrived = none) ∧
    (let g := gr []
     ScalarTurn (atSlot 47 g) 0 47 g false 0 [1] ∧ sysTrap 0x043 47 g.trapMode false = none ∧ sysTrap 0x042 47 g.trapMode true = none ∧
     (0x042 : BitVec 11) ≠ 0x043) ∧
    (∀ y ∈ [false, true], let g := gr [(1, 2)]
     let s : State := { atSlot 47 g with requests := if y then [{ id := 4, kind := 2, dev := 3, core := 0, slot := 48, addr := 0, since := 0 }] else [] }
     ScalarTurn s 0 47 g false 0 [1] ∧ g.arrived ≠ some 1 ∧
     (sysWrite s 0 47 g 0x043 (g.reg 1)).requests.any (fun q => q.kind == 2 && q.st == 0 && q.slot == 48 && dieOf q.core == dieOf 0) = y) ∧
    (let g : Group := { gr [(1, 2)] with arrived := some 1 }; ScalarTurn (atSlot 47 g) 0 47 g false 0 [1] ∧ g.arrived = some 1) := by and_intros <;> decide
/-- Numbers at the edges of the ranges: 0x006 and 0x046 are not listed, 0x00F is a trap register. -/
theorem meets_SystemRegisters_traps :
    ScalarTurn (atSlot 5 (gr [])) 0 5 (gr []) false 0 [1] ∧ sysKind 0x006 = none ∧ sysKind 0x046 = none ∧ sysKind 0x7FF = none ∧
    (0x00F : BitVec 11).toNat < 16 ∧ (gr []).trapMode = false ∧ (5 : Nat) ≠ Config.agentSlot ∧
    (atSlot 5 (gr [])).turn = .scalar 0 5 ∧ (atSlot 5 (gr [])).group? 0 5 = some (gr []) := by decide
/-- A stage of one group. -/
def stage1 : Stage := { bootStage with sid := 1, ins := [0], nin := 1, roles := 0 }
/-- The firmware agent of core 0 and a second neighbourhood of core 1 that it saves to 0x8000: not begun, under way, done; an anchor of no block; and an area of the stage 1
whose head alone has bytes, that of no stage, and one that finds no room. -/
def agent (a b : Nat) : Group := gr (two a b)
def withNb1 (s : State) : State :=
  { s with nbhds := s.nbhds.set 1 { bootNbhd with col := 1, agent := false }, blocks := s.blocks.set 8 { bootBlock false with nb := 1, groups := [] } }
def saveOp (done : Bool) : SaveOp := { id := 4, core := 0, slot := 47, nb := 1, anchor := 1, area := 0x8000, since := 0, done }
theorem meets_PreemptionWords :
    (let g := agent 1 0x8000
     let s := withNb1 (atSlot 47 g)
     ScalarTurn s 0 47 g true 0 [3, 1, 2] ∧ ownSave s 0 47 = none ∧ anchorBad (g.reg 1).toNat = false ∧ (g.reg 2).toNat % 256 = 0 ∧
     anchorNb s (g.reg 1).toNat = .ok 1 ∧ nbStopped s 1 = false ∧ g.arrived = none) ∧
    (let g := agent 5 0x8000
     let s := withNb1 (atSlot 47 g)
     ScalarTurn s 0 47 g true 0 [3, 1, 2] ∧ ownSave s 0 47 = none ∧ anchorBad (g.reg 1).toNat = false ∧ anchorNb s (g.reg 1).toNat = .error 1) ∧
    (let g := agent 1 0x8000
     let s : State := { withNb1 (atSlot 47 g) with saveOps := [saveOp true] }
     ScalarTurn s 0 47 g true 0 [3, 1, 2] ∧ ownSave s 0 47 = some (saveOp true) ∧ (saveOp true).done = true ∧ restoring s (saveOp true).nb = false) ∧
    (let g := agent 1 0x8000
     let s (sid : Nat) : State := withBytes 0x8000 (bytesOf 4 0x4B484331 ++ bytesOf 2 1 ++ bytesOf 2 0 ++ bytesOf 2 sid)
       ((atSlot 47 g).updPart 0 (fun p => { p with stages := [(1, stage1), (2, { stage1 with sid := 2, rows := 60 })] }))
     (∀ n ∈ [1, 2, 3], ScalarTurn (s n) 0 47 g true 0 [3, 1, 2] ∧ ownSave (s n) 0 47 = none ∧ (g.reg 2).toNat % 256 = 0) ∧
     areaStage (s 3) 0 0x8000 = none ∧ areaStage (s 1) 0 0x8000 = some stage1 ∧ (rectRoom (s 1) 0 0 1 stage1).isSome = true ∧
     areaStage (s 2) 0 0x8000 = some { stage1 with sid := 2, rows := 60 } ∧ rectRoom (s 2) 0 0 1 { stage1 with sid := 2, rows := 60 } = none) := by
  and_intros <;> decide +kernel
/-- Probes below and at 2^52; TLBI of no bytes, of some, and one that has waited. -/
theorem meets_TranslationWords :
    (let g := gr (two (2 ^ 52 - 1) 0); ScalarTurn (atSlot 5 g) 0 5 g false 0 [2, 3, 1] ∧ (g.reg 1).toNat < 2 ^ 52) ∧
    (let g := gr (two (2 ^ 52) 0); ScalarTurn (atSlot 5 g) 0 5 g false 0 [2, 3, 1] ∧ 2 ^ 52 ≤ (g.reg 1).toNat) ∧
    (let g := gr (two 0x8000 0); ScalarTurn (atSlot 47 g) 0 47 g true 0 [1, 2] ∧ g.arrived = none ∧ (g.reg 2).toNat = 0) ∧
    (let g := gr (two 0x8000 4096)
     ScalarTurn (atSlot 47 g) 0 47 g true 0 [1, 2] ∧ g.arrived = none ∧ (g.reg 2).toNat ≠ 0 ∧
     accessing (flushAll (dropLeaves (atSlot 47 g) (fun l => l.ctx == 0 && l.meets 0x8000 4096) (stripedLine (atSlot 47 g) 0 0x8000 4096))).2 0 = false ∧
     accessing (flushAll (dropLeaves (atSlot 47 g) (fun l => l.ctx == 0) (fun _ => false))).2 0 = false ∧
     accessing (flushAll (dropLeaves (atSlot 47 g) (fun l => l.ctx == 0) (fun _ => false))).2 (2 ^ 32) = false) ∧
    (let g : Group := { gr [] with arrived := some 1 }
     ScalarTurn (atSlot 47 g) 0 47 g true 0 [1, 2] ∧ g.arrived = some 1 ∧ accessing (flushAll (atSlot 47 g)).2 0 = false) := by
  and_intros <;> decide +kernel
/-- A partition with a counter table of two counters at 0x9000, and a counter of 7. -/
def withCtr (s : State) : State := withBytes 0x9008 (bytesOf 8 7) (s.updPart 0 (fun p => { p with ctrbase := 0x9000, ctrcount := 2 }))
theorem meets_CounterWords :
    ([7, 65536].all (fun n => let g := gr (two 1 n)
      let s := withCtr (atSlot 5 g)
      decide (ScalarTurn s 0 5 g false 0 [3, 1, 2]) && (counterAt s (s.nbhdOf g).part ((g.reg 1).toNat % 2 ^ 32) == some 0x9008) &&
      g.arrived.isNone && decide (1 ≤ (g.reg 2).toNat) && decide ((g.reg 2).toNat ≤ 65536) &&
      (decide ((g.reg 2).toNat ≤ tableWord s 0x9008) == (n == 7)) && !inPool s 0x9008 && (match releaseSteps s 0 5 31 with
        | .ok _ => true
        | _ => false)) = true) ∧
    (let g := gr (two 1 7)
     let s : State := { withRegion { reg0 with poolPages := [9] } (withCtr (atSlot 5 g)) with pageMap := [(9, 0, 0, 0)] }
     (decide (ScalarTurn s 0 5 g false 0 [3, 1, 2]) && (counterAt s (s.nbhdOf g).part ((g.reg 1).toNat % 2 ^ 32) == some 0x9008) && inPool s 0x9008) = true) := by
  decide +kernel
/-- A queue of that stage, whose header stands at 0xA000 and its ring at 0xA100: with two records and with none. -/
def queueBytes (tail : Nat) : List Byte :=
  bytesOf 8 0 ++ bytesOf 8 tail ++ bytesOf 8 tail ++ bytesOf 8 0xA100 ++ bytesOf 8 0 ++ bytesOf 4 0 ++ bytesOf 1 4 ++ bytesOf 1 0 ++ bytesOf 2 1
def withStage (tail : Nat) (s : State) : State :=
  withBytes 0xA000 (queueBytes tail) (s.updPart 0 (fun p => { p with stages := [(1, stage1)], queues := [(0, { hdr := 0xA000, dev := 0, remote := false })] }))
theorem meets_LaunchWords :
    (let g := gr (two 2 0x8000)
     let s := withStage 0 (atSlot 47 g)
     (decide (ScalarTurn s 0 47 g true 0 [3, 1, 2]) && ((s.part? 0).bind (fun p => p.stages.get? 2)).isNone) = true) ∧
    ([0, 2].all (fun n => let g := gr (two 1 0x8000)
      let s := withStage n (withBytes 0x8000 (bytesOf 8 5) (atSlot 47 g))
      let t := stage1
      decide (ScalarTurn s 0 47 g true 0 [3, 1, 2]) && ((s.part? (s.nbhdOf g).part).bind (fun p => p.stages.get? ((g.reg 1).toNat % 65536)) == some t) &&
      (rectRoom s 0 0 0 t).isSome && ((waitsAt s 0 0).or (pickQueue s 0 0 t) == some 0) &&
      (((queueOf s 0 0).map (fun q => dequeueReady s q 0 t && (wanted s q.hdr t == n))).getD false) &&
      okRec (readRecord (scalarIssuer s 0 47 g) ((g.reg 2).toNat) 72 1 s) (fun u bs => (rectRoom u 0 0 0 t).isSome &&
        (servedRequest u 0 0 1 (pack 512 (bs.drop 8))).isNone)) = true) ∧
    (let g := gr (two 1 0x8000)
     let s := (withStage 0 (atSlot 47 g)).updPart 0 (fun p => { p with stages := [(1, { stage1 with rows := 60 })] })
     (decide (ScalarTurn s 0 47 g true 0 [3, 1, 2]) && (rectRoom s 0 0 0 { stage1 with rows := 60 }).isNone &&
      okRec (readRecord (scalarIssuer s 0 47 g) ((g.reg 2).toNat) 72 1 s) (fun u _ => (rectRoom u 0 0 0 { stage1 with rows := 60 }).isNone)) = true) := by
  decide +kernel
/-- RMPUT and RMGET of 1 byte and of 2^24; an RMATOM answered and failed; RMFLUSH and FLUSHP of a module that nothing is sent to. -/
def rmaRec : List Byte := bytesOf 8 0x10000 ++ bytesOf 8 0 ++ bytesOf 4 5 ++ bytesOf 2 7 ++ bytesOf 8 0 ++ bytesOf 2 0
def rmatomReq (st : Nat) : Request := { id := 3, kind := 5, dev := 7, core := 0, slot := 5, addr := 0, since := 0, split := 4, st }
theorem meets_RemoteWords :
    ([1, 2 ^ 24].all (fun n => let l := two 0x8000 n
      decide (ScalarTurn (atData l rmaRec) 0 5 (gr l) false 4 [1, 2]) && decide (1 ≤ ((gr l).reg 2).toNat) && decide (((gr l).reg 2).toNat ≤ 2 ^ 24) &&
      okRec (readRecord (iss l rmaRec) ((gr l).reg 1).toNat 32 32 (atData l rmaRec)) (fun u bs => !(rmaOf bs).bad &&
        ((iss l rmaRec).p.outside apScalar (rmaOf bs).laddr n).isNone && decide (engineUsed u 0 1 < 32))) = true) ∧
    ([1, 2].all (fun st => let s : State := { atSlot 5 (gr []) with requests := [rmatomReq st] }
      decide (ScalarTurn s 0 5 (gr []) false 0 [1, 2, 3]) && (rmatomOf s (scalarIssuer s 0 5 (gr [])) == some (rmatomReq st))) = true) ∧
    (let g := gr (two 7 0)
     let s : State := { atSlot 5 g with devnum := 3 }
     (decide (ScalarTurn s 0 5 g false 0 [1]) && decide ((g.reg 1).toNat % 16384 ≠ s.devnum.toNat) && !rmaPending s 0 5 7 && g.rmaFail.isEmpty &&
       g.drained && !postedPending (sendContrib s 0 (some 7)) 0 5 (some 7) && (takePosted (sendContrib s 0 (some 7)) 0 5 (some 7)).isNone) = true) := by decide +kernel
/-- KEYSET of 64 bytes at the end of a page, with a free entry; KEYREV of the context's own key. -/
def key9 : Key := { tag := 9, ctx := 0, vbase := 0, len := 64, rights := 7 }
def fullKeys (p : Part) : Part := { p with keys := (List.range 4096).map (fun k => (k, key9)) }
theorem get?_map_key9 (l : List Nat) (k : Nat) (h : k ∈ l) : NMap.get? (l.map (fun j => (j, key9))) k = some key9 := by
  induction l with
  | nil => cases h
  | cons x l ih =>
    by_cases e : x = k
    · simp [NMap.get?, e]
    · have := ih (by simpa [Ne.symm e] using h)
      simp_all [NMap.get?]
theorem freeKey_fullKeys (p : Part) : freeKey (fullKeys p) = none := by
  rw [freeKey, List.find?_eq_none]
  intro k hk
  have : k ∈ List.range 4096 := List.mem_of_mem_drop hk
  rw [fullKeys, get?_map_key9 _ _ this]; decide
theorem meets_RemoteWords_keys :
    (let g := gr (two 0x8FC0 64)
     let s := atSlot 5 g
     (decide (ScalarTurn s 0 5 g false 0 [3, 1, 2]) && ((g.reg 1).toNat % 64 == 0) && ((g.reg 2).toNat == 64) &&
       (List.range ((0x8FC0 + 64 + 4095) / 4096 - 0x8FC0 / 4096)).all (fun j => (keyFault s 0 7 false (max 0x8FC0 ((0x8FC0 / 4096 + j) * 4096))).isNone) &&
       (((s.part? (s.nbhdOf g).part).bind freeKey) == some 1)) = true) ∧
    (let g := gr (two 0x8FC0 64)
     let s := (atSlot 5 g).updPart 0 fullKeys
     ScalarTurn s 0 5 g false 0 [3, 1, 2] ∧ s.part? (s.nbhdOf g).part = some (fullKeys bootPart) ∧ freeKey (fullKeys bootPart) = none ∧
     ∀ j < (0x8FC0 + 64 + 4095) / 4096 - 0x8FC0 / 4096, keyFault s 0 7 false (max 0x8FC0 ((0x8FC0 / 4096 + j) * 4096)) = none) ∧
    (let g := gr (two (9 * 65536 + 5) 0)
     let s := (atSlot 5 g).updPart 0 (fun p => { p with keys := [(5, key9)] })
     (decide (ScalarTurn s 0 5 g false 0 [3, 1, 2]) && decide ((g.reg 1).toNat < 2 ^ 32) &&
       (((s.part? (s.nbhdOf g).part).bind (fun p => p.keys.get? ((g.reg 1).toNat % 4096))) == some key9) && (key9.tag == (g.reg 1).toNat / 65536) &&
       ((g.reg 1).toNat / 4096 % 16 == 0) && !key9.revoked) = true) := ⟨by decide +kernel, ⟨by decide +kernel, rfl, freeKey_fullKeys _, by decide +kernel⟩, by decide +kernel⟩
/-- A lane stream whose split 0 issues. -/
def lanes0 : LaneBlock := freshBlock 0 (BitVec.allOnes 32) Config.fmtrReset 0 [0, 0, 0, 0]
def lg (b : LaneBlock) : Group := { bootGroup false with lb := some b }
def atLane (g : Group) : State := { atSlot 5 g with turn := .lane 0 5 }
theorem meets_FenceWords :
    (let g := gr []
     let s := atSlot 5 g
     (decide (ScalarTurn s 0 5 g false 0 []) && g.arrived.isNone && (match releaseSteps s 0 5 31 with
       | .ok u => (u.core 0).loads.isEmpty && !invalidating (purgePartition 0 (fullSig (purgeL1 0 u) 0 5)) 0 true
       | _ => false)) = true) ∧
    (let g := lg lanes0
     let s := atLane g
     (decide (LaneTurn s 0 5 0 g lanes0 0 8 [] []) && (laneEnv s 0 5 0 g lanes0 8 []).acting.isEmpty) = true) ∧
    (let g := lg lanes0
     let s := atLane g
     let e := laneEnv s 0 5 0 g lanes0 0 []
     (decide (LaneTurn s 0 5 0 g lanes0 0 0 [] []) && !e.acting.isEmpty && (match releaseSteps (laneStart s e) 0 5 16 with
       | .ok u => (u.core 0).loads.isEmpty && !invalidating (fullSig (purgeL1 0 u) 0 5) 0 false
       | _ => false)) = true) ∧
    ([0, 1, 65].all (fun n => let g := gr (two 0x8000 n)
      let s := atSlot 5 g
      let lines := linesOver s (partyOf s 0 5 g) 0x8000 n
      let swept (drop : Bool) : Bool × State := lines.foldl (lineOp 0 drop) (true, s)
      decide (ScalarTurn s 0 5 g false 0 [1, 2]) && g.arrived.isNone && decide (0x8000 + (g.reg 2).toNat ≤ 2 ^ 52) &&
      [true, false].all (fun d => (swept d).1 && (lines.findSome? (unplaced (swept d).2 0)).isNone)) = true) := by decide +kernel
theorem meets_ObservationWords :
    (let g := gr (two (0x4000 + 0x4FFC * 2 ^ 32) (2 ^ 17 - 1))
     (decide (ScalarTurn (atSlot 5 g) 0 5 g false 0 [3, 1, 2]) && decide ((g.reg 1).toNat % 2 ^ 32 ≤ (g.reg 1).toNat / 2 ^ 32) &&
       decide ((g.reg 2).toNat < 2 ^ 17)) = true) ∧
    (let g := lg lanes0
     let s := (atLane g).updPart 0 (fun p => { p with dbgen := true })
     let e := laneEnv s 0 5 0 g lanes0 0 []
     let d := laneEnv s 0 5 0 g lanes0 8 []
     (decide (LaneTurn s 0 5 0 g lanes0 0 0 [] []) && decide (e.exec &&& e.keep ≠ 0) && debugging (laneStart s e) ((laneStart s e).nbhdOf e.g).part &&
       decide (LaneTurn s 0 5 0 g lanes0 0 8 [] []) && decide (d.exec &&& d.keep = 0)) = true) := by decide +kernel
/-- Split 0 of lanes0 issues a word of the type t with these sources and destinations. -/
abbrev ready (deny : Nat) (srcs : List Src) (dsts : List (Nat × Nat)) : Prop :=
  LaneTurn (atLane (lg lanes0)) 0 5 0 (lg lanes0) lanes0 deny 0 srcs dsts
def ofType (t : Nat) : L3 := { z with fmt := BitVec.ofNat 4 t, dst := 2, sa := 4, sb := 6, sc := 8 }
def ofTypeI (t : Nat) : LI := { y with fmt := BitVec.ofNat 4 t, dst := 2, sa := 4, sb := 6 }
/-- Words of one register and of a pair (types 4 and 3). -/
theorem meets_LaneIntegerWords : ∀ t ∈ [0, 3, 4], ready 0 [srcA (ofType t).toLaneHead (regsOf (ofType t).fmt), srcB (ofType t).toLaneHead (regsOf (ofType t).fmt)] [((ofType t).dst.toNat, regsOf (ofType t).fmt)] ∧
    ready 0 [srcA (ofTypeI t).toLaneHead (regsOf (ofTypeI t).fmt)] [((ofTypeI t).dst.toNat, regsOf (ofTypeI t).fmt)] ∧
    ready 0 [] [((ofType t).dst.toNat, regsOf (ofType t).fmt)] ∧ ready 0 [] [((ofType t).dst.toNat, 1)] ∧ (ofType t).fmt.toNat ≤ 4 := by decide +kernel
theorem meets_LaneShiftsAndFields : ∀ t ∈ [0, 2, 3, 4], ready 0 [srcA (ofType t).toLaneHead (regsOf (ofType t).fmt), srcB (ofType t).toLaneHead 1] [((ofType t).dst.toNat, regsOf (ofType t).fmt)] ∧
    ready 0 [srcA (ofTypeI t).toLaneHead (regsOf (ofTypeI t).fmt)] [((ofTypeI t).dst.toNat, regsOf (ofTypeI t).fmt)] ∧
    ready 0 [srcA (ofType t).toLaneHead 1, srcB (ofType t).toLaneHead 1, srcC (ofType t) 1] [((ofType t).dst.toNat, 1)] ∧
    ready 0 [srcA (ofTypeI t).toLaneHead 1, srcB (ofTypeI t).toLaneHead 1] [((ofTypeI t).dst.toNat, 1)] ∧
    ready 0 [srcA (ofType t).toLaneHead 1, srcB (ofType t).toLaneHead 1] [((ofType t).dst.toNat, 1)] ∧
    ready 0 [srcA (ofTypeI t).toLaneHead 1] [((ofTypeI t).dst.toNat, 1)] := by decide +kernel
theorem meets_LanePredicates : ∀ t ∈ [0, 3, 4], ready 0 [srcA (ofType t).toLaneHead (regsOf (ofType t).fmt), srcB (ofType t).toLaneHead (regsOf (ofType t).fmt)] [] ∧
    ready 0 [srcA (ofTypeI t).toLaneHead (regsOf (ofTypeI t).fmt)] [] ∧ ready 0 [] [] ∧
    ready 0 [srcA (ofType t).toLaneHead 1, srcB (ofType t).toLaneHead 1] [((ofType t).dst.toNat, 1)] ∧
    ready 0 [srcA (ofTypeI t).toLaneHead 1] [((ofTypeI t).dst.toNat, 1)] := by decide +kernel
/-- The sources of one, two and three registers of a type, and of an immediate word. -/
theorem meets_LaneFloat : ∀ t ∈ [5, 7, 8], let n := if Encoding.pairFmt t then 2 else 1
    let w := (ofType t).toLaneHead
    let v := (ofTypeI t).toLaneHead
    ready 2 [srcA w n, srcB w n] [(w.dst.toNat, n)] ∧ ready 2 [srcA v n] [(v.dst.toNat, n)] ∧ ready 2 [srcA w n, srcB w n, srcC (ofType t) n] [(w.dst.toNat, n)] ∧
    ready 2 [srcA v n, srcB v n] [(v.dst.toNat, n)] ∧ ready 2 [srcA w 1] [(w.dst.toNat, n)] := by decide +kernel
theorem meets_LaneCompareAndTranscendental : ∀ t ∈ [5, 8], let n := if Encoding.pairFmt t then 2 else 1
    let w := (ofType t).toLaneHead
    let v := (ofTypeI t).toLaneHead
    ready 2 [srcA w n, srcB w n] [] ∧ ready 2 [srcA v n] [] ∧ ready 2 [srcA w n] [(w.dst.toNat, n)] ∧
    ready 2 [srcA w 1, srcB w 1] [(w.dst.toNat, 1)] ∧ ready 2 [srcA v 1] [(v.dst.toNat, 1)] := by decide +kernel
/-- CVT to FP64 and from FP64, and CVT to a packed type of two sources; LFMT with lanes and with none. -/
theorem meets_LaneConversions :
    (∀ t ∈ [5, 7, 8], ∀ u ∈ [5, 8], let w : L3 := { ofType t with aux := BitVec.ofNat 6 u }
     ready 2 ([srcA w.toLaneHead (if Encoding.pairFmt (w.aux.toNat % 16) then 2 else 1)] ++ (if w.fmt = 7 then [srcB w.toLaneHead 1] else [])) [(w.dst.toNat, regsOf w.fmt)]) ∧
    ready 0 [srcA z.toLaneHead 1] [] ∧ ready 0 [] [(0, 1)] ∧
    (let e := laneEnv (atLane (lg lanes0)) 0 5 0 (lg lanes0) lanes0 0 [srcA z.toLaneHead 1]
     lanesOf (e.exec &&& e.keep) = List.range 32) ∧
    LaneTurn (atLane (lg lanes0)) 0 5 0 (lg lanes0) lanes0 0 8 [srcA z.toLaneHead 1] [] ∧
    (let e := laneEnv (atLane (lg lanes0)) 0 5 0 (lg lanes0) lanes0 8 [srcA z.toLaneHead 1]
     lanesOf (e.exec &&& e.keep) = []) := by and_intros <;> decide +kernel
/-- SHFL, GSCAN, GRED and VOTE of one register and of a pair; GRED and VOTE to a scalar register. -/
theorem meets_CrossLaneWords :
    (∀ t ∈ [1, 3], let w := ofType t
     ready 2 [srcA w.toLaneHead (regsOf w.fmt), srcB w.toLaneHead 1] [(w.dst.toNat, regsOf w.fmt)] ∧
     ready 2 [srcA (ofTypeI t).toLaneHead (regsOf (ofTypeI t).fmt)] [((ofTypeI t).dst.toNat, regsOf (ofTypeI t).fmt)] ∧
     ready 2 [srcA w.toLaneHead (regsOf w.fmt)] [(w.dst.toNat, regsOf w.fmt)] ∧ w.aux.getLsbD 5 = false ∧
     ready 2 [srcA w.toLaneHead (regsOf w.fmt)] []) ∧
    ready 2 [] [(2, 1)] ∧ ready 2 [] [] ∧
    (let w : L3 := { z with aux := 35 }; w.aux.getLsbD 5 = true ∧ w.prd ≠ 8) ∧
    (let w : L3 := { z with aux := 3 }; w.aux.toNat % 4 = 3 ∧ w.aux.getLsbD 5 = false) ∧
    (let w : L3 := { z with aux := 2, pdst := 1 }; w.aux.toNat % 4 ≤ 2 ∧ w.aux.getLsbD 5 = false ∧ w.pdst ≠ 0) := by and_intros <;> decide +kernel
/-- A sequencer in turn. -/
def atSeq (q : Seq) (f : Block → Block) : State :=
  { placeWord State.reset 64 0 with turn := .seq 0 0, blocks := [(0, f { bootBlock true with seq := some q })] }
def seqBlock (q : Seq) (f : Block → Block) : Block := f { bootBlock true with seq := some q }
/-- MMA and MMAQ of 32 elements of K with empty streams; and with no word in flight. -/
theorem meets_MatrixArithmetic :
    ([false, true].all (fun quant => let q : Seq := {}
      let w : MA := { x with af := if quant then 10 else 1, bf := 1, kc := 1 }
      let s := atSeq q id
      let f : Flight := { unit := 0, pc := q.pc, word := w, quant, k := 32, rows := q.mrp.getD 0 0, cols := q.mcp.getD 0 0, apos := streamEnd (seqBlock q id) q 0, bpos := streamEnd (seqBlock q id) q 4 }
      decide (s.turn = .seq (0 / 8) (0 % 8)) && (s.block? 0 == some (seqBlock q id)) && q.prog == 0 && (kOf q quant w == some 32) && (freeUnit q == some 0) &&
      (drain (updSeq s 0 (fun q => { q with flights := q.flights ++ [f] })) 0).2.isNone) = true) ∧
    SeqTurn (atSeq {} id) 0 (seqBlock {} id) {} := by and_intros <;> decide +kernel
/-- A direct map of 8 by 8 elements of FP32 (format 14), at 0 of the block scratchpad and at 0 of the tile file (space 1). -/
def mapRec (base space : Nat) : BitVec 256 :=
  pack 256 (bytesOf 8 base ++ bytesOf 8 0 ++ bytesOf 8 0 ++ bytesOf 2 8 ++ bytesOf 2 8 ++ bytesOf 2 1 ++ bytesOf 2 (1024 + 8 * 14 + space))
def withMap (base space : Nat) (b : Block) : Block := { b with omaps := b.omaps.set 0 (mapRec base space) }
def w14 : MA := { x with af := 14 }
def rd : State := atSeq {} (withMap (0xFFFF0 * 2 ^ 44) 0)
def rdNoted : State := noteMap rd 0 (seqBlock {} (withMap (0xFFFF0 * 2 ^ 44) 0)) 0
def rdm : OMap := omapOf (mapRec (0xFFFF0 * 2 ^ 44) 0)
def cells8 : List (Nat × Nat) := (List.range (min rdm.n1 64)).flatMap (fun r => (List.range (min rdm.n0 64)).map (fun n => (r, n)))
def es8 : List (Nat × Nat) := unmasked {} w14 rdm.n1 rdm.n0
/-- The units of an MSTA written, where each is ready. -/
def unitRun (b : Nat) (u : StaUnit) (s : State) : Option State :=
  match route s (partyOfBlock s b) .write ((u.cells.head?.map (·.1)).getD 0) (u.cells.length + u.ahead) with
  | .error _ => none
  | .ok all =>
    let hops := all.take u.cells.length
    let v := unitStart s b hops u
    let far := byPeer (peerCells (hops.zip (u.cells.map (·.2))))
    if (snapFault s (partyOfBlock s b).nb.ctx hops).isNone && (far.findSome? (fun y => remoteBlock v (b / 8) (56 + b % 8) y.1 (farAddr y))).isNone &&
        tableRoom v (b / 8) fetcherTable (seqIssuer v b 8).engMark far.length && (unitFreed s b hops u).1 then
      match homeAll (· == .stream (.seq (b / 8) (b % 8)) false)
          { agent := 2, core := b / 8, slot := 47, pc := ((partyOfBlock s b).blk.seq.map (·.pc)).getD 0, block := some b } (byLine (unitLines hops u))
          (unitFreed s b hops u).2 with
      | .done t => some (unitStored s b hops u t)
      | _ => none
    else none
def unitsRun (b : Nat) (draws : StaUnit → Nat) : Nat → List StaUnit → State → Option State
  | _, [], s => some s
  | n, u :: us, s => (unitRun b u s).bind (fun s => unitsRun b draws (n + 1) us (updSeq s b (fun q => { q with prog := n + 1, rng := drawn (draws u) q.rng })))
/-- An MSTA of the map above from a base in the scratchpad whose units are ready; the position of its first group that is out of range. -/
def staMeets (base : Nat) : Option (Option Nat) :=
  let x := seqBlock {} (withMap base 0)
  let m := omapOf (mapRec base 0)
  let es := unmasked {} w14 m.n1 m.n0
  let pats := (staElems {} w14 es 0).1
  let s := updSeq (noteMap (atSeq {} (withMap base 0)) 0 x 0) 0 (fun q => { q with buf := pats })
  let g := goodGroups (partyOfBlock s 0) m (staGroups m.fmt es)
  (unitsRun 0 (staDraws w14 m es g.1) 0 (staUnits m (es.zip pats) g.1) s).map (fun _ => g.2)
theorem meets_MatrixMemory :
    (SeqTurn rd 0 (seqBlock {} (withMap (0xFFFF0 * 2 ^ 44) 0)) {} ∧ (directMap (seqBlock {} (withMap (0xFFFF0 * 2 ^ 44) 0)) 0 14 true).toOption = some rdm ∧
     (directMap (seqBlock {} (withMap (0xFFFF0 * 2 ^ 44) 0)) 0 14 false).toOption = some rdm ∧ 64 ≤ rdm.count ∧
     (readsTo 0 rdm (cells8.map (fun e => e.2 + rdm.n0 * e.1)) rdNoted).isSome = true ∧ (readsTo 0 rdm (List.range 64) rdNoted).isSome = true) ∧
    (rdm.n0 % packGroup rdm.fmt = 0 ∧ rdm.space = 0 ∧ staMeets (0xFFFF0 * 2 ^ 44) = some none ∧ staMeets (0xFFFF0 * 2 ^ 44 + 1008) = some (some 4)) ∧
    (let b := seqBlock {} (withMap 0 1)
     let s := withOp { id := 9, strm := .seq 0 0, kind := 0, word := 5, st := 2 } (atSeq {} (withMap 0 1))
     let m := omapOf (mapRec 0 1)
     (decide (SeqTurn s 0 b {}) && (directMap b 0 14 true).toOption == some m && m.n0 % packGroup m.fmt == 0 && m.space == 1 && decide (m.n0 ≤ 64) && decide (m.n1 ≤ 64) &&
       !shapeBad (staTile w14 m) && ((tileOf s b.nb (.seq 0 0) 0).map (·.st)) == some 2) = true) := by and_intros <;> decide +kernel
/-- Barrier words at phase 0 and 1; loops of 0 and 3 entries, of a count of 1 and of another; a save under way and none. -/
theorem meets_MatrixControl :
    SeqTurn (atSeq {} id) 0 (seqBlock {} id) {} ∧ storesLeft (atSeq {} id) 0 = none ∧
    (∀ i ∈ [0, 16], (atSeq {} id).word.toNat % 2 ^ 48 = 0 ∧ ((((seqBlock {} id).nbs.getD (i % 16) {}).phase ≠ i / 16 % 2) ↔ i = 16)) ∧ streamsEmpty (seqBlock {} id) 255 = true ∧
    (∀ l ∈ [([] : List (Nat × Nat)), [(0, 1), (1, 2), (2, 3)]], let q : Seq := { loops := l }; SeqTurn (atSeq q id) 0 (seqBlock q id) q ∧ q.loops.length < 4) ∧
    (∀ n ∈ [1, 2], let q : Seq := { loops := [(0, 5)], qs := [(0, BitVec.ofNat 32 n)] }; SeqTurn (atSeq q id) 0 (seqBlock q id) q ∧ (5 : Nat) < 2 ^ 64 ∧ (q.qs.getD 0 0 = 1 ↔ n = 1)) ∧
    (atSeq {} id).saveOps = [] ∧
    (let s : State := { atSeq {} id with saveOps := [{ saveOp false with nb := 0 }] }
     SeqTurn s 0 (seqBlock {} id) {} ∧ s.saveOps.any (fun o => o.nb == 0 && !o.restore && !o.done) = true ∧ storesLeft s 0 = none) := by and_intros <;> decide +kernel
/-- An access that is ready, and whose lanes are all performed. -/
def accOk (s : State) (i : Issuer) (kind : Access) (align accept : Nat) (l : List Acc) (f : Acc → List Hop → State → SRes) : Bool :=
  decide (AccessReady s i kind align accept l) && (performed s i kind l f).isSome
/-- No ways are the remote-line partition's, and granule 0 of core 0 is FULL. -/
def noWays (s : State) : State := { s.updDie 0 (fun d => { d with rlways := 0 }) with full := [(0, 1)] }
/-- Doublewords at the first and the last 8 bytes of a page; words of every width there. -/
theorem meets_ScalarAccesses : ([0x8000, 0x8FF8].all (fun a => [0, 1, 2, 3].all (fun wid =>
    let g := gr (two a 5)
    let s := noWays (atSlot 5 g)
    let p := scalarIssuer s 0 5 g
    let w := 2 ^ wid
    let lx := loadOf g 3 1 0 w true
    let ax : Acc := { loadOf g 3 1 0 w false with aop := 0, fmt := if w = 4 then 1 else 3, x := (g.reg 2).toNat % 2 ^ (8 * w) }
    let cx : Acc := { loadOf g 3 1 0 w false with cas := true, x := (g.reg 2).toNat % 2 ^ (8 * w), y := (g.reg 4).toNat % 2 ^ (8 * w) }
    decide (ScalarTurn s 0 5 g false 0 [3, 1, 2, 4]) && accOk s p .read 8 apScalar [loadOf g 3 1 0 8 false] (loadAcc p false) &&
    accOk s p .write 8 apScalar [storeOf g 3 1 0 8] (storeAcc p false false) && accOk s p .read w apScalar [lx] (loadAcc p false) &&
    accOk s p .write w apScalar [storeOf g 3 1 0 w] (storeAcc p false false) && (decide (wid < 2) ||
      (accOk s p .atomic w apScalar [ax] (atomAcc p) && accOk s p .atomic w apScalar [cx] (atomAcc p)))))) = true := by decide +kernel
/-- A split of one lane with these registers of the lane. -/
def lane1 : LaneBlock := freshBlock 0 1 Config.fmtrReset 0 [0, 0, 0, 0]
def mg (l : List (Nat × Nat)) : Group := { lg lane1 with vregs := l.map (fun x => (x.1 * 32, BitVec.ofNat 32 x.2)) }
/-- Registers 4 and 5 hold 0x8000, or the start of the block scratchpad. -/
def vMem : List (Nat × Nat) := [(4, 0x8000)]
def vPad : List (Nat × Nat) := [(4, 0), (5, 0xFFFF0000)]
def envOf (v : List (Nat × Nat)) (srcs : List Src) : LaneEnv := laneEnv (noWays (atLane (mg v))) 0 5 0 (mg v) lane1 0 srcs
def startOf (v : List (Nat × Nat)) (srcs : List Src) : State := laneStart (noWays (atLane (mg v))) (envOf v srcs)
def issOf (v : List (Nat × Nat)) (srcs : List Src) : Issuer := laneIssuer (startOf v srcs) (envOf v srcs)
abbrev ready1 (v : List (Nat × Nat)) (deny : Nat) (srcs : List Src) (dsts : List (Nat × Nat)) : Prop :=
  LaneTurn (noWays (atLane (mg v))) 0 5 0 (mg v) lane1 deny 0 srcs dsts
def laneOk (v : List (Nat × Nat)) (srcs : List Src) (dsts : List (Nat × Nat)) (kind : Access) (align accept : Nat) (l : List Acc) (f : Acc → List Hop → State → SRes) : Bool :=
  decide (ready1 v 2 srcs dsts) && accOk (startOf v srcs) (issOf v srcs) kind align accept l f
/-- A word, a doubleword and a stochastic half-precision store; loads of a FULL granule that keep it and that empty it; a store that fills it; 32-bit and 64-bit atomics. -/
theorem meets_LaneAccesses :
    ([2, 3].all (fun wid =>
      let w : L3 := { ofType 0 with aux := BitVec.ofNat 6 wid }
      let v : LI := { ofTypeI 0 with rm := BitVec.ofNat 3 wid }
      let f := memL3 w
      let fi := memLI v
      let one := [srcA w.toLaneHead 2]
      let two := [srcA w.toLaneHead 2, srcB w.toLaneHead f.regs]
      let n := if wid = 3 then 2 else 1
      let pair := [srcA w.toLaneHead 2, srcB w.toLaneHead n]
      let trio := [srcA w.toLaneHead 2, srcB w.toLaneHead n, srcC w n]
      f.gfe == 0 && fi.gfe == 0 && laneOk vMem one [(2, f.regs)] .read f.align apLane (f.loads (envOf vMem one)) (loadAcc (issOf vMem one) (f.ch == 3)) &&
      laneOk vMem one [(2, fi.regs)] .read fi.align apLane (fi.loads (envOf vMem one)) (loadAcc (issOf vMem one) (fi.ch == 3)) &&
      laneOk vMem two [] .write f.align apLane (f.stores (rmCode w.rm (lane1.at 0).fmtr) (envOf vMem two)) (storeAcc (issOf vMem two) (f.ch == 3) false) &&
      laneOk vMem two [] .write fi.align apLane (fi.stores (rmCode 0 (lane1.at 0).fmtr) (envOf vMem two)) (storeAcc (issOf vMem two) (fi.ch == 3) false) &&
      laneOk vMem pair [(2, n)] .atomic (2 ^ wid) apLane ((envOf vMem pair).acting.map (fun i =>
        { atomOf w (envOf vMem pair) i with aop := 0, fmt := if wid = 3 then 3 else 1, x := (envOf vMem pair).g.vn (wid == 3) 6 i })) (atomAcc (issOf vMem pair)) &&
      laneOk vMem trio [(2, n)] .atomic (2 ^ wid) apLane ((envOf vMem trio).acting.map (fun i =>
        { atomOf w (envOf vMem trio) i with cas := true, x := (envOf vMem trio).g.vn (wid == 3) 6 i, y := (envOf vMem trio).g.vn (wid == 3) 8 i })) (atomAcc (issOf vMem trio))) = true) ∧
    ([8 + 2, 16 + 2].all (fun aux =>
      let w : L3 := { ofType 0 with aux := BitVec.ofNat 6 aux }
      let f := memL3 w
      let one := [srcA w.toLaneHead 2]
      f.gfe != 0 && laneOk vPad one [(2, f.regs)] .read f.align apGranule (f.loads (envOf vPad one)) (gfeLoad (issOf vPad one) (f.gfe == 2) (envOf vPad one).g.trapMode)) = true) ∧
    (let w : L3 := { ofType 0 with aux := 24 + 2 }
     let f := memL3 w
     let two := [srcA w.toLaneHead 2, srcB w.toLaneHead f.regs]
     (f.gfe == 3 && laneOk vPad two [] .write f.align apGranule (f.stores (rmCode w.rm (lane1.at 0).fmtr) (envOf vPad two)) (storeAcc (issOf vPad two) (f.ch == 3) true)) = true) := by
  and_intros <;> decide +kernel
/-- Whether a strong access is performed, step by step, and whether its invalidation is then still at work. -/
def strongMeets (s : State) (i : Issuer) (what : Nat) (acq rel : Bool) (obs align accept : Nat) (l : List Acc) : Option Bool :=
  let x := (routes s i (strongKind what) l).1
  let u0 := accessStart s i x
  let ok : SRes → Option State := fun r => match r with
    | .done s => some s
    | _ => none
  if !decide (AccessReady s i (strongKind what) align accept l ∧ l ≠ []) then none
  else ((if rel && !relDone u0 i then (match releaseSteps u0 i.c i.sl obs with
      | .ok r => some r
      | _ => none) else some u0).bind (fun r =>
    let u := strongBegun i what rel x r
    (if what = 1 then some u else performAll (askLane i (what == 0) (if rel then some (u.core i.c).sig else none)) x u).bind (fun v =>
      if !(strongFails v i l).isEmpty then none
      else (if what = 0 then ok (readsReady i (x.flatMap (·.2)) v) else some v).bind (fun p =>
        (performAll (strongLane i what rel) x (if acq then (l.filterMap (strongOf p i)).foldl (noteGens i) p else p)).map (fun t =>
          acq && invalidating (strongEnd s i what acq rel obs l p t) i.c (hasPH obs))))))
/-- A line of the partition on its way to its home, which an invalidation with P waits for. -/
def sending (y : Bool) (s : State) : State :=
  { s with requests := if y then [{ id := 4, kind := 2, dev := 3, core := 0, slot := 48, addr := 0, since := 0 }] else [] }
/-- An acquire, a release and both, of a scalar word and of a lane word, whose invalidation is done at once; and acquires whose
invalidation is still at work. -/
theorem meets_StrongAccesses :
    ([1, 2, 3].all (fun o => [2, 3].all (fun wid => [false, true].all (fun y =>
      let g := gr (two 0x8000 5)
      let s := sending y (atSlot 5 g)
      let p := scalarIssuer s 0 5 g
      let n := 2 ^ wid
      let obs := if y then 2 else 1
      let ax : Acc := { loadOf g 3 1 0 n false with aop := 0, fmt := if n = 4 then 1 else 3, x := (g.reg 2).toNat % 2 ^ (8 * n) }
      let cx : Acc := { loadOf g 3 1 0 n false with cas := true, x := (g.reg 2).toNat % 2 ^ (8 * n), y := 0 }
      (y && o != 1) || (decide (ScalarTurn s 0 5 g false 0 [3, 1, 2, 4]) && g.arrived.isNone &&
      (o == 2 || strongMeets s p 0 (bit o 0) (bit o 1) obs n apScalar [loadOf g 3 1 0 n true] == some y) &&
      (o == 1 || strongMeets s p 1 (bit o 0) (bit o 1) obs n apScalar [storeOf g 3 1 0 n] == some false) &&
      strongMeets s p 2 (bit o 0) (bit o 1) obs n apScalar [ax] == some y && strongMeets s p 2 (bit o 0) (bit o 1) obs n apScalar [cx] == some y)))) = true) ∧
    ([1, 2, 3].all (fun o => [2, 3].all (fun wid => [false, true].all (fun y =>
      let w : L3 := { ofType 0 with aux := BitVec.ofNat 6 wid }
      let m := if wid = 3 then 2 else 1
      let f := memL3 w
      let obs := if y then 2 else 1
      let one := [srcA w.toLaneHead 2]
      let two := [srcA w.toLaneHead 2, srcB w.toLaneHead f.regs]
      let pair := [srcA w.toLaneHead 2, srcB w.toLaneHead m]
      let trio := [srcA w.toLaneHead 2, srcB w.toLaneHead m, srcC w m]
      (y && o != 1) || (decide (ready1 vMem 2 pair [(2, m)]) && decide (ready1 vMem 2 trio [(2, m)]) && decide (ready1 vMem 2 one [(2, f.regs)]) && decide (ready1 vMem 2 two []) &&
      strongMeets (sending y (startOf vMem pair)) (issOf vMem pair) 2 (bit o 0) (bit o 1) obs (2 ^ wid) apLane ((envOf vMem pair).acting.map (fun i => { atomOf w (envOf vMem pair) i with aop := 0, fmt := 1 })) == some y &&
      strongMeets (sending y (startOf vMem trio)) (issOf vMem trio) 2 (bit o 0) (bit o 1) obs (2 ^ wid) apLane ((envOf vMem trio).acting.map (fun i => { atomOf w (envOf vMem trio) i with cas := true })) == some y &&
      strongMeets (sending y (startOf vMem one)) (issOf vMem one) 0 true false obs f.align apLane (f.loads (envOf vMem one)) == some y &&
      strongMeets (startOf vMem two) (issOf vMem two) 1 false true 1 f.align apLane (f.stores 1 (envOf vMem two)) == some false)))) = true) := by
  and_intros <;> decide +kernel
/-- A state whose group has these lanes and registers, and whose stage has slices of 4 bytes. -/
def atBlock (b : LaneBlock) (g : Group) : State := (atLane { g with lb := some b }).updNbhd 0 (fun n => { n with stage := { n.stage with lslice := 4 } })
abbrev readyIn (s : State) (b : LaneBlock) (g : Group) (deny : Nat) (prd : BitVec 4) (srcs : List Src) (dsts : List (Nat × Nat)) : Prop :=
  LaneTurn s 0 5 0 { g with lb := some b } b deny prd srcs dsts
def envIn (s : State) (b : LaneBlock) (g : Group) (prd : BitVec 4) (srcs : List Src) : LaneEnv := laneEnv s 0 5 0 { g with lb := some b } b prd srcs
/-- Granules of the scratchpad, one and none; a stack of 4 bytes that empties, and an empty one that fills; the stack of the trap handler. -/
theorem meets_PrefetchAndSpill :
    (let w := ofType 0
     let a1 := [srcA w.toLaneHead 2]
     let a2 := [srcA w.toLaneHead 2, srcB w.toLaneHead 1]
     ready1 vMem 2 a1 [] ∧ ready1 vPad 2 a1 [(2, 1)] ∧ ∀ n ∈ [0, 1], let v := vPad ++ [(6, n)]
       let l2 := (envOf v a2).acting.map (fun i =>
         ({ lane := i, va := (envOf v a2).ea w.toLaneHead 0 i, n := 16 * ((envOf v a2).g.v 6 i).toNat, conv := .lane 0 0 0 0 } : Acc))
       let l1 := (envOf v a1).acting.map (fun i => ({ lane := i, va := (envOf v a1).ea w.toLaneHead 0 i, n := 16, conv := .lane 0 0 0 0 } : Acc))
       ready1 v 2 a2 [] ∧ misaligned (issOf v a2) 16 l2 = none ∧ outside (issOf v a2) apGranule l2 = none ∧
       misaligned (issOf v a1) 16 l1 = none ∧ outside (issOf v a1) apGranule l1 = none) ∧
    (let b := freshBlock 0 1 Config.fmtrReset 4 [0, 0, 0, 0]
     let s := atBlock b (lg b)
     readyIn s b (lg b) 0 0 [srcA z.toLaneHead 1] [] ∧ 4 * 1 ≤ (envIn s b (lg b) 0 [srcA z.toLaneHead 1]).stack) ∧
    (let s := atBlock lane1 (lg lane1)
     let d := envIn s lane1 (lg lane1) 0 []
     readyIn s lane1 (lg lane1) 0 0 [] [(0, 1)] ∧ d.g.trapMode = false ∧ d.stack + 4 * 1 ≤ ((laneStart s d).nbhdOf d.g).stage.lslice ∧ popErr (laneStart s d) d 1 = none) ∧
    (let g : Group := { lg lane1 with trapMode := true, tlb := some lane1 }
     let s : State := (atLane g).updNbhd 0 (fun n => { n with stage := { n.stage with trapspill := 128 } })
     let d := laneEnv s 0 5 0 g lane1 0 []
     LaneTurn s 0 5 0 g lane1 0 0 [] [(0, 1)] ∧ d.g.trapMode = true ∧ d.stack + 4 * 1 ≤ ((laneStart s d).nbhdOf d.g).stage.trapspill / 32) := by
  and_intros <;> decide +kernel
/-- Lanes with a word of a tile in W0, and an operation of theirs that is not sent, ready or refused; queues that an index names and that it does not. -/
def laneT : LaneBlock := freshBlock 0 1 Config.fmtrReset 0 [5, 0, 0, 0]
def withQueue (s : State) : State :=
  (s.updPart 0 (fun p => { p with queues := [(0, { hdr := 0xA000, dev := 0, remote := false })] })).updNbhd 0 (fun n => { n with stage := { n.stage with outs := [0], nout := 1 } })
theorem meets_LaneMoves :
    ([0, 1, 65536].all (fun n => let v := vMem ++ [(6, 0x20000), (8, n)]
      let w := ofType 0
      let a := [srcA w.toLaneHead 2, srcB w.toLaneHead 2, srcC w 1]
      let e := envOf v a
      decide (ready1 v 4 a []) && e.acting.all (fun j => decide ((e.g.v 8 j).toNat ≤ 65536) &&
        (({ (issOf v a).p with lane := j } : Party).outside apLane (e.g.vn true 4 j) (e.g.v 8 j).toNat).isNone &&
        (({ (issOf v a).p with lane := j } : Party).outside apLane (e.g.vn true 6 j) (e.g.v 8 j).toNat).isNone) &&
      decide (((startOf v a).core 0).copies.length + e.acting.length ≤ 64)) = true) ∧
    (let w := ofType 0
     let o : TileOp := { id := 9, strm := .split 0 5 0, kind := 0, word := 5, st := 2, shape := 5 }
     let s := withOp o (atBlock laneT (lg laneT))
     let a := [srcA w.toLaneHead (rowRegsOf w.toLaneHead (laneWord s 0))]
     let r := [srcA w.toLaneHead 1, srcB w.toLaneHead 1]
     let e := envIn s laneT (lg laneT) 0 a
     let d := envIn s laneT (lg laneT) 0 r
     (decide (4 + rowRegsOf w.toLaneHead (laneWord s 0) ≤ laneVregs s) && !shapeBad (laneWord s 0) && decide (readyIn s laneT (lg laneT) 2 0 a []) &&
       decide (readyIn s laneT (lg laneT) 2 8 a []) && decide ((envIn s laneT (lg laneT) 8 a).exec = 0) && decide (e.exec &&& e.keep ≠ 0) && decide (tileRows (laneWord s 0) ≤ 32) &&
       tilePair (tileFmt (laneWord s 0)) 0 0 && decide (readyIn s laneT (lg laneT) 2 0 r [(2, 1)]) && decide (d.exec &&& d.keep ≠ 0) &&
       decide (readyIn s laneT (lg laneT) 2 8 r [(2, 1)]) && decide ((envIn s laneT (lg laneT) 8 r).exec &&& (envIn s laneT (lg laneT) 8 r).keep = 0) &&
       [none, some o, some { o with st := 3 }].all (fun z =>
         let t := (match z with
           | some p => withOp p
           | none => id) (atBlock laneT (lg laneT))
         (tileOf (laneStart t (envIn t laneT (lg laneT) 0 a)) 0 (.split 0 5 0) 0 == z) && (tileOf (laneStart t (envIn t laneT (lg laneT) 0 r)) 0 (.split 0 5 0) 0 == z))) = true) ∧
    ([0, 2].all (fun o => [true, false].all (fun has => [0, 1].all (fun w0 =>
      let w : L3 := { z with ord := BitVec.ofNat 2 o, obs := 1 }
      let b := freshBlock 0 1 Config.fmtrReset 0 [w0, 0, 0, 0]
      let a2 := [srcA w.toLaneHead 16, srcB w.toLaneHead 1]
      let t := (if has then withQueue else id) (atBlock b (lg b))
      let e := envIn t b (lg b) 0 a2
      let on := e.acting.filter (fun i => (BitVec.ofNat 8 (e.w 0)).getLsbD ((e.g.v w.sb.toNat i).toNat % 8))
      t.runs.isEmpty && decide (readyIn t b (lg b) 2 0 a2 []) && on.isEmpty == (w0 == 0) &&
        on.all (fun i => outQueue (laneStart t e) e ((e.g.v w.sb.toNat i).toNat % 8) == if has then some 0 else none) &&
        (match releaseSteps (laneStart t e) 0 5 1 with
         | .ok _ => true
         | _ => false)))) = true) ∧
    (let a := [srcA z.toLaneHead 16]
     let a2 := [srcA z.toLaneHead 16, srcB z.toLaneHead 1]
     let s := withQueue (atBlock lane1 (lg lane1))
     let e := envIn s lane1 (lg lane1) 0 a
     let s' := atBlock lane1 (lg lane1)
     let e' := envIn s' lane1 (lg lane1) 0 a
     let b := lane1
     let t := { withQueue (atBlock b (lg b)) with runs := [{ id := 1, part := 0, queue := 0, recs := [], strm := some e.runner, cmd := none, done := true }] }
     (s.runs.isEmpty && decide (readyIn s lane1 (lg lane1) 2 0 a []) && !e.acting.isEmpty && (outQueue (laneStart s e) e (e.w 0 % 8) == some 0) &&
       s'.runs.isEmpty && decide (readyIn s' lane1 (lg lane1) 2 0 a []) && !e'.acting.isEmpty && (outQueue (laneStart s' e') e' (e'.w 0 % 8)).isNone &&
       t.runs.any (fun x => x.strm == some e.runner) && decide (readyIn t b (lg b) 2 0 a []) && decide (readyIn t b (lg b) 2 0 a2 []) &&
       t.runs.all (fun x => x.strm != some (envIn t b (lg b) 0 a).runner || x.done)) = true) := by and_intros <;> decide +kernel
/-- BRA taken by all, by none, and by some to the next word and to another. -/
theorem meets_LaneBranches :
    let g : Group := { lg lanes0 with preds := [(1, 1)] }
    let s := atLane g
    readyIn s lanes0 g 0 0 [] [] ∧ (lanes0.at 0).mask &&& ~~~(envIn s lanes0 g 0 []).exec = 0 ∧
    readyIn s lanes0 g 0 8 [] [] ∧ (lanes0.at 0).mask &&& ~~~(envIn s lanes0 g 8 []).exec ≠ 0 ∧ (envIn s lanes0 g 8 []).exec = 0 ∧
    readyIn s lanes0 g 0 1 [] [] ∧ (lanes0.at 0).mask &&& ~~~(envIn s lanes0 g 1 []).exec ≠ 0 ∧ (envIn s lanes0 g 1 []).exec ≠ 0 ∧ g.trapMode = false ∧
    (((0x00010000 : W32).extractLsb' 16 16).signExtend 32 : W32) = 1 ∧
    (let h : Group := { g with trapMode := true, tlb := some lanes0 }
     readyIn (atLane h) lanes0 h 0 1 [] [] ∧ (lanes0.at 0).mask &&& ~~~(envIn (atLane h) lanes0 h 1 []).exec ≠ 0 ∧
     (envIn (atLane h) lanes0 h 1 []).exec ≠ 0 ∧ h.trapMode = true) ∧
    (diverge (envIn s lanes0 g 1 []).block 0 (envIn s lanes0 g 1 []).exec 4 1 8).toOption.isSome = true := by and_intros <;> decide +kernel
/-- A stack with one call; a wide region that is open. -/
theorem meets_LaneCallsAndEnds :
    (let g : Group := { lg lanes0 with preds := [(1, 1)] }
     let s := atLane g
     readyIn s lanes0 g 0 0 [] [] ∧ (lanes0.at 0).mask &&& ~~~(envIn s lanes0 g 0 []).exec = 0 ∧ (envIn s lanes0 g 0 []).exec ≠ 0 ∧ (lanes0.at 0).stack.length < 16 ∧
     readyIn s lanes0 g 0 8 [] [] ∧ (envIn s lanes0 g 8 []).exec = 0 ∧
     readyIn s lanes0 g 0 1 [] [] ∧ (envIn s lanes0 g 1 []).block.wide = none ∧ (lanes0.at 0).mask &&& ~~~(envIn s lanes0 g 1 []).exec ≠ 0 ∧
     (envIn s lanes0 g 0 []).block.wide = none ∧ dropCalls (lanes0.at 0).stack = []) ∧
    (let e : StackEntry := { call := true, pc := 7, mask := BitVec.allOnes 32, fmtr := 0, ssp := 0, rpc := 0, jid := none }
     let b := lanes0.set 0 { lanes0.at 0 with stack := [e] }
     readyIn (atLane (lg b)) b (lg b) 0 0 [] [] ∧ (b.at 0).stack = [e] ∧ e.jid = (b.at 0).jid) ∧
    (let b : LaneBlock := { lanes0 with wide := some default }
     readyIn (atLane (lg b)) b (lg b) 0 0 [] [] ∧ (envIn (atLane (lg b)) b (lg b) 0 []).block.wide.isSome = true) := by and_intros <;> decide +kernel

/-! ## Events -/

def inp (f : Input → Input) (s : State) : State := { s with input := f { (default : Input) with stream := .scalar 0 5, slot := 5 } }
/-- The group of slot 5, with a scalar stream that waits. -/
def parked (w : WaitCond) : State := inp id (atSlot 5 { gr [] with park := some ⟨11, w⟩ })
/-- A SYSW of register 1 at the place of the scalar stream of a slot. -/
def atSyswWord (sl n : Nat) : State :=
  inp (fun i => { i with slot := sl }) { placeWord State.reset 32 (((encode (.sysw 1 (BitVec.ofNat 11 n))).getD []).headD 0).toNat with
    groups := [(sl, gr [])], blocks := [(0, { bootBlock false with groups := [sl] })] }
def aFault (kind : Nat) : FaultRec := { stream := .scalar 0 5, info := ⟨0x10, 0, 0, 0⟩, kind }
theorem meets_StreamEvents :
    (∀ w ∈ [WaitCond.queueRoom, .requests 0], parkOf (parked w) (.scalar 0 5) = some ⟨11, w⟩ ∧ frozen (parked w) (.scalar 0 5) = false ∧ condMet (parked w) (.scalar 0 5) w = true) ∧
    (let b := lane1.set 0 { lane1.at 0 with park := some ⟨2, .granule 0 0 0⟩ }
     let s := inp (fun i => { i with stream := .split 0 5 0 }) (atSlot 5 (lg b))
     s.input.stream = .split 0 5 0 ∧ parkOf s s.input.stream = some ⟨2, .granule 0 0 0⟩ ∧ frozen s s.input.stream = false ∧ 0 ≤ s.clock) ∧
    (let g : Group := { gr [] with prod := [default], dq := [default] }
     (inp id (atSlot 5 g)).group? 0 5 = some g ∧ g.prod[(0 : Nat)]? = some default ∧ g.trapMode = false ∧ g.lb = none ∧ g.dq = default :: [] ∧ g.live ≠ 0) ∧
    (atSysw 0x020 (atSyswWord 5 0x020)).isSome = true ∧ (atSysw 0x043 (atSyswWord 47 0x043)).isSome = true ∧
    (∀ k ∈ [3, 4], ∀ op ∈ [0, 1], let s : State := inp (fun i => { i with x := 6, ok := false, op }) { atSlot 5 (gr []) with faults := [(6, aFault k)] }
     s.faults.find? (fun f => f.1 == s.input.x) = some (6, aFault k) ∧ s.input.op = op ∧ ((aFault k).kind < 4 ↔ k = 3) ∧ ((aFault k).kind = 4 ↔ k = 4) ∧ s.input.ok = false) := by
  and_intros <;> decide +kernel
def aLine : RemoteLine := { data := 0, valid := 1, dirty := 1, contrib := 0, since := 0 }
/-- A dirty line of an L1, a fill of memory and of a peer's line, and a line that is 16,384 clocks old. -/
theorem meets_CacheEvents :
    (let s := inp (fun i => { i with addr := 512 }) ((atSlot 5 (gr [])).updCore 0 (fun k => { k with l1 := [(512, { data := 0, whole := true, dirty := 1 })] }))
     ((s.core s.input.core).l1.get? s.input.addr).isSome = true) ∧
    (∀ a ∈ [512, 2 ^ 58 + 4], ∀ ok ∈ [true, false], let f : Fill := { core := 0, line := a, noAlloc := false, data := some 0 }
     let s : State := inp (fun i => { i with addr := a, ok }) { atSlot 5 (gr []) with fills := [f] }
     s.fills.find? (fun f => f.core == s.input.core && f.line == s.input.addr) = some f ∧ (fillBytes s f).isSome = true ∧ fillHeld s f = none ∧ s.input.ok = ok ∧
       (f.line < 2 ^ 58 ↔ a = 512)) ∧
    (∀ w ∈ [[], [({ who := .fill 0 512, place := 0, pc := 0 } : SlicePlace)]], let f : Fill := { core := 0, line := 512, noAlloc := false, data := some 0 }
     let s : State := inp (fun i => { i with addr := 512 }) { withRegion { reg0 with st := 1, waiting := w } (atSlot 5 (gr [])) with fills := [f], pageMap := [(8, 0, 0, 0)] }
     s.fills.find? (fun f => f.core == s.input.core && f.line == s.input.addr) = some f ∧ (fillHeld s f).isSome = true ∧ (fillPlaced s f = true ↔ w ≠ [])) ∧
    (let s : State := inp (fun i => { i with x := 77, ok := false }) { (atSlot 5 (gr [])).updDie 0 (fun d => { d with rlines := [(77, aLine)] }) with clock := 16384 }
     (s.die s.input.die).rlines.get? s.input.x = some aLine ∧ s.input.ok = false ∧ aLine.dirty ≠ 0 ∧ aLine.since + 16384 ≤ s.clock) := by
  and_intros <;> decide +kernel
/-- A region in each state of its engine; a save that is ready, one whose copies are not, and one of a sequencer that is 2^20 clocks old. -/
theorem meets_RegionAndSaveEvents :
    (∀ st ∈ [1, 2, 3, 4, 5], let r : Region := { reg0 with st, depth := 1 }
     let s := inp (fun i => { i with x := 0 }) (withRegion r (atSlot 5 (gr [])))
     s.regions.get? s.input.x = some r ∧ r.st = st) ∧
    (let n : Nbhd := { bootNbhd with col := 1, agent := false }
     let o : SaveOp := { saveOp false with taken := true }
     let s (q : Bool) (ops : List TileOp) : State := inp (fun i => { i with x := 4 })
       { withNb1 (atSlot 47 (gr [])) with saveOps := [o], clock := 2 ^ 20, nbhds := [(0, bootNbhd), (1, { n with ops })], blocks := [(0, bootBlock false), (8, { bootBlock q with nb := 1, groups := [] })] }
     savingOp (s false []) 4 = some o ∧ (s false []).nbhd? o.nb = some n ∧ saveReady (settleCores (s false []) o.nb) o.nb o.late = true ∧ o.taken = true ∧ (saveOp false).taken = false ∧
     savingOp (s true []) 4 = some o ∧ (s true []).nbhd? o.nb = some n ∧ saveReady (settleCores (s true []) o.nb) o.nb o.late = false ∧
     o.since + 2 ^ 20 ≤ (s true []).clock ∧ ((nbList (s true []) o.nb).filter (fun b => (b.2.seq.map (fun q => !seqSaved q false)).getD false)).map (·.1) = [8]) := by
  and_intros <;> decide +kernel
/-- A neighbourhood with one name in some state and one operation. -/
def withName (t : TileName) (ops : List TileOp) (s : State) : State := s.updNbhd 0 (fun n => { n with tiles := [(5, t)], ops })
def tileIn (t : TileName) (ops : List TileOp) (x : Nat) : State := inp (fun i => { i with idx := 0, x, op := 3 }) (withName t ops (atSlot 5 (gr [])))
def nbWith (t : TileName) (ops : List TileOp) : Nbhd := { bootNbhd with tiles := [(5, t)], ops }
def defineCopy (fail : Option TrapInfo) : Copy := { id := 3, eng := 1, slot := 5, batch := 1, kind := 3, src := 0, dst := 0, rowb := 1, tile := 5, waiting := 1, row := 1, fail }
def withCopy (x : Copy) (s : State) : State := s.updCore 0 (fun k => { k with copies := [x] })
theorem meets_TileEvents :
    (let o : TileOp := { id := 9, strm := .scalar 0 5, kind := 0, word := 5 }
     let s := tileIn {} [o] 9
     s.nbhd? 0 = some (nbWith {} [o]) ∧ (nbWith {} [o]).ops.find? (fun o => o.id == s.input.x) = some o ∧ o.st = 0 ∧
     (nbWith {} [o]).ops.takeWhile (fun p => p.id != o.id) = []) ∧
    (∀ v ∈ [([] : List Byte), [1]], let t : TileName := { st := 1, value := v }
     (tileIn t [] 5).nbhd? 0 = some (nbWith t []) ∧ (nbWith t []).tiles.getD 5 {} = t) ∧
    (∀ f ∈ [none, some (⟨0x10, 0, 0, 0⟩ : TrapInfo)], let t : TileName := { st := 1 }
     let s := withCopy (defineCopy f) (tileIn t [] 5)
     s.nbhd? 0 = some (nbWith t []) ∧ defCopy s 0 5 = some (0, defineCopy f)) ∧
    (let o : TileOp := { id := 9, strm := .split 0 5 0, kind := 0, word := 5, st := 4 }
     (tileIn {} [o] 9).nbhd? 0 = some (nbWith {} [o]) ∧ (nbWith {} [o]).ops.find? (fun o => o.id == 9) = some o) ∧
    (let t : TileName := { st := 2, kill := true }
     (tileIn t [] 5).nbhd? 0 = some (nbWith t []) ∧ (nbWith t []).tiles.getD 5 {} = t ∧ (tileIn t [] 5).input.op = 3) ∧
    (let o : TileOp := { id := 9, strm := .scalar 0 5, kind := 0, word := 5, st := 1 }
     let s : State := inp id ((atSlot 5 { gr [] with park := some ⟨5, .tile 0 5⟩ }).updNbhd 0 (fun n => { n with ops := [o], stuckFor := 16384 }))
     let n : Nbhd := { bootNbhd with ops := [o], stuckFor := 16384 }
     s.nbhd? s.input.idx = some n ∧ 16384 ≤ n.stuckFor ∧ tileStuck s s.input.idx n = true ∧ nbStopped s s.input.idx = false) := by
  and_intros <;> decide +kernel
/-- A copy of 64 bytes within the block scratchpad. -/
def padCopy (started : Bool) (row kind : Nat) (fail : Option TrapInfo) : Copy :=
  { id := 3, eng := 0, slot := 5, batch := 1, kind, src := 0xFFFF000000000000, dst := 0xFFFF000000000100, rowb := 64, started, row, fail }
def copyState (x : Copy) : State := inp (fun i => { i with x := 3 }) (withCopy x (atSlot 5 (gr [])))
theorem meets_EngineEvents :
    (∀ k ∈ [1, 2, 3, 5, 6, 7], let x := padCopy false 0 k none
     copyOf (copyState x) 0 3 = some x ∧ x.started = false ∧ ((copyState x).core 0).copies.takeWhile (fun z => z.id != x.id) = [] ∧ x.kind ≠ 4) ∧
    (∀ st ∈ [2, 3], let x := padCopy false 0 4 none
     let o : TileOp := { id := 9, strm := .scalar 0 5, kind := 0, word := 5, st, copy := some 3 }
     let s := (copyState x).updNbhd 0 (fun n => { n with ops := [o] })
     copyOf s 0 3 = some x ∧ (s.core 0).copies.takeWhile (fun z => z.id != x.id) = [] ∧ tileOpOf s 0 x = some o) ∧
    (let x := padCopy true 0 1 none
     let s := copyState x
     copyOf s 0 3 = some x ∧ x.held = none ∧ x.moved = false ∧ (match engineRead s 0 x ((x.from' + x.off) % 2 ^ 64) (x.unit s) (x.ahead (x.unit s)),
         sidePlaces s (copyParty s 0 x) .write ((x.to + x.off) % 2 ^ 64) (x.unit s) (x.ahead (x.unit s)) with
       | .bytes u bs, .ok hops => (match engineWrite (keepLeaves u (copyParty s 0 x) hops) 0 x hops bs with
         | .ok _ => true
         | _ => false)
       | _, _ => false) = true) ∧
    (∀ x ∈ [padCopy true 1 1 none, padCopy true 0 1 (some ⟨0x10, 0, 0, 0⟩)], copyOf (copyState x) 0 3 = some x ∧ x.started = true ∧ x.waiting = 0 ∧
     unsent (copyState x) x = false ∧ (x.moved = true ∨ x.fail.isSome = true) ∧ x.kind ≠ 4) ∧
    (let y := seqBlock {} (fun b => { b with streams := [(0, { feed := [(0, mapRec 0 0)] })] })
     let s := inp id (atSeq {} (fun b => { b with streams := [(0, { feed := [(0, mapRec 0 0)] })] }))
     s.block? 0 = some y ∧ y.seq = some {} ∧ (y.streams.getD 0 {}).feed ≠ []) ∧
    (let f : Flight := { unit := 0, pc := 0, word := w14, quant := false, k := 0, rows := 0, cols := 0, apos := 0, bpos := 0 }
     let q : Seq := { flights := [f] }
     (inp id (atSeq q id)).block? 0 = some (seqBlock q id) ∧ q.stopped = false ∧ f.complete = true ∧ f.unit = (inp id (atSeq q id)).input.unit) := by
  and_intros <;> decide +kernel
/-- A home queue with a tail, a refill place and flags, and what arrives. -/
def queueIs (tail rtail flags cap : Nat) (s : State) : State :=
  withBytes 0xA000 (bytesOf 8 0 ++ bytesOf 8 rtail ++ bytesOf 8 tail ++ bytesOf 8 0xA100 ++ bytesOf 8 0xB000 ++ bytesOf 4 cap ++ bytesOf 1 4 ++ bytesOf 1 flags ++ bytesOf 2 1)
    (s.updPart 0 (fun p => { p with queues := [(0, { hdr := 0xA000, dev := 0, remote := false }), (1, { hdr := 0, dev := 3, remote := true })] }))
def aRun (q : Nat) : Run := { id := 4, part := 0, queue := q, recs := [0], strm := none, cmd := none }
def arrives : Input → Input := fun i => { i with x := 4, rcd := { i.rcd with part := 0, queue := 0 } }
def anOut (n : Nat) : Outbound := { part := 0, queue := 1, dev := 3, recs := List.replicate n (0, 0, none) }
theorem meets_QueueEvents :
    (∀ t ∈ [15, 16], let s : State := inp arrives (queueIs t t 0 0 { atSlot 5 (gr []) with runs := [aRun 0] })
     s.runs.find? (fun y => y.id == s.input.x && !y.done) = some (aRun 0) ∧ firstRun s (aRun 0) = true ∧
     (queueOf s 0 0).map (fun q => (q.hdr, q.here s)) = some (0xA000, true) ∧ ((appendRun s 0xA000 [0] false).isSome = true ↔ t = 15) ∧
     ((appendRun s 0xA000 [pack 512 s.input.rcd.data] true).isSome = true ↔ t = 15)) ∧
    (let s : State := inp arrives (queueIs 0 0 0 0 { atSlot 5 (gr []) with runs := [aRun 1] })
     s.runs.find? (fun y => y.id == s.input.x && !y.done) = some (aRun 1) ∧ firstRun s (aRun 1) = true ∧
     (queueOf s 0 1).map (fun q => q.here s) = some false ∧ (outboundOf s 0 3 1).recs.length + (aRun 1).recs.length ≤ 4096) ∧
    (∀ f ∈ [(7, 2), (8, 6)], let s : State := inp id (queueIs 16 f.1 f.2 32 (atSlot 5 (gr [])))
     let h := qhdr s 0xA000
     ((s.part? 0).bind (fun p => p.queues.get? 0)).isSome = true ∧ h.rtail < h.tail ∧ h.rtail - h.head < 2 ^ h.log2 ∧
     ((bit h.flags 2 = true ↔ f.1 = 8) ∧ (h.rtail - h.head < 2 ^ (h.log2 - 1) ↔ f.1 = 7))) ∧
    (let l : Link := { up := true }
     let s : State := inp (fun i => { i with port := 2 }) { atSlot 5 (gr []) with links := [(2, l)], outbound := [(5, anOut 2)] }
     s.links.get? s.input.port = some l ∧ l.up = true ∧ bit l.xoff 3 = false ∧ (pickOutbound s s.input.port l).isSome = true ∧ decidedAfter s s.input.port = false ∧ (anOut 2).recs = (0, 0, none) :: [(0, 0, none)]) ∧
    (let s := inp (fun i => { i with op := 0, summary := { i.summary with part := 0, queue := 1, dev := 3 } }) (queueIs 0 0 0 0 (atSlot 5 (gr [])))
     (s.part? s.input.part).isSome = true ∧ (queueOf s s.input.summary.part s.input.summary.queue).map (fun q => (q.here s, q.dev)) = some (false, s.input.summary.dev)) ∧
    (let s := inp (fun i => { i with op := 3, idx := 69 }) ((atSlot 5 (gr [])).updPart 0 (fun q => { q with bars := [(barKey 4 0 5, { expect := 2 })] }))
     s.input.op = 3 ∧ (barEntry s s.input.part (barKey 4 0 (s.input.idx % 64))).expect ≠ 0) := by
  and_intros <;> decide +kernel
/-- An up port with a packet whose channel has waited 76,800 clocks; flits; a request that is answered, and one that is 240,000 clocks old. -/
theorem meets_LinkEvents :
    (let l : Link := { up := true, queue := [{ vc := 11, flits := 1, dev := 3, ref := 0, kind := 0 }] }
     let s (ok : Bool) (op x : Nat) : State := inp (fun i => { i with port := 2, vc := 11, ok, op, x }) { atSlot 5 (gr []) with links := [(2, l)], clock := 76800 }
     (s true 0 0).links.get? (s true 0 0).input.port = some l ∧ l.up = true ∧ (takePacket 11 l.queue).isSome = true ∧ l.since.getD 11 0 + 76800 ≤ (s true 0 0).clock ∧ (s true 0 0).input.op = 0 ∧ (s true 1 0).input.x % 16384 = (s true 1 0).devnum.toNat ∧
     (s true 1 5).input.x % 16384 ≠ (s true 1 5).devnum.toNat ∧ (s false 0 0).input.ok = false ∧ l.fails ≠ 16) ∧
    (let l : Link := { up := true, fails := 16 }
     ((inp (fun i => { i with port := 2, ok := false }) { atSlot 5 (gr []) with links := [(2, l)] }).links.get? 2 = some l) ∧ l.fails = 16) ∧
    (∀ n ∈ [2, 3], let r : Request := { id := 4, kind := 0, dev := 3, core := 0, slot := 5, addr := 0, since := 0, left := true, resends := n }
     let s : State := inp (fun i => { i with x := 4 }) { atSlot 5 (gr []) with requests := [r], clock := 240000 }
     answered s = some r ∧ s.input.y % 256 = 0 ∧ r.kind ≠ 8 ∧ s.requests.find? (fun r => r.id == s.input.x && r.st == 0) = some r ∧
     r.kind ≠ 6 ∧ r.kind ≠ 7 ∧ r.since + 240000 ≤ s.clock) := by and_intros <;> decide +kernel
/-- What a peer sends: a request of 8 bytes at an address, and a segment of key 5 of tag 9. -/
def peerReq (a op : Nat) : Input → Input := fun i => { i with ok := true, req := { i.req with srcDev := 3, addr := a, len := 8, mask := 255, op, data := bytesOf 8 1 } }
def exporting (s : State) : State := s.updPart 0 (fun p => { p with exports := [(0x100000, 4096)] })
def segIs (n : Nat) : Input → Input := fun i => { i with ok := true, seg := { i.seg with srcDev := 3, key := 9 * 65536 + 5, seq := n, incarnation := 1, kind := 3, data := bytesOf 8 1 } }
def keyK : Key := { tag := 9, ctx := 0, vbase := 0x30000, len := 4096, rights := 7 }
def withKey (n : Nat) (ch : List (Nat × TChan)) (k : Key) : State :=
  inp (segIs n) { (atSlot 5 (gr [])).updPart 0 (fun p => { p with keys := [(5, k)] }) with tchans := ch }
/-- Requests within the export range, at its end and past it; segments that are refused, stale, placed before and new. -/
theorem meets_TargetEvents :
    (∀ a ∈ [0x100000, 0x100FF8, 0x100FF9], let s := inp (peerReq a 0) (exporting (atSlot 5 (gr [])))
     (exported s s.input.part s.input.req.addr s.input.req.len = true ↔ a ≠ 0x100FF9) ∧ (∀ k < 8, homeWaits (fromPeer 3 s.input.req.tag) s (a + k) false = none) ∧ s.input.op ≠ 1 ∧ s.input.ok = true ∧
     (errIn (leavePlaces s (.peer 3 s.input.req.tag)) (((List.range 8).map (a + ·)).map memUnit).dedup).isNone = true ∧
     (match homeAll (fromPeer 3 s.input.req.tag) (peerWho s.input.req.srcDev) (byLine (storeCells s.input.req)) s with
      | .done _ => true
      | _ => false) = true) ∧
    (let s := inp (peerReq 0x100000 128) (exporting (atSlot 5 (gr [])))
     let r := s.input.req
     let a := carriedAtom r.op r.x r.y
     let au := ([r.addr, r.addr + a.n - 1].map memUnit).dedup
     let here := leavePlaces s (.peer 3 r.tag)
     let t := countErrs here au
     exported s 0 r.addr a.n = true ∧ homeWaits (fromPeer 3 r.tag) s r.addr false = none ∧ homeWaits (fromPeer 3 r.tag) s (r.addr + a.n - 1) false = none ∧
     s.input.op ≠ 1 ∧ (errIn here au).isNone = true ∧
     (match homeAt (fromPeer 3 r.tag) (peerWho r.srcDev) r.addr (((atomNew a (Memory.le t.mem r.addr a.n)).map (fun v => cellsAt r.addr (bytesOf a.n v))).getD []) t with
      | .done _ => true
      | _ => false) = true) ∧
    (let s := inp (fun i => { peerReq 0x100000 0 i with errs := [(memUnit 0x100000, 1)] }) (exporting (atSlot 5 (gr [])))
     exported s s.input.part s.input.req.addr s.input.req.len = true ∧ (∀ k < 8, homeWaits (fromPeer 3 s.input.req.tag) s (0x100000 + k) false = none) ∧
     errIn (leavePlaces s (.peer 3 s.input.req.tag)) (((List.range 8).map (0x100000 + ·)).map memUnit).dedup = some 1 ∧ s.input.op ≠ 1) ∧
    (segRefused (withKey 5 [] { keyK with revoked := true }) (withKey 5 [] keyK).input.seg).isSome = true ∧
    (∀ n ∈ [4, 5, 6], let c : TChan := { inc := 1, lw := 5, placed := [5] }
     let s := withKey n [(tchanKey 3 (9 * 65536 + 5), c)] keyK
     let g := s.input.seg
     segRefused s g = none ∧ (keyOf s g.key).map (·.1) = some 0 ∧ g.kind = 3 ∧ channelFor s g = some c ∧ c.inc = g.incarnation ∧ s.tchans.get? (tchanKey g.srcDev g.key) = some c ∧
     (c.window g.seq = .stale ↔ n = 4) ∧ ((match c.window g.seq with
      | .twice _ => true
      | _ => false) = true ↔ n = 5) ∧ ((match c.window g.seq with
      | .fresh _ => true
      | _ => false) = true ↔ n = 6) ∧ s.input.op ≠ 1 ∧
     (let v : State := { s with tchans := s.tchans.set (tchanKey 3 (9 * 65536 + 5)) { c with lw := n, placed := c.placed.filter (· != n) } }
      match segPlaces v keyK.ctx .write (keyK.vbase + g.roff) g.data.length with
      | some pas => (match homeAll (fromPeer g.srcDev g.tag) (peerWho g.srcDev) (byLine (pas.zip g.data)) v with
        | .done _ => true
        | _ => false)
      | none => false) = true) := by and_intros <;> decide +kernel
/-- A module at a step of its start-up, with an HBM range of the partition. -/
def served (n : Nat) (f : Input → Input) : State :=
  let s := (atSlot 5 (gr [])).updPart 0 (fun p => { p with desc := { p.desc with ranges := [(0x100000, 4096)], ivt := 0x400000 } })
  inp f { s with mgmt := { s.mgmt with step := n } }
/-- Accesses within the range and past it; before step 5 and from it on; a write that finds no room in its region; a pending vector
that may go out; a write that host memory takes. -/
theorem meets_HostAccesses :
    (∀ a ∈ [0x100000, 0x100FF8, 0x100FF9], let s := served 5 (fun i => { i with addr := a, bytes := bytesOf 8 1, len := 8, y := 0 })
     5 ≤ s.mgmt.step ∧ s.input.op ≠ 1 ∧ s.input.op ≠ 2 ∧ channelOpen s s.input.port = true ∧ (inRanges s 0 s.input.addr s.input.bytes.length = true ↔ a ≠ 0x100FF9) ∧
     (inRanges s 0 s.input.addr s.input.len = true ↔ a ≠ 0x100FF9) ∧ (∀ k < s.input.len, homeWaits (fromHost s.input.port) s (s.input.addr + k) false = none) ∧ s.input.op ≠ 3 ∧
     errIn (leavePlaces s (.host s.input.port)) ((List.range s.input.len).map (fun k => memUnit (s.input.addr + k))).dedup = none ∧
     (match homeAll (fromHost s.input.port) hostWho (byLine (cellsAt s.input.addr s.input.bytes)) s with
      | .done _ => true
      | _ => false) = true ∧ (s.part? s.input.part).isSome = true) ∧
    (let s := served 5 (fun i => { i with addr := 0x100000, op := 128 })
     let a := carriedAtom s.input.op s.input.y s.input.value.toNat
     channelOpen s s.input.port = true ∧ inRanges s 0 s.input.addr a.n = true ∧ 
     (match homeAt (fromHost s.input.port) hostWho s.input.addr (((atomNew a (Memory.le s.mem s.input.addr a.n)).map (fun v => cellsAt s.input.addr (bytesOf a.n v))).getD []) s with
      | .done _ => true
      | _ => false) = true) ∧
    (let s : State := { withRegion { reg0 with depth := 1, e := 1, n := 1, levels := [(1, 0)] }
       (served 5 (fun i => { i with addr := 0x100000, bytes := bytesOf 8 1 })) with pageMap := [(256, 0, 0, 0)] }
     channelOpen s s.input.port = true ∧ inRanges s 0 s.input.addr s.input.bytes.length = true ∧
     (match homeAll (fromHost s.input.port) hostWho (byLine (cellsAt s.input.addr s.input.bytes)) s with
      | .noRoom _ _ => true
      | _ => false) = true) ∧
    (let s := served 5 (fun i => { i with addr := 0x100000, len := 8, errs := [(memUnit 0x100000, 1)] })
     channelOpen s s.input.port = true ∧ inRanges s 0 s.input.addr s.input.len = true ∧ (∀ k < s.input.len, homeWaits (fromHost s.input.port) s (s.input.addr + k) false = none) ∧
     errIn (leavePlaces s (.host s.input.port)) ((List.range s.input.len).map (fun k => memUnit (s.input.addr + k))).dedup ≠ none) ∧
    (∀ op ∈ [0, 1, 18], let s := served 5 (fun i => { i with op })
     channelOpen s s.input.port = true ∧ s.input.op = op ∧ (s.part? s.input.part).isSome = true) ∧
    (let s := (inp (fun i => { i with op := 3, addr := 24 }) { served 5 id with uqs := [(3, { rbase := 0, rsize := 4, prio := 1, wr := 9, die := 0 })] }).updPart 0
       (fun p => { p with desc := { p.desc with slots := 15, uqlo := 0, uqhi := 3 } })
     s.input.op = 3 ∧ channelOpen s s.input.port = true ∧ (s.part? s.input.part).map (fun p => (p.desc.uqlo, p.desc.uqhi)) = some (0, 3) ∧ (uqNow s (s.input.addr / 8)).isSome = true ∧
     s.input.addr % 8 = 0 ∧ s.input.addr / 8 = 3) ∧
    (∀ r ∈ [true, false], let s := (served 5 id).updPart 0 (fun p => { p with resetting := r })
     (s.part? s.input.part).map (·.resetting) = some r) ∧
    (served 4 id).mgmt.step < 5 ∧ (served 4 id).input.op ≠ 2 ∧ (served 4 (fun i => { i with op := 2 })).input.op = 2 ∧
    (let s := withBytes 0x400010 (bytesOf 8 0x30000 ++ bytesOf 4 7 ++ bytesOf 4 3) (served 5 (fun i => { i with idx := 1 }))
     let ctl := Memory.le s.mem (vectorAt s 0 1 + 12) 4
     bit ctl 0 = true ∧ bit ctl 1 = true ∧ bit (((s.part? 0).map (·.inflight)).getD 1) 1 = false ∧ hostPending s 0 = false) ∧
    (let s : State := { served 5 (fun i => { i with x := 4 }) with hostWrites := [(4, 999999, 0)] }
     s.hostWrites.find? (fun h => h.1 == s.input.x) = some (4, 999999, 0)) := by and_intros <;> decide +kernel
/-- A block that is stopped and not dumped; a core without streams whose period has passed, and one with a stream, before
and after its turn in the rotation, with room in the ring and without. -/
theorem meets_DebugEvents :
    (let x := { bootBlock false with groups := [5], stopped := true }
     let s : State := inp (fun i => { i with slot := 0, idx := 5, ok := false }) { atSlot 5 (gr []) with blocks := [(0, x)] }
     s.block? 0 = some x ∧ partOfBlock s 0 = s.input.part ∧ (s.part? s.input.part).isSome = true ∧ x.stopped = true ∧ x.dumped = false ∧ x.seq = none ∧ s.input.idx ∈ x.groups ∧
     x.groups.all (fun sl => ((s.group? 0 sl).map (fun g => g.prod.isEmpty && !((s.core 0).loads.any (fun y => y.slot == sl)))).getD true) = true) ∧
    (let s := inp (fun i => { i with core := 2 }) ((atSlot 5 (gr [])).updPart 0 (fun p => { p with period := 10 }))
     let t : State := { s with clock := 10 }
     (t.parts.findV (fun _ p => (partCores p).contains 2)).map (fun p => (p.1, p.2.period)) = some (0, 10) ∧ (t.core 2).samples < (t.clock - 0) / 10 ∧ rotation t 2 = []) ∧
    (∀ w ∈ [0, 4], ∀ at' ∈ [0, 6], let s := inp (fun i => { i with core := 0 }) (((atSlot 5 (gr [])).updPart 0 (fun p => { p with period := 10, sample := { p.sample with size := 4, w } })).updCore 0
       (fun k => { k with sampleIdx := at' }))
     let t : State := { s with clock := 10 }
     (t.parts.findV (fun _ p => (partCores p).contains 0)).map (fun p => (p.1, p.2.period, p.2.sample.w - p.2.sample.r)) = some (0, 10, w) ∧ (t.core 0).samples < (t.clock - 0) / 10 ∧
     ((rotation t 0).find? (fun m => decide ((t.core 0).sampleIdx ≤ m))).or (rotation t 0).head? = some 5) := by
  and_intros <;> decide +kernel
/-- A user queue of one command, mapped into slot 0 of die 0. -/
def aUq (wr : Nat) : UQ := { rbase := 0x300000, rsize := 4, prio := 1, wr, die := 0 }
def withUq (wr : Nat) (cmd : List Byte) (f : Input → Input) : State :=
  let s := withBytes 0x300000 cmd (served 5 f)
  ({ s with uqs := [(0, aUq wr)] }.updDie 0 (fun d => { d with hs := [(0, { uq := 0, wr })] })).updPart 0
    (fun p => { p with desc := { p.desc with slots := 15, uqlo := 0, uqhi := 3 }, ctrbase := 0x9000, ctrcount := 2 })
/-- A command 4 with no dependence and one whose counter is below its threshold, and a command 5. -/
def cmdIs (opc ndep : Nat) : List Byte := bytesOf 1 opc ++ bytesOf 1 ndep ++ bytesOf 2 0 ++ bytesOf 4 (2 ^ 32 - 1) ++ bytesOf 4 0 ++ bytesOf 8 ndep
theorem meets_GeyserEvents :
    (∀ r ∈ [(true, false), (false, true), (false, false)], let s := (withUq 1 [] (fun i => { i with idx := 0, value := 2 })).updPart 0 (fun p => { p with resetting := r.1, halted := r.2 })
     5 ≤ s.mgmt.step ∧ channelOpen s s.input.port = true ∧ uqNow s 0 = some (aUq 1) ∧ (uqPart s 0).map (fun p => (p.2.resetting, p.2.halted)) = some r) ∧
    (∀ x ∈ [(4, 0), (4, 1), (5, 0)], let s := withUq 1 (cmdIs x.1 x.2) id
     (s.die 0).hs.get? 0 = some { uq := 0, wr := 1 } ∧ uqNow s 0 = some (aUq 1) ∧ (uqPart s 0).isSome = true ∧ (aUq 1).stopped = false ∧ (aUq 1).rd < (aUq 1).wr ∧
     (cmdBad s 0 (cmdBytes s (aUq 1) 0) = true ↔ x.1 = 5) ∧ (depsMet s 0 (hostCmd (cmdBytes s (aUq 1) 0)) = true ↔ x.2 = 0)) ∧
    (∀ x ∈ [(2 ^ 32 - 1, 4), (2 ^ 32 - 1, 3), (1, 3)], let c : Cmd := { id := 6, part := 0, uq := 0, idx := 0, opc := x.2, comp := x.1 }
     let s : State := { withUq 1 [] (fun i => { i with x := 6 }) with cmds := [c] }
     s.cmds.find? (fun c => c.id == s.input.x && c.left == 0) = some c ∧ (x.1 = 1 → counterAt s 0 1 = some 0x9008 ∧ (partRelease s 0).1 = true)) ∧
    (isMapped (withUq 1 [] id) 0 0 = true) ∧
    (let s : State := { atSlot 5 (gr []) with clock := 120000 }
     ∀ t ∈ [none, some 0], let s := s.updDie 0 (fun d => { d with lastSteal := t })
     (s.die 0).hs = [] ∧ (s.die 0).pend = [] ∧ (s.die 0).lastSteal = t) ∧
    (∀ k ∈ [0, 1], let s := inp id ((atSlot 5 (gr [])).updDie 0 (fun d => { d with steal := [k] }))
     (s.die 0).steal = k :: [] ∧ stolen (s.updDie 0 (fun x => { x with steal := [] })) 0 k = none) ∧
    (∀ b ∈ [true, false], let s := (withUq 1 [] id).updDie 0 (fun d => { d with hs := if b then [] else [(0, { uq := 4 }), (1, { uq := 1 }), (2, { uq := 2 }), (3, { uq := 3 })], grants := [0] })
     (s.die 0).grants = 0 :: [] ∧ isMapped s 0 0 = false ∧ ((freeHs (s.updDie 0 (fun x => { x with grants := [] })) 0 0).isSome = true ↔ b = true)) ∧
    (∀ x ∈ [(0, none), (0, some 0), (1, none)], let g : Graph := { part := 0, die := 0, slo := 1, shi := 2, qlo := 0, qhi := 0, cmd := 6, quiet := x.2 }
     let s : State := { queueIs x.1 x.1 0 0 (inp (fun i => { i with x := 8 }) (atSlot 5 (gr []))) with graphs := [(8, g)] }
     s.graphs.get? s.input.x = some g ∧ (s.part? g.part).isSome = true ∧ (((s.part? g.part).map (·.domain)) = some []) ∧ followersStarted s g = true ∧
     (((s.part? g.part).map (fun p => graphQuiet s g p)) = some (x.1 == 0)) ∧ s.input.reports = []) := by and_intros <;> decide +kernel
/-- A descriptor of 4 MiB at the smallest and the greatest error log; start-up and SPDM are functions of the step and of what arrives. -/
def descBytes (n : Nat) : List Byte :=
  bytesOf 12 1 ++ bytesOf 4 1 ++ bytesOf 2 0 ++ bytesOf 2 3 ++ bytesOf 1 1 ++ bytesOf 1 1 ++ bytesOf 1 1 ++ bytesOf 1 0 ++ bytesOf 8 Config.hostBase ++ bytesOf 8 0 ++ bytesOf 4 n ++
  bytesOf 4 0 ++ bytesOf 8 0x200000 ++ bytesOf 8 0x400000 ++ List.replicate 64 0
theorem meets_ManagementEvents :
    (∀ n ∈ [64, 65536], let s : State := inp (fun i => { i with bytes := descBytes n }) { State.reset with hostSize := 4096, mgmt := { step := 6, parts := 1 } }
     6 ≤ s.mgmt.step ∧ s.input.part < s.mgmt.parts ∧ partRuns s s.input.part = false ∧ descBad s s.input.part s.input.bytes = false ∧ s.part? s.input.part = none ∧
     (∀ n ∈ s.nbhds, (n.2.part == s.input.part && n.2.agent) = false)) ∧
    (∀ n ∈ [0, 1, 2, 3, 4, 5], ∀ k ∈ [true, false], let s : State := inp (fun i => { i with ok := k, op := 1 }) { State.reset with mgmt := { step := n } }
     s.mgmt.failure = 0 ∧ s.mgmt.step = n ∧ s.input.ok = k ∧ s.mgmt.spdm ≠ 4 ∧ s.input.op % 4 ≠ 0 ∧ s.input.idx = 0) ∧
    (inp id State.reset).input.op % 4 = 0 := by and_intros <;> decide +kernel

/-! ## Frames, steps and encodings -/

def runsOn (o : Host.Outcome State Fault Refusal) : Bool := match o with
  | .next _ => true
  | _ => false
theorem meets_ScalarRegisterFrames :
    let s := atSlot 5 (gr (two 6 7))
    ScalarTurn s 0 5 (gr (two 6 7)) false 0 [1, 2, 3, 4] ∧
    ([.sadd 1 2 3 1, .ssub 1 2 3 1, .smul 1 2 3 1, .smulh 1 2 3 1, .smin 1 2 3 1, .smax 1 2 3 1, .saddc 1 2 3 1, .sand 1 2 3 1, .sor 1 2 3 1,
      .sxor 1 2 3 1, .sshl 1 2 3 1, .sshr 1 2 3 1, .ssra 1 2 3 1, .sabs 1 2 1, .sneg 1 2 1, .snot 1 2 1, .spopc 1 2 1, .sclz 1 2 1, .sbrev 1 2 1,
      .smov 1 2 1, .scmp 1 2 3 0 1, .sfadd 1 2 3 0, .sfmul 1 2 3 0, .sfmin 1 2 3 0, .sfmax 1 2 3 0, .scvt 1 2 0 1, .sfcmp 1 2 3 0 0, .saddImm 1 2 5, .smulImm 1 2 5,
      .sandImm 1 2 5, .sorImm 1 2 5, .sxorImm 1 2 5, .sshlImm 1 2 4, .sshrImm 1 2 4, .ssraImm 1 2 4, .sbfe 1 2 4 4, .sbfi 1 2 4 4, .sli 1 5,
      .slih 1 5, .slea 1 2 3 4 5, .ssel 1 2 3 4] : List Instr).all (fun i => runsOn (exec i s)) = true := by and_intros <;> decide +kernel
/-- A block of one split, a guard of all lanes and one that is never true. -/
theorem meets_LaneRegisterFrames : lane1.lone 0 ∧ ∀ p ∈ [(0 : BitVec 4).toNat, 8], ∀ t ∈ [1, 3], let prd := BitVec.ofNat 4 p
    let w := (ofType t).toLaneHead
    let v := (ofTypeI t).toLaneHead
    let n := regsOf w.fmt
    let on (deny : Nat) (a : List Src) (k : Nat) : Bool := decide (LaneTurn (noWays (atLane (mg []))) 0 5 0 (mg []) lane1 deny prd a [(w.dst.toNat, k)])
    (on 0 [srcA w n, srcB w n] n && on 0 [srcA w n] n && on 0 [srcA w 1, srcB w 1, srcC (ofType t) 1] 1 && on 0 [] 1 && on 2 [srcA w 1, srcB w 1] 1 &&
    on 2 [srcA w 1, srcB w 1, srcC (ofType t) 1] 1 && on 2 [srcA w 2, srcB w 2] 2 && on 0 [srcA v n] n && on 0 [] n) = true := by
  refine ⟨⟨rfl, by decide⟩, ?_⟩
  decide +kernel
/-- Stored bytes that lie on this module. -/
def onModule (l : List (Hop × Byte)) : Bool := l.all (fun z => match z.1.spot with
  | .line pa => decide (pa < 2 ^ 64)
  | .peer _ _ => false
  | _ => true)
theorem meets_AccessFrames :
    (let g := gr (two 0x8000 5)
     let s := noWays (atSlot 5 g)
     let p := scalarIssuer s 0 5 g
     (decide (ScalarTurn s 0 5 g false 0 [3, 1]) && accOk s p .write 8 apScalar [storeOf g 3 1 0 8] (storeAcc p false false) && onModule (storedCells s p [storeOf g 3 1 0 8]) &&
       accOk s p .read 8 apScalar [loadOf g 3 1 0 8 false] (loadAcc p false) &&
       [0, 1, 2, 3].all (fun wid => accOk s p .write (2 ^ wid) apScalar [storeOf g 3 1 0 (2 ^ wid)] (storeAcc p false false) && onModule (storedCells s p [storeOf g 3 1 0 (2 ^ wid)]) &&
         accOk s p .read (2 ^ wid) apScalar [loadOf g 3 1 0 (2 ^ wid) true] (loadAcc p false))) = true) ∧
    lane1.lone 0 ∧
    ([0, 24].all (fun aux =>
      let w : L3 := { ofType 0 with aux := BitVec.ofNat 6 (aux + 2) }
      let f := memL3 w
      let two := [srcA w.toLaneHead 2, srcB w.toLaneHead f.regs]
      let l := f.stores (rmCode w.rm (lane1.at 0).fmtr) (envOf vPad two)
      f.ch != 3 && laneOk vPad two [] .write f.align (if f.gfe = 3 then apGranule else apLane) l (storeAcc (issOf vPad two) false (f.gfe == 3)) &&
      onModule (storedCells (startOf vPad two) (issOf vPad two) l)) = true) := by
  refine ⟨by decide +kernel, ⟨rfl, by decide⟩, by decide +kernel⟩
/-- What a fetch gives: 1 an instruction, 2 a word that fails a check. -/
def kindOf (r : Got) : Nat := match r with
  | .word _ _ _ (.ok _) => 1
  | .word _ _ _ (.error _) => 2
  | _ => 0
def codeOk (r : Rec) : Bool := okRec r (fun _ _ => true)
/-- SHINT and a word of no cell at the scalar stream, and SLI with its halves in two GiB; HINT and a word of no cell at a split; MHINT and a word of no cell at a sequencer; an event. -/
theorem meets_StepRuns :
    ([((0xD4000000 : Nat), (1 : Nat)), (0x10000000, 2)].all (fun x =>
      let g := gr []
      let s : State := { placeWord State.reset 32 x.1 with groups := [(5, g)], turn := .scalar 0 5 }
      let z := scalarFetcher s 0 5 g
      !groupStopped s g (.scalar 0 5) && !trapWaits g && g.park.isNone && decide (g.hold ≤ s.clock) && (kindOf (fetchScalar z g.spc s) == x.2) &&
      (z.p.outside 0b100000 0x4000 4).isNone && codeOk (fetchCode z 0x4000 4 s) && !isSX (BitVec.ofNat 32 x.1) &&
      (match route s z.p .exec 0x4000 4 with
       | .ok hops => hops.all (fun h => match h.spot with
         | .line pa => (homeWaits z.issuer.me (keepLeaves s z.p hops) pa false).isNone
         | _ => false) && (readErr (keepLeaves s z.p hops) hops).isNone
       | _ => false)) = true) ∧
    (let g : Group := { gr [] with spc := 0x3FFFFFFC }
     let s : State := withBytes 0x20008 (bytesOf 8 0xFA) (withBytes 0x3FFFFFFC (bytesOf 4 0xE0700000) { placeWord State.reset 32 0 with groups := [(5, g)], turn := .scalar 0 5 })
     let z := scalarFetcher s 0 5 g
     (kindOf (fetchScalar z g.spc s) == 1 && g.spc.toNat % 4 == 0 && okRec (fetchCode z g.spc.toNat 4 s) (fun v bs => isSX (pack 32 bs) && codeOk (fetchCode z (g.spc.toNat + 4) 4 v))) = true) ∧
    ([(0x7E * 2 ^ 89, (1 : Nat)), (0x40 * 2 ^ 89, 2)].all (fun x =>
      let g := lg lane1
      let s : State := { placeWord State.reset 96 x.1 with groups := [(5, g)], turn := .lane 0 5 }
      let z := laneFetcher s 0 5 0 g
      !trapWaits g && (laneTurn s 0 5 g == some s) && (pickSplit s.clock g == some 0) && (g.lanes == some lane1) &&
      (kindOf (fetchLane z z.p.nb.stage.vregs (lane1.at 0).pc s) == x.2)) = true) ∧
    ([(0x3F * 2 ^ 58, (1 : Nat)), (0x3E * 2 ^ 58, 2)].all (fun x =>
      let s : State := { placeWord State.reset 64 x.1 with turn := .seq 0 0 }
      (s.block? 0 == some (bootBlock true)) && !seqHeld s 0 (bootBlock true) {} && (kindOf (fetchMatrix 0 0 s) == x.2)) = true) ∧
    wordKind .parkResume = .event := by and_intros <;> decide +kernel
theorem meets_RoundTrip : WellFormed (.sadd 1 2 3 4) ∧ wordKind (.sadd 1 2 3 4) = .scalar ∧ WellFormed (.sli 1 5) ∧ wordKind (.sli 1 5) = .scalarX ∧
    WellFormed (.ffma (ofType 5)) ∧ wordKind (.ffma (ofType 5)) = .lane ∧ WellFormed (.mzero x) ∧ wordKind (.mzero x) = .matrix ∧
    WellFormed .parkResume ∧ wordKind .parkResume = .event := by unfold WellFormed; decide +kernel
theorem meets_CanonicalStep : (State.withFetchWord State.reset 32 0xD4000000).canonical = true ∧ runsOn (step (State.withFetchWord State.reset 32 0xD4000000)) = true := by
  and_intros <;> decide +kernel
theorem meets_ResetCanonical : State.reset.canonical = true := by decide
/-- SCMP with the conditions eq and ge of an n64 and of a b32; and a word of its cell with a SUB of 6 where the scalar stream fetches. -/
theorem meets_ScalarCompare : ScalarTurn (atSlot 5 (gr [])) 0 5 (gr []) false 0 [1, 2, 3] ∧ (0#5).toNat ≤ 5 ∧ (5#5).toNat ≤ 5 ∧ 6 ≤ (6#5).toNat ∧
    (let g := gr []
     let s : State := { placeWord State.reset 32 0x04000030 with groups := [(5, g)], turn := .scalar 0 5 }
     (!groupStopped s g (.scalar 0 5) && !trapWaits g && g.park.isNone && decide (g.hold ≤ s.clock) &&
      (match fetchScalar (scalarFetcher s 0 5 g) g.spc s with
       | .word _ _ _ (.error e) => e == 2
       | _ => false)) = true) := by and_intros <;> decide +kernel
theorem meets_CapturedFormats : let g : Group := { gr [] with dq := List.replicate 15 default }
    ScalarTurn (atSlot 5 g) 0 5 g false 0 [1, 2, 3, 4] ∧ g.trapMode = false ∧ g.dq.length < 16 := by decide
theorem meets_HintWords : (atSlot 5 (gr [])).turn = .scalar 0 5 ∧ (atSlot 5 (gr [])).group? 0 5 = some (gr []) ∧
    (atLane (lg lanes0)).turn = .lane 0 5 ∧ (atLane (lg lanes0)).group? 0 5 = some (lg lanes0) ∧ pickSplit (atLane (lg lanes0)).clock (lg lanes0) = some 0 ∧
    (lg lanes0).lanes = some lanes0 ∧ SeqTurn (atSeq {} id) 0 (seqBlock {} id) {} := by and_intros <;> decide +kernel

/-! ## Results worked out by hand from the rules -/

/-- Register d after a scalar word on S1, S2 and S3. -/
def after (i : Instr) (a b e : W64) (d : Nat) : Option W64 := match exec i (atSlot 5 (gr [(1, a), (2, b), (3, e)])) with
  | .next s => (s.group? 0 5).map (·.s d)
  | _ => none
/-- An i32 sum that wraps is sign-extended; an n32 sum that carries; the high half of the greatest n64 product (R252). -/
theorem test_sadd_wraps : after (.sadd 4 1 2 2) 0x7FFFFFFF 1 0 4 = some 0xFFFFFFFF80000000 := by decide +kernel
theorem test_saddc_carries : after (.saddc 4 1 2 3) 0xFFFFFFFF 1 0 4 = some 1 := by decide +kernel
theorem test_smulh_high : after (.smulh 4 1 2 1) 0xFFFFFFFFFFFFFFFF 0xFFFFFFFFFFFFFFFF 0 4 = some 0xFFFFFFFFFFFFFFFE := by decide +kernel
/-- SUB of a register from itself as the destination; a shift by 64 at 64 bits (R252). -/
theorem test_ssub_same : after (.ssub 1 1 2 1) 5 7 0 1 = some 0xFFFFFFFFFFFFFFFE := by decide +kernel
theorem test_sshl_full : after (.sshl 4 1 2 1) 1 64 0 4 = some 0 := by decide +kernel
/-- SBFI of 8 bits at 4 keeps the other bits; SLIH keeps bits 31:0 (R255, Table 1-9). -/
theorem test_sbfi_keeps : after (.sbfi 2 1 8 4) 0xFAB 0x12345678 0 2 = some 0x12345AB8 := by decide +kernel
theorem test_slih_keeps : after (.slih 1 0x89ABCDEF) 0x1122334455667788 0 0 1 = some 0x89ABCDEF55667788 := by decide +kernel
/-- An f32 sum halfway between two neighbours goes to the even one (R65, R254): 1 + 2^-24 and 1 + 3 * 2^-24. -/
theorem test_sfadd_ties : after (.sfadd 4 1 2 5) 0x3F800000 0x33800000 0 4 = some 0x3F800000 ∧
    after (.sfadd 4 1 2 5) 0x3F800000 0x34400000 0 4 = some 0x3F800002 := by decide +kernel
/-- A backward branch that is taken, at 0x4000 (R340). -/
theorem test_sjmp_back : (match exec (.sjmp 0xFFFFE) (atSlot 5 (gr [])) with
  | .next s => (s.group? 0 5).map (·.spc)
  | _ => none) = some 0x3FF8 := by decide +kernel
/-- A value outside Table 3-10 written to FMTR (R74). -/
theorem test_fmtr_fixed : fmtrFix 0x000C3FFF = 0x00008000 ∧ fmtrFix 0x11E08000 = 0x11E08000 := by decide

end Sys2Proof.Tests
end

section
/-! O60: the memories after reset are in canonical form, and a fetch word keeps them so. -/

namespace Sys2Proof.Machine
open Bits

/-- Settles O60: a fetch word changes the memory by one write of bytes, and leaves the other memories as they are. -/
theorem resetCanonical : Obligations.ResetCanonical := by
  refine ⟨rfl, fun s nbits w h => ?_⟩
  simp only [State.canonical, Bool.and_eq_true] at h ⊢
  obtain ⟨⟨hmem, hchip⟩, hspad⟩ := h
  exact ⟨⟨Memory.wf_write hmem _, hchip⟩, hspad⟩

end Sys2Proof.Machine
end

section
/-! O41: each event of a stream, read off its premises. -/

namespace Sys2Proof.Machine
open Bits

/-- An event that is due leads to the state it answers. -/
theorem event_eq_next {f : State → Option State} {s t : State} (h : f s = some t) : event f s = .next t := by simp [event, h]
/-- A park ends where no debugger holds its stream, the event is one for its condition, and the condition is met. -/
theorem resumeIf_eq_some {f : WaitCond → Bool} {s : State} {p : Park} (hp : parkOf s s.input.stream = some p)
    (hz : frozen s s.input.stream = false) (hf : f p.cond = true) (hm : condMet s s.input.stream p.cond = true) :
    resumeIf f s = some (unpark s s.input.stream) := by
  simp [resumeIf, hp, hz, hf, hm]

section
variable {s : State} {r n c sl k i due : Nat}

theorem execParkResume_eq {w : WaitCond} (hp : parkOf s s.input.stream = some ⟨r, w⟩) (hz : frozen s s.input.stream = false)
    (hm : condMet s s.input.stream w = true) : exec .parkResume s = .next (unpark s s.input.stream) :=
  event_eq_next (resumeIf_eq_some hp hz rfl hm)
theorem execRequestTableGrant_eq (hp : parkOf s s.input.stream = some ⟨r, .requests n⟩) (hz : frozen s s.input.stream = false)
    (hm : condMet s s.input.stream (.requests n) = true) : exec .requestTableGrant s = .next (unpark s s.input.stream) :=
  event_eq_next (resumeIf_eq_some hp hz rfl hm)
theorem execWaitlistResend_eq (hst : s.input.stream = .split c sl k) (hp : parkOf s s.input.stream = some ⟨r, .granule n i due⟩)
    (hd : due ≤ s.clock) (hz : frozen s s.input.stream = false) : exec .waitlistResend s = .next (unpark s s.input.stream) := by
  change execWaitlistResend s = _
  rw [hst] at hp hz ⊢
  exact event_eq_next (by simp [hst, hp, hz, hd])
theorem execProducerWrite_eq {g : Group} {x : Producer} (hg : s.group? s.input.core s.input.slot = some g)
    (hx : g.prod[s.input.idx]? = some x) :
    exec .producerWrite s = .next (s.setGroup s.input.core s.input.slot
      (({ g with prod := dropAt g.prod s.input.idx } : Group).produce x)) := by
  change execProducerWrite s = _
  exact event_eq_next (by simp [hg, hx])
theorem execLaneBlockStart_eq {g : Group} {q : QueueEntry} {l : List QueueEntry} (hg : s.group? s.input.core s.input.slot = some g)
    (ht : g.trapMode = false) (hb : g.lb = none) (hq : g.dq = q :: l) (hl : g.live ≠ 0) :
    exec .laneBlockStart s = .next (s.setGroup s.input.core s.input.slot
      { g with dq := l, lb := some (freshBlock q.target g.live q.fmtr g.ssp q.ws) }) := by
  change execLaneBlockStart s = _
  exact event_eq_next (by simp only [hg, ht, hb, hq, if_neg hl, Option.bind_some])
theorem execSrseedWrite_eq {y : Nat × Nat × Group × BitVec 6} (hy : atSysw 0x020 s = some y) :
    exec .srseedWrite s = .next ((seedWrite s y.1 y.2.1 (y.2.2.1.reg y.2.2.2).toNat).updGroup y.1 y.2.1 (fun g => { g with arrived := some 1 })) := by
  change execSrseedWrite s = _
  exact event_eq_next (by rw [hy]; rfl)
theorem execRlwaysWrite_eq {y : Nat × Nat × Group × BitVec 6} (hy : atSysw 0x043 s = some y) :
    exec .rlwaysWrite s = .next (rlwaysWrite s (dieOf y.1) (y.2.2.1.reg y.2.2.2).toNat) := by
  change execRlwaysWrite s = _
  exact event_eq_next (by rw [hy]; rfl)

end

section
variable {s : State} {f : Nat × FaultRec} (hf : s.faults.find? (fun f => f.1 == s.input.x) = some f)
include hf

theorem execFaultResolved_driver (ho : s.input.op = 1) : exec .faultResolved s = .next (raiseVector s (partOfFault s f) 1) := by
  change execFaultResolved s = _
  exact event_eq_next (by simp [hf, ho])
theorem execFaultResolved_stream (ho : s.input.op ≠ 1) (hk : f.2.kind < 4) :
    exec .faultResolved s = .next (unheld (dropFault s f.1) f.1 f.2.stream) := by
  change execFaultResolved s = _
  refine event_eq_next ?_
  simp only [hf, Option.map_some, if_neg ho]
  split
  · omega
  · omega
  · omega
  · rfl
theorem execFaultResolved_copy (ho : s.input.op ≠ 1) (hk : f.2.kind = 4) :
    exec .faultResolved s = .next (updCopy (dropFault s f.1) (coreOf f.2.stream) f.2.ref (fun x => { x with held := none })) := by
  change execFaultResolved s = _
  exact event_eq_next (by simp only [hf, Option.map_some, if_neg ho, hk])
theorem execFaultFatal_stream (hk : f.2.kind < 4) (ho : s.input.ok = false) :
    exec .faultFatal s = .next (fatalTrap (dropFault s f.1) f) := by
  change execFaultFatal s = _
  refine event_eq_next ?_
  have hs : (dropFault s f.1).input.ok = false := ho
  simp only [hf, Option.bind_some, hs, Bool.false_eq_true, if_false]
  split
  · omega
  · omega
  · omega
  · rfl
theorem execFaultFatal_copy (hk : f.2.kind = 4) (ho : s.input.ok = false) :
    exec .faultFatal s = .next (updCopy (dropFault s f.1) (coreOf f.2.stream) f.2.ref
      (fun x => { x with held := none, fail := some f.2.info })) := by
  change execFaultFatal s = _
  have hs : (dropFault s f.1).input.ok = false := ho
  exact event_eq_next (by simp only [hf, Option.bind_some, hs, Bool.false_eq_true, if_false, hk])

end

/-- Settles O41: the premises of each clause make its event due, and fix the state it answers. -/
theorem streamEvents : Obligations.StreamEvents := by
  refine ⟨fun s g x q l w r n c sl k i due y => ?_, fun s f hf => ?_⟩
  · exact ⟨execParkResume_eq, execRequestTableGrant_eq, execWaitlistResend_eq, execProducerWrite_eq, execLaneBlockStart_eq,
      execSrseedWrite_eq, execRlwaysWrite_eq⟩
  · exact ⟨execFaultResolved_driver hf, execFaultResolved_stream hf, execFaultResolved_copy hf, execFaultFatal_stream hf,
      execFaultFatal_copy hf⟩

end Sys2Proof.Machine
end

section
/-! O59: every step keeps the memories in canonical form. -/

namespace Sys2Proof.Machine
open Bits Numbers

/-! ## Results that carry a state

Each function of the model keeps the canonical form. One lemma `canonical_f` says so of each
  function `f`, through the lemmas of those
that it calls; of a result that carries a state, the predicate `canonical` of its type says that this state is canonical. -/

def Out.canonical : Out → Bool
  | .next s => s.canonical
  | _ => true
def Res.canonical : Res → Bool
  | .next s | .jump s _ | .park s _ _ | .trap s _ | .stay s => s.canonical
def WRes.canonical : WRes → Bool
  | .done s | .poolPage s | .noRoom _ s | .waits _ s => s.canonical
def SRes.canonical : SRes → Bool
  | .done s | .wait s _ _ | .full s _ _ | .bad s _ => s.canonical
def Rel.canonical : Rel → Bool
  | .ok s | .wait s _ _ | .trap s _ => s.canonical
def Rec.canonical : Rec → Bool
  | .ok s _ => s.canonical
  | .stop r => r.canonical
def Got.canonical : Got → Bool
  | .word s _ _ _ => s.canonical
  | .stop r => r.canonical
def Got1.canonical : Got1 → Bool
  | .ok s _ | .wait s _ _ | .fault s _ _ | .fail s _ | .tile s _ => s.canonical
  | .bounds | .stack _ => true
def Ready.canonical : Ready → Bool
  | .ok s | .wait s _ _ | .fail s _ => s.canonical
def TileGot.canonical : TileGot → Bool
  | .value s _ _ | .wait s _ | .trap s _ => s.canonical
def UnitGot.canonical : UnitGot → Bool
  | .bytes s _ | .wait s | .fault s | .fail s _ => s.canonical
def Wrote.canonical : Wrote → Bool
  | .ok s | .wait s | .fail s _ => s.canonical

section
variable {α β : Type} {s t : State}

/-! The state of the branch of a `match`, from the result that was matched. -/

theorem Res.canonical_of_eq {r r' : Res} (e : r = r') (h : r.canonical) : r'.canonical := e ▸ h
theorem WRes.canonical_of_eq {r r' : WRes} (e : r = r') (h : r.canonical) : r'.canonical := e ▸ h
theorem SRes.canonical_of_eq {r r' : SRes} (e : r = r') (h : r.canonical) : r'.canonical := e ▸ h
theorem Rel.canonical_of_eq {r r' : Rel} (e : r = r') (h : r.canonical) : r'.canonical := e ▸ h
theorem Rec.canonical_of_eq {r r' : Rec} (e : r = r') (h : r.canonical) : r'.canonical := e ▸ h
theorem Got.canonical_of_eq {r r' : Got} (e : r = r') (h : r.canonical) : r'.canonical := e ▸ h
theorem Got1.canonical_of_eq {r r' : Got1} (e : r = r') (h : r.canonical) : r'.canonical := e ▸ h
theorem Ready.canonical_of_eq {r r' : Ready} (e : r = r') (h : r.canonical) : r'.canonical := e ▸ h
theorem TileGot.canonical_of_eq {r r' : TileGot} (e : r = r') (h : r.canonical) : r'.canonical := e ▸ h
theorem UnitGot.canonical_of_eq {r r' : UnitGot} (e : r = r') (h : r.canonical) : r'.canonical := e ▸ h
theorem Wrote.canonical_of_eq {r r' : Wrote} (e : r = r') (h : r.canonical) : r'.canonical := e ▸ h
theorem canonical_of_eq_some {o : Option State} (e : o = some t) (h : o.all State.canonical) : t.canonical := by
  subst e
  exact h
theorem canonical_of_eq_some_pair {o : Option (α × State)} {a : α} (e : o = some (a, t))
    (h : o.all (fun x => x.2.canonical)) : t.canonical := by
  subst e
  exact h
theorem canonical_of_eq_pair {r : α × State} {a : α} (e : r = (a, t)) (h : r.2.canonical) : t.canonical := by
  subst e
  exact h
theorem canonical_of_eq_fst {r : State × α} {a : α} (e : r = (t, a)) (h : r.1.canonical) : t.canonical := by
  subst e
  exact h

/-! A choice of two states, and a state threaded through a list. -/

theorem canonical_ite {p : Prop} [Decidable p] (hs : s.canonical) (ht : t.canonical) : (if p then s else t).canonical := by
  split
  · exact hs
  · exact ht
theorem canonical_ite_snd {p : Prop} [Decidable p] {a b : α × State} (ha : a.2.canonical) (hb : b.2.canonical) :
    (if p then a else b).2.canonical := by
  split
  · exact ha
  · exact hb
theorem Res.canonical_ite {p : Prop} [Decidable p] {a b : Res} (ha : a.canonical) (hb : b.canonical) :
    (if p then a else b).canonical := by
  split
  · exact ha
  · exact hb
theorem SRes.canonical_ite {p : Prop} [Decidable p] {a b : SRes} (ha : a.canonical) (hb : b.canonical) :
    (if p then a else b).canonical := by
  split
  · exact ha
  · exact hb
theorem canonical_foldl {f : State → α → State} {l : List α} (h : s.canonical)
    (hf : ∀ t x, t.canonical → (f t x).canonical) : (l.foldl f s).canonical :=
  List.foldlRecOn (motive := fun t => State.canonical t) l f h fun t ht x _ => hf t x ht
theorem canonical_foldl_snd {f : β × State → α → β × State} {l : List α} {r : β × State} (h : r.2.canonical)
    (hf : ∀ r x, r.2.canonical → (f r x).2.canonical) : (l.foldl f r).2.canonical :=
  List.foldlRecOn (motive := fun r => State.canonical r.2) l f h fun t ht x _ => hf t x ht
theorem canonical_foldl_fst {f : State × β → α → State × β} {l : List α} {r : State × β} (h : r.1.canonical)
    (hf : ∀ r x, r.1.canonical → (f r x).1.canonical) : (l.foldl f r).1.canonical :=
  List.foldlRecOn (motive := fun r => State.canonical r.1) l f h fun t ht x _ => hf t x ht
theorem canonical_foldr {f : α → State → State} {l : List α} (h : s.canonical)
    (hf : ∀ x t, t.canonical → (f x t).canonical) : (l.foldr f s).canonical :=
  List.foldrRecOn (motive := fun t => State.canonical t) l f h fun t ht x _ => hf x t ht

/-! A state that there may be, and the outcome of an event. -/

theorem canonical_getD {o : Option State} (ho : o.all State.canonical) (h : s.canonical) : (o.getD s).canonical := by
  cases o with
  | none => exact h
  | some t => exact ho
theorem all_some (hs : s.canonical) : (some s).all State.canonical := hs
theorem all_map {o : Option α} {f : α → State} (hf : ∀ x, (f x).canonical) : (o.map f).all State.canonical := by
  cases o with
  | none => rfl
  | some x => exact hf x
theorem all_map_state {o : Option State} {f : State → State} (ho : o.all State.canonical)
    (hf : ∀ t, t.canonical → (f t).canonical) : (o.map f).all State.canonical := by
  cases o with
  | none => rfl
  | some x => exact hf x ho
theorem all_bind {o : Option α} {f : α → Option State} (hf : ∀ x, (f x).all State.canonical) :
    (o.bind f).all State.canonical := by
  cases o with
  | none => rfl
  | some x => exact hf x
theorem canonical_event {f : State → Option State} (h : s.canonical) (hf : ∀ t, t.canonical → (f t).all State.canonical) :
    Out.canonical (event f s) :=
  canonical_getD (hf s h) h
theorem canonical_onNext {f : State → State} {o : Out} (ho : Out.canonical o) (hf : ∀ t, t.canonical → (f t).canonical) :
    Out.canonical (onNext f o) := by
  cases o with
  | next s => exact hf s ho
  | fault r => rfl
  | refused r => rfl

end

variable {s : State} {i : Issuer} {c sl : Nat}

/-! ## Operations on the state -/

/-! The writes of a memory: all that a step does to one is `Memory.write`, and the reset of a device filters its cells. -/

theorem canonical_iff : s.canonical ↔ Memory.wf s.mem ∧ Memory.wf s.chip ∧ Memory.wf s.spad := by
  simp only [State.canonical, Bool.and_eq_true, and_assoc]
theorem canonical_poke {l : List (Nat × Byte)} (hs : s.canonical) : (s.poke l).canonical := by
  obtain ⟨hmem, hchip, hspad⟩ := canonical_iff.1 hs
  exact canonical_iff.2 ⟨Memory.wf_write hmem l, hchip, hspad⟩
theorem canonical_writeChip {l : List (Nat × Byte)} (hs : s.canonical) :
    ({ s with chip := Memory.write s.chip l } : State).canonical := by
  obtain ⟨hmem, hchip, hspad⟩ := canonical_iff.1 hs
  exact canonical_iff.2 ⟨hmem, Memory.wf_write hchip l, hspad⟩
theorem canonical_writeSpadBytes {l : List (Nat × Byte)} (hs : s.canonical) :
    ({ s with spad := Memory.write s.spad l } : State).canonical := by
  obtain ⟨hmem, hchip, hspad⟩ := canonical_iff.1 hs
  exact canonical_iff.2 ⟨hmem, hchip, Memory.wf_write hspad l⟩
theorem canonical_filter {f g k : Host.Cell → Bool} (hs : s.canonical) :
    ({ s with mem := s.mem.filter f, chip := s.chip.filter g, spad := s.spad.filter k } : State).canonical := by
  obtain ⟨hmem, hchip, hspad⟩ := canonical_iff.1 hs
  exact canonical_iff.2 ⟨Memory.wf_filter f hmem, Memory.wf_filter g hchip, Memory.wf_filter k hspad⟩

/-! What leaves the memories as they are. -/

theorem canonical_updCore {f : Core → Core} (hs : s.canonical) : (s.updCore c f).canonical := hs
theorem canonical_updGroup {f : Group → Group} (hs : s.canonical) : (s.updGroup c sl f).canonical := hs
theorem canonical_updRegion {slot : Nat} {f : Region → Region} (hs : s.canonical) : (s.updRegion slot f).canonical := hs
theorem canonical_fullSig (hs : s.canonical) : (fullSig s c sl).canonical := hs
theorem canonical_deposit {pa : Nat} {v : BitVec 512} (hs : s.canonical) : (deposit s pa v).canonical := hs
theorem canonical_released (hs : s.canonical) : (released s c sl).canonical := hs
theorem canonical_newId (hs : s.canonical) : s.newId.2.canonical := hs
theorem canonical_setRequests {l : List Request} (hs : s.canonical) : ({ s with requests := l } : State).canonical := hs
theorem canonical_setFaults {l : List (Nat × FaultRec)} (hs : s.canonical) : ({ s with faults := l } : State).canonical := hs
theorem canonical_setTags {l : NMap Nat} (hs : s.canonical) : ({ s with tags := l } : State).canonical := hs
theorem canonical_l2Read {pas : List Nat} (hs : s.canonical) : (l2Read s pas).canonical :=
  canonical_foldl hs fun _ _ ht => ht
theorem canonical_l2Wrote {l : List (Nat × Byte)} (hs : s.canonical) : (l2Wrote s l).canonical :=
  canonical_foldl hs fun _ _ ht => ht
theorem canonical_countErrs {us : List Nat} (hs : s.canonical) : (countErrs s us).canonical :=
  canonical_foldl (canonical_l2Read hs) fun _ _ ht => ht
theorem canonical_putOwn {l : List (Nat × Byte)} (hs : s.canonical) : (s.putOwn l).canonical := canonical_poke hs

theorem canonical_ringPut {r : Ring} {rec : List Byte} (hs : s.canonical) : (ringPut s r rec).1.canonical := by
  unfold ringPut
  split
  · exact hs
  · exact canonical_putOwn hs

theorem canonical_traceOne {old : List Host.Cell} {w : Who} {l : List (Nat × Byte)} {p : Nat} {wr : Nat × Nat × Nat × Nat}
    (hs : s.canonical) : (traceOne old w l p s wr).canonical := by
  unfold traceOne
  dsimp only
  split
  · split
    · split
      all_goals
        refine canonical_foldl hs fun _ _ ht => ?_
        split
        · exact ht
        · exact canonical_ringPut ht
    · split <;> exact hs
  · split
    · refine canonical_foldl hs fun _ _ ht => ?_
      split
      · exact ht
      · exact canonical_ringPut ht
    · exact hs

theorem canonical_perform {w : Who} {l : List (Nat × Byte)} (hs : s.canonical) : (s.perform w l).canonical :=
  canonical_foldl (canonical_l2Wrote (canonical_poke hs)) fun _ _ ht => canonical_foldl ht
    fun _ _ hu => canonical_traceOne hu
theorem canonical_putBy {w : Who} {l : List (Nat × Byte)} (hs : s.canonical) : (s.putBy w l).canonical :=
  canonical_perform hs

theorem canonical_leavePlaces {w : SliceParty} (hs : s.canonical) : (leavePlaces s w).canonical := by
  unfold leavePlaces
  split <;> exact hs

theorem canonical_joinPlace {k : Nat} {w : SliceParty} {pc : Nat} (hs : s.canonical) : (joinPlace k w pc s).canonical := by
  unfold joinPlace
  split
  · exact hs
  · exact canonical_leavePlaces hs

theorem canonical_homeAt {me : SliceParty → Bool} {w : Who} {pa : Nat} {l : List (Nat × Byte)} (hs : s.canonical) :
    (homeAt me w pa l s).canonical := by
  unfold homeAt
  split
  · exact canonical_perform hs
  · exact hs
  · split
    · exact hs
    · split
      · split
        · exact hs
        · exact canonical_perform (canonical_updRegion (canonical_setTags (canonical_poke hs)))
      · exact canonical_perform hs

theorem canonical_homeWrite {me : SliceParty → Bool} {w : Who} {l : List (Nat × Byte)} (hs : s.canonical) :
    (homeWrite me w l s).canonical := by
  unfold homeWrite
  split
  · exact hs
  · exact canonical_homeAt hs

theorem canonical_exhaust {slot : Nat} (hs : s.canonical) : (exhaust s slot).canonical := by
  unfold exhaust
  split
  · exact hs
  · split <;> exact hs

theorem canonical_homeWrites {me : SliceParty → Bool} {l : List (Who × List (Nat × Byte))} (hs : s.canonical) :
    (homeWrites me l s).canonical := by
  induction l generalizing s with
  | nil => exact hs
  | cons x xs ih =>
    have hx : (homeWrite me x.1 x.2 s).canonical := canonical_homeWrite hs
    unfold homeWrites
    split
    · next e => exact ih (WRes.canonical_of_eq e hx)
    · exact hx

theorem canonical_writeBack {line : Nat} (hs : s.canonical) : (writeBack c line s).2.canonical := by
  unfold writeBack
  split
  · exact hs
  · split
    · exact hs
    · split
      · next e =>
        refine canonical_leavePlaces ?_
        split <;> exact WRes.canonical_of_eq e (canonical_homeWrites hs)
      · next e => exact WRes.canonical_of_eq e (canonical_homeWrites hs)
      · next e => exact canonical_exhaust (canonical_leavePlaces (WRes.canonical_of_eq e (canonical_homeWrites hs)))
      · next e => exact canonical_joinPlace (WRes.canonical_of_eq e (canonical_homeWrites hs))

theorem canonical_flushL1 (hs : s.canonical) : (flushL1 c s).2.canonical :=
  canonical_foldl_snd hs fun _ _ ht => canonical_writeBack ht

theorem canonical_invalidateLine {line : Nat} (hs : s.canonical) : (invalidateLine c line s).2.canonical := by
  unfold invalidateLine
  dsimp only
  split <;> exact canonical_writeBack hs

theorem canonical_roomL1 {ls : List Nat} {n : Nat} (hs : s.canonical) : (roomL1 c ls n s).2.canonical := by
  induction n generalizing s with
  | zero =>
    rw [roomL1]
    split <;> exact hs
  | succ n ih =>
    rw [roomL1]
    split
    · exact hs
    · split
      · exact ih (canonical_invalidateLine hs)
      · exact hs

theorem canonical_sendVector {p v : Nat} (hs : s.canonical) : (sendVector s p v).canonical := canonical_poke hs

theorem canonical_raiseVector {p v : Nat} (hs : s.canonical) : (raiseVector s p v).canonical := by
  unfold raiseVector
  dsimp only
  split
  · exact hs
  · split
    · exact hs
    · split
      · exact canonical_sendVector hs
      · exact canonical_putOwn hs

theorem canonical_logError {p kind cause sub : Nat} {dev : Option Nat} {die addr info : Nat} (hs : s.canonical) :
    (logError s p kind cause sub dev die addr info).canonical := by
  unfold logError
  split
  · exact hs
  · split
    · split
      · exact canonical_raiseVector hs
      · exact hs
    · split
      · exact canonical_raiseVector (canonical_putOwn hs)
      · exact canonical_putOwn hs

theorem canonical_landLoads (hs : s.canonical) : (landLoads s c).canonical := canonical_foldl hs fun _ _ ht => ht

theorem canonical_feedLoads {line : Nat} {byte : Nat → Byte} {bad : Nat → Option Nat} (hs : s.canonical) :
    (feedLoads s c line byte bad).canonical :=
  canonical_landLoads hs

theorem canonical_finishLocal (hs : s.canonical) : (finishLocal s c sl).canonical := by
  unfold finishLocal
  split
  · refine canonical_landLoads ?_
    refine canonical_foldl hs fun _ _ ht => ?_
    split
    · exact canonical_feedLoads (canonical_countErrs ht)
    · exact ht
  · exact hs

theorem canonical_bindLoads {mine : Load → Bool} {lines : List Nat} (hs : s.canonical) :
    (bindLoads s c mine lines).canonical :=
  canonical_ite hs (canonical_countErrs hs)

theorem canonical_staleReads {mine : StreamId → Bool} {handle : Nat} {ops : List TileOp} (hs : s.canonical) :
    (staleReads mine handle ops s).canonical := by
  unfold staleReads
  refine canonical_foldl hs fun _ _ ht => ?_
  split
  · exact ht
  · split <;> exact ht
  · exact ht

theorem canonical_removeNb {nb : Nat} (hs : s.canonical) : (removeNb s nb).canonical := by
  unfold removeNb
  split
  · exact hs
  · refine canonical_staleReads ?_
    split <;> exact hs

theorem canonical_startAgent {t : Stage} {p : Nat} (hs : s.canonical) : (startAgent t p s c).canonical := hs

theorem canonical_startAgents {p : Nat} (hs : s.canonical) : (startAgents s p).canonical := by
  unfold startAgents
  split
  · exact canonical_foldl hs fun _ _ ht => canonical_startAgent ht
  · exact hs

theorem canonical_haltPartition {p : Nat} {q : Part} (hs : s.canonical) : (haltPartition s p q).canonical :=
  canonical_foldl hs fun _ _ ht => canonical_removeNb ht

theorem canonical_resetPartition {p : Nat} (hs : s.canonical) : (resetPartition s p).canonical := by
  unfold resetPartition
  split
  · exact hs
  · exact canonical_foldl (canonical_haltPartition hs) fun _ _ ht => canonical_removeNb ht

theorem canonical_finishReset {p : Nat} (hs : s.canonical) : (finishReset s p).canonical := by
  unfold finishReset
  split
  · exact hs
  · exact canonical_startAgents (canonical_raiseVector (canonical_filter hs))

theorem canonical_enterTrap {src k : Nat} {t : TrapInfo} {at' : Option W64} (hs : s.canonical) :
    (enterTrap s c sl src k t at').canonical := by
  unfold enterTrap
  dsimp only
  split
  · exact hs
  · split
    · exact canonical_logError (canonical_removeNb hs)
    · exact hs

theorem canonical_landReads (hs : s.canonical) : (landReads s c sl).canonical := by
  unfold landReads
  split
  · exact hs
  · exact canonical_foldl hs fun _ _ ht => ht

theorem canonical_trapOrPend {src k : Nat} {t : TrapInfo} {at' : Option W64} (hs : s.canonical) :
    (trapOrPend s c sl src k t at').canonical := by
  unfold trapOrPend
  dsimp only
  split
  · exact hs
  · split
    · exact hs
    · split
      · exact canonical_enterTrap (canonical_landReads (canonical_finishLocal hs))
      · exact canonical_finishLocal hs

theorem canonical_raise {src k : Nat} {own : Bool} {t : TrapInfo} {at' : Option W64} (hs : s.canonical) :
    (raise s c sl src k own t at').canonical := by
  unfold raise
  split
  · exact hs
  · split
    · exact canonical_resetPartition (canonical_logError hs)
    · split
      · exact canonical_logError (canonical_removeNb hs)
      · exact canonical_trapOrPend hs

theorem canonical_takePending (hs : s.canonical) : (takePending s c sl).canonical := by
  unfold takePending
  dsimp only
  split
  · exact hs
  · split
    · exact hs
    · split
      · exact canonical_enterTrap (canonical_landReads (canonical_finishLocal hs))
      · exact canonical_finishLocal hs

theorem canonical_returnTrap {skip : Bool} {len : Nat} (hs : s.canonical) : (returnTrap s c sl skip len).canonical := by
  unfold returnTrap
  dsimp only
  split
  · exact hs
  · split <;> exact hs

/-! ## How a word issues and ends -/

theorem canonical_joinRegion {st : StreamId} {trap : Bool} {w : WaitCond} (hs : s.canonical) :
    (joinRegion st trap w s).canonical := by
  unfold joinRegion
  split
  · split
    · exact hs
    · exact canonical_joinPlace hs
  · exact hs

theorem canonical_endS {len : Nat} {r : Res} (hr : r.canonical) : (endS c sl len r).canonical := by
  unfold endS
  split
  · exact hr
  · exact hr
  · exact canonical_joinRegion hr
  · exact canonical_raise hr
  · exact hr

/-- A scalar word keeps the canonical form where its body does. -/
theorem canonical_scalarRun {priv : Bool} {deny len : Nat} {regs : List Nat} {body : Nat → Nat → Group → Res}
    (hbody : ∀ x y z, (body x y z).canonical) (hs : s.canonical) : Out.canonical (scalarRun priv deny len regs body s) := by
  unfold scalarRun
  dsimp only
  split
  · split
    · rfl
    · refine canonical_endS ?_
      split
      · exact hs
      · split
        · exact hs
        · split
          · exact hbody _ _ _
          · exact hs
  · rfl

theorem canonical_scalarPure {len d : Nat} {srcs : List Nat} {f : Group → W64} (hs : s.canonical) :
    Out.canonical (scalarPure len d srcs f s) :=
  canonical_scalarRun (fun _ _ _ => hs) hs

theorem canonical_settleLanes (hs : s.canonical) : (settleLanes s c sl).canonical := by
  unfold settleLanes
  dsimp only
  split
  · exact hs
  · split
    · exact canonical_raise hs
    · exact hs

theorem canonical_endL {k : Nat} {own : Bool} {r : Res} (hr : r.canonical) : (endL c sl k own r).canonical := by
  unfold endL
  split
  · exact canonical_settleLanes hr
  · exact canonical_settleLanes hr
  · exact canonical_joinRegion hr
  · exact canonical_raise hr
  · exact canonical_settleLanes hr

/-- A lane word keeps the canonical form where its body does. -/
theorem canonical_laneRun {deny : Nat} {prd : BitVec 4} {srcs : List Src} {dsts : List (Nat × Nat)}
    {body : LaneEnv → State → Res} (hbody : ∀ x t, t.canonical → (body x t).canonical) (hs : s.canonical) :
    Out.canonical (laneRun deny prd srcs dsts body s) := by
  unfold laneRun
  split
  · split
    · rfl
    · split
      · refine canonical_endL ?_
        split
        · exact hs
        · split
          · exact hs
          · exact hs
          · exact hbody _ _ hs
      · rfl
  · rfl

theorem canonical_putTos {e : LaneEnv} {d : BitVec 8} {v : W64} (hs : s.canonical) : (putTos e d v s).canonical := by
  unfold putTos
  split <;> exact hs

theorem canonical_laneMap {deny : Nat} {h : LaneHead} {pair : Bool} {srcs : List Src} {f : LaneEnv → Nat → Nat}
    (hs : s.canonical) : Out.canonical (laneMap deny h pair srcs f s) :=
  canonical_laneRun (fun _ _ ht => ht) hs

theorem canonical_lanePred {deny : Nat} {h : LaneHead} {srcs : List Src} {f : LaneEnv → Nat → Bool} (hs : s.canonical) :
    Out.canonical (lanePred deny h srcs f s) :=
  canonical_laneRun (fun _ _ ht => ht) hs

theorem canonical_laneTrans {h : LaneHead} {pair : Bool} {srcs : List Src} {f : LaneEnv → Nat → Nat} (hs : s.canonical) :
    Out.canonical (laneTrans h pair srcs f s) :=
  canonical_laneRun (fun _ _ ht => ht) hs

theorem canonical_raiseSeq {b : Nat} {t : TrapInfo} (hs : s.canonical) : (raiseSeq s b t).canonical := by
  unfold raiseSeq
  dsimp only
  split
  · exact canonical_raise hs
  · exact hs

theorem canonical_stopSeq {b : Nat} {t : TrapInfo} (hs : s.canonical) : (stopSeq s b t).canonical := by
  unfold stopSeq
  split
  · exact hs
  · split
    · exact canonical_raiseSeq hs
    · exact hs

theorem canonical_parkM {b : Nat} {r : Nat} {w : WaitCond} (hs : s.canonical) : (parkM b s r w).canonical :=
  canonical_joinRegion hs

theorem canonical_endM {b : Nat} {r : Res} (hr : r.canonical) : (endM b r).canonical := by
  unfold endM
  split
  · exact hr
  · exact hr
  · exact canonical_parkM hr
  · exact canonical_raiseSeq hr
  · exact hr

theorem canonical_seqRun {body : Nat → Block → Seq → Res} (hbody : ∀ x y z, (body x y z).canonical) :
    Out.canonical (seqRun body s) := by
  unfold seqRun
  split
  · split
    · rfl
    · split
      · rfl
      · exact canonical_endM (hbody _ _ _)
  · rfl

/-! ## Accesses of the lane and scalar streams -/

theorem canonical_keepLeaf {p : Party} {h : Hop} (hs : s.canonical) : (keepLeaf p s h).canonical := by
  unfold keepLeaf
  split <;> exact hs

theorem canonical_keepLeaves {p : Party} {x0 : List Hop} (hs : s.canonical) : (keepLeaves s p x0).canonical := by
  unfold keepLeaves
  split
  · exact hs
  · exact canonical_foldl (canonical_keepLeaf hs) fun _ _ ht => canonical_keepLeaf ht

theorem canonical_offer {st : StreamId} {kind : Access} {f : XFault} {va : Nat} {mask : W32} (hs : s.canonical) :
    (offer s st kind f va mask).2.canonical :=
  hs

theorem canonical_leaveQueue {tag : Nat} (hs : s.canonical) : (leaveQueue s c sl tag).canonical := by
  unfold leaveQueue
  split <;> exact hs

theorem canonical_serveWaiter {w : Waiter} (hs : s.canonical) : (serveWaiter s w).canonical := by
  unfold serveWaiter
  dsimp only
  split
  · exact canonical_raise (canonical_countErrs hs)
  · exact canonical_countErrs hs

theorem canonical_serveList {g : Nat} {l : List Waiter} (hs : s.canonical) : (serveList g l s).1.canonical := by
  induction l generalizing s with
  | nil => exact hs
  | cons w ws ih =>
    unfold serveList
    split
    · exact ih hs
    · split
      · exact canonical_serveWaiter hs
      · exact ih (canonical_serveWaiter hs)

theorem canonical_fillGranule {g : Nat} (hs : s.canonical) : (fillGranule s g).canonical := by
  unfold fillGranule
  split
  · exact hs
  · exact canonical_serveList hs

theorem canonical_writeSpad {ctx : Nat} {engine : Bool} {l : List (Nat × Byte)} (hs : s.canonical) :
    (writeSpad s ctx engine l).canonical :=
  canonical_ite (canonical_foldl (canonical_writeSpadBytes hs) fun _ _ ht => canonical_fillGranule ht)
    (canonical_writeSpadBytes hs)

theorem canonical_sendLine {die key : Nat} (hs : s.canonical) : (sendLine s die key).canonical := by
  unfold sendLine
  split
  · exact hs
  · split <;> exact hs

theorem canonical_dropRemote {die key : Nat} (hs : s.canonical) : (dropRemote s die key).canonical := canonical_sendLine hs
theorem canonical_dropPeerLine {dev rpa : Nat} (hs : s.canonical) : (dropPeerLine s c dev rpa).canonical :=
  canonical_dropRemote hs

theorem canonical_postStore {dev : Nat} {l : List (Nat × Byte)} {rel : Option (BitVec 512)} (hs : s.canonical) :
    (postStore s c sl dev l rel).canonical := by
  unfold postStore
  split <;> exact hs

theorem canonical_patchL1 {dev : Nat} {l : List (Nat × Byte)} (hs : s.canonical) : (patchL1 s c dev l).canonical :=
  canonical_foldl hs fun _ _ ht => ht

theorem canonical_enterLine {dev : Nat} {l : List (Nat × Byte)} (hs : s.canonical) : (enterLine s c sl dev l).canonical := by
  unfold enterLine
  split <;> exact hs

theorem canonical_checkRead {hops : List Hop} {f : State → SRes} (hs : s.canonical)
    (hf : ∀ t, t.canonical → (f t).canonical) : (checkRead hops s f).canonical := by
  unfold checkRead
  split
  · exact hs
  · exact hf _ (canonical_countErrs hs)

theorem canonical_homeAll {me : SliceParty → Bool} {w : Who} {l : List (List (Nat × Byte))} (hs : s.canonical) :
    (homeAll me w l s).canonical := by
  induction l generalizing s with
  | nil => exact hs
  | cons l ls ih =>
    have hl : (homeWrite me w l s).canonical := canonical_homeWrite hs
    unfold homeAll
    split
    · next e =>
      have ht := ih (WRes.canonical_of_eq e hl)
      split
      · next e' => exact WRes.canonical_of_eq e' ht
      all_goals exact hs
    · exact hl

theorem canonical_dropLines {l : List Nat} (hs : s.canonical) : (dropLines c l s).2.canonical :=
  canonical_foldl_snd hs fun _ _ ht => canonical_invalidateLine ht

/-- Bytes written at their homes once the lines that hold them are dropped. -/
theorem canonical_homed_of_eq {me : SliceParty → Bool} {w : Who} {l : List (List (Nat × Byte))} {m : List Nat} {r : WRes}
    (e : homeAll me w l (dropLines c m s).2 = r) (hs : s.canonical) : r.canonical :=
  e ▸ canonical_homeAll (canonical_dropLines hs)

theorem canonical_addLines {bit : Nat} {l : List Nat} (hs : s.canonical) : (addLines s c bit l).canonical :=
  canonical_foldl hs fun _ _ ht => ht

theorem canonical_toHost {key : Nat} {l : List (Nat × Byte)} (hs : s.canonical) : (toHost s key l).canonical := by
  unfold toHost
  split <;> exact hs

theorem canonical_storeHome {lane : Nat} {hops : List Hop} {l : List (Nat × Byte)} (hs : s.canonical) :
    (storeHome i lane hops l s).canonical := by
  unfold storeHome
  dsimp only
  split
  · exact canonical_dropLines hs
  · split
    · next e => exact canonical_toHost (canonical_addLines (canonical_homed_of_eq e hs))
    all_goals next e => exact canonical_homed_of_eq e hs

theorem canonical_readyFar {out : FarBytes → Bool} {l : List FarBytes} (hs : s.canonical) :
    (readyFar i out l s).2.canonical :=
  canonical_foldl hs fun _ _ ht => canonical_dropRemote ht

theorem canonical_sendFar {rel : Option (BitVec 512)} {out : FarBytes → Bool} {x : FarBytes} (hs : s.canonical) :
    (sendFar i rel out s x).canonical :=
  canonical_ite (canonical_postStore (canonical_patchL1 hs)) (canonical_enterLine (canonical_patchL1 hs))

/-- A store of one lane: the bytes at home, in the scratchpads and in the chip memory, and those of peers. -/
theorem canonical_storeAcc {homed set : Bool} {a : Acc} {hops : List Hop} (hs : s.canonical) :
    (storeAcc i homed set a hops s).canonical := by
  unfold storeAcc
  dsimp only
  split
  · next e => exact canonical_of_eq_pair e (canonical_readyFar hs)
  · next e =>
    have ht := canonical_of_eq_pair e (canonical_readyFar hs)
    split
    · next e =>
      have hu := SRes.canonical_of_eq e (SRes.canonical_ite ht (SRes.canonical_ite (canonical_storeHome ht)
        (SRes.canonical_ite (canonical_roomL1 ht) (canonical_addLines
          (canonical_foldl (canonical_roomL1 ht) fun _ _ hv => hv)))))
      refine canonical_foldl (canonical_writeChip ?_) fun _ _ hv => canonical_sendFar hv
      split
      · exact canonical_foldl (canonical_writeSpad (canonical_writeSpad hu)) fun _ _ hv => canonical_fillGranule hv
      · exact canonical_writeSpad (canonical_writeSpad hu)
    · exact SRes.canonical_ite ht (SRes.canonical_ite (canonical_storeHome ht)
        (SRes.canonical_ite (canonical_roomL1 ht) (canonical_addLines
          (canonical_foldl (canonical_roomL1 ht) fun _ _ hv => hv))))

theorem canonical_askFill {noAlloc : Bool} {h : Hop} (hs : s.canonical) : (askFill s c sl noAlloc h).canonical := by
  unfold askFill
  dsimp only
  split
  · exact hs
  · split
    · split
      · split <;> exact hs
      · dsimp only
        split <;> exact hs
    · split <;> exact hs

theorem canonical_loadBlock {h : Hop} (hs : s.canonical) : (loadBlock s c sl h).2.canonical := by
  unfold loadBlock
  split
  · exact hs
  · exact canonical_ite (canonical_sendLine hs) hs
  · exact hs

theorem canonical_addLoad {a : Acc} {bytes : List LoadByte} (hs : s.canonical) : (addLoad i a bytes s).canonical :=
  canonical_landLoads hs
theorem canonical_landNow {a : Acc} {bs : List Byte} (hs : s.canonical) : (landNow i a bs s).canonical :=
  canonical_addLoad hs

theorem canonical_loadAcc {nl1 : Bool} {a : Acc} {hops : List Hop} (hs : s.canonical) :
    (loadAcc i nl1 a hops s).canonical := by
  unfold loadAcc
  dsimp only
  split
  · next e => exact canonical_of_eq_pair e (canonical_foldl_snd hs fun _ _ ht => canonical_loadBlock ht)
  · next e =>
    have ht := canonical_of_eq_pair e (canonical_foldl_snd hs fun _ _ hu => canonical_loadBlock hu)
    split
    · exact canonical_ite_snd (canonical_dropLines ht) ht
    · exact canonical_ite_snd (canonical_dropLines ht) ht
    · exact canonical_checkRead (canonical_ite_snd (canonical_dropLines ht) ht)
        fun _ hu => canonical_addLoad (canonical_foldl hu fun _ _ hv => canonical_askFill hv)

/-! ## Releases, acquires and strong accesses -/

theorem canonical_gfeLoad {clear trapBlock : Bool} {a : Acc} {hops : List Hop} (hs : s.canonical) :
    (gfeLoad i clear trapBlock a hops s).canonical := by
  unfold gfeLoad
  dsimp only
  split
  · split
    · exact canonical_checkRead hs fun _ ht => by split <;> exact canonical_landNow ht
    · split
      · exact hs
      · split <;> exact hs
  · exact canonical_landNow hs

theorem canonical_sendAtom {strong : Bool} {rel : Option (BitVec 512)} {a : Acc} {dev rpa : Nat} (hs : s.canonical) :
    (sendAtom i strong rel a dev rpa s).canonical := by
  unfold sendAtom
  dsimp only
  split
  · exact canonical_dropRemote hs
  · split
    · exact canonical_setRequests (canonical_newId (canonical_updCore (canonical_dropRemote hs)))
    · exact canonical_addLoad (canonical_setRequests (canonical_newId (canonical_updCore (canonical_dropRemote hs))))

theorem canonical_atomAcc {a : Acc} {hops : List Hop} (hs : s.canonical) : (atomAcc i a hops s).canonical := by
  unfold atomAcc
  dsimp only
  split
  · refine canonical_checkRead hs fun _ ht => ?_
    refine canonical_landNow ?_
    split
    · exact canonical_writeSpad ht
    · exact ht
  · refine canonical_checkRead hs fun _ ht => ?_
    refine canonical_landNow ?_
    split
    · exact canonical_writeChip ht
    · exact ht
  · split
    · exact canonical_dropLines hs
    · refine canonical_checkRead (canonical_dropLines hs) fun _ ht => ?_
      split
      · next e => exact canonical_landNow (WRes.canonical_of_eq e (canonical_homeAt ht))
      · next e => exact WRes.canonical_of_eq e (canonical_homeAt ht)
      · next e => exact WRes.canonical_of_eq e (canonical_homeAt ht)
      · next e => exact WRes.canonical_of_eq e (canonical_homeAt ht)
  · exact canonical_sendAtom hs
  · exact canonical_landNow hs

theorem canonical_sendContrib {dev : Option Nat} (hs : s.canonical) : (sendContrib s c dev).canonical :=
  canonical_foldl hs fun _ _ ht => canonical_sendLine ht

theorem canonical_takePosted {dev : Option Nat} (hs : s.canonical) :
    (takePosted s c sl dev).all (fun x => x.2.canonical) := by
  unfold takePosted
  split
  · rfl
  · split
    · rfl
    · exact hs

theorem canonical_bindGroup (hs : s.canonical) : (bindGroup s c sl).canonical := canonical_bindLoads hs

theorem canonical_releaseSteps {obs : Nat} (hs : s.canonical) : (releaseSteps s c sl obs).canonical := by
  have hf : (flushL1 c (bindGroup s c sl)).2.canonical := canonical_flushL1 (canonical_bindGroup hs)
  unfold releaseSteps
  dsimp only
  split
  · exact hs
  · split
    · exact hs
    · split
      · exact hf
      · split
        · exact hf
        · split
          · split
            · exact canonical_sendContrib hf
            · split
              · next e => exact canonical_of_eq_some_pair e (canonical_takePosted (canonical_sendContrib hf))
              · split <;> exact canonical_sendContrib hf
          · dsimp only
            split
            · exact hf
            · split <;> exact hf

/-- The release of an access or of a run, where it has one to do. -/
theorem canonical_release_of_eq {p : Prop} [Decidable p] {obs : Nat} {r : Rel}
    (e : (if p then releaseSteps s c sl obs else .ok s) = r) (hs : s.canonical) : r.canonical := by
  subst e
  split
  · exact canonical_releaseSteps hs
  · exact hs

theorem canonical_stripLine {line : Nat} (hs : s.canonical) : (stripLine c s line).canonical :=
  canonical_ite (canonical_invalidateLine hs) (canonical_invalidateLine hs)
theorem canonical_purgeL1 (hs : s.canonical) : (purgeL1 c s).canonical :=
  canonical_foldl hs fun _ _ ht => canonical_stripLine ht
theorem canonical_purgePartition {die : Nat} (hs : s.canonical) : (purgePartition die s).canonical :=
  canonical_foldl hs fun _ _ ht => canonical_sendLine ht

theorem canonical_acquireFrom {r : Bool × BitVec 512} (hs : s.canonical) : (acquireFrom c sl s r).canonical := by
  unfold acquireFrom
  split
  · exact canonical_purgeL1 hs
  · split
    · exact hs
    · exact canonical_foldl hs fun _ _ ht => canonical_stripLine ht

theorem canonical_acquireLine {line : Nat} (hs : s.canonical) : (acquireLine c sl s line).canonical :=
  canonical_acquireFrom hs

theorem canonical_acquire {obs : Nat} {lines : List Nat} {far : List (Bool × BitVec 512)} (hs : s.canonical) :
    (acquire s c sl obs lines far).canonical := by
  have h : (far.foldl (acquireFrom c sl) (lines.foldl (acquireLine c sl) s)).canonical :=
    canonical_foldl (canonical_foldl hs fun _ _ ht => canonical_acquireLine ht) fun _ _ ht => canonical_acquireFrom ht
  exact canonical_ite (canonical_purgePartition (canonical_purgeL1 h)) h

theorem canonical_stepLane {f : Acc → List Hop → State → SRes} {r : Prog} {x : Acc × List Hop}
    (hf : ∀ x y t, t.canonical → (f x y t).canonical) (hr : r.s.canonical) : (stepLane f r x).s.canonical := by
  unfold stepLane
  dsimp only
  split
  · exact hr
  · split <;> next e => exact SRes.canonical_of_eq e (hf _ _ _ hr)

theorem canonical_stepLanes {f : Acc → List Hop → State → SRes} {r : Prog} {l : List (Acc × List Hop)}
    (hf : ∀ x y t, t.canonical → (f x y t).canonical) (hr : r.s.canonical) : (l.foldl (stepLane f) r).s.canonical := by
  induction l generalizing r with
  | nil => exact hr
  | cons x l ih => exact ih (canonical_stepLane hf hr)

theorem canonical_finishAcc {r : Prog} {fault : Option Nat} (hr : r.s.canonical) : (finishAcc i r fault).canonical := by
  unfold finishAcc
  split <;> split <;> exact hr

theorem canonical_finishWait {w : WaitCond} (hs : s.canonical) : (finishWait i s w).canonical := by
  unfold finishWait
  split <;> exact hs

theorem canonical_bindLane {x : Acc × List Hop} (hs : s.canonical) : (bindLane i s x).canonical := canonical_bindLoads hs
theorem canonical_accessStart {l : List (Acc × List Hop)} (hs : s.canonical) : (accessStart s i l).canonical :=
  canonical_foldl (canonical_foldl (canonical_leaveQueue hs) fun _ _ ht => canonical_keepLeaves ht)
    fun _ _ ht => canonical_bindLane ht

theorem canonical_weakRun {k : Access} {align accept : Nat} {l : List Acc} {f : Acc → List Hop → State → SRes}
    (hf : ∀ x y t, t.canonical → (f x y t).canonical) (hs : s.canonical) :
    (weakRun i k align accept l f s).1.s.canonical := by
  unfold weakRun
  dsimp only
  split
  · exact hs
  · split
    · exact hs
    · split
      · exact hs
      · split
        · exact hs
        · split
          · exact canonical_stepLanes hf (canonical_accessStart hs)
          · exact canonical_offer (canonical_stepLanes hf (canonical_accessStart hs))

theorem canonical_weakAcc {k : Access} {align accept : Nat} {l : List Acc} {f : Acc → List Hop → State → SRes}
    (hf : ∀ x y t, t.canonical → (f x y t).canonical) (hs : s.canonical) : (weakAcc i k align accept l f s).canonical :=
  canonical_finishAcc (canonical_weakRun hf hs)

theorem canonical_sendRead {a : Acc} {dev rpa : Nat} (hs : s.canonical) : (sendRead i a dev rpa s).canonical := by
  have hd : (dropRemote s (dieOf i.c) (rkey dev rpa)).canonical := canonical_dropRemote hs
  unfold sendRead
  dsimp only
  split
  · exact canonical_updCore hd
  · exact canonical_setRequests (canonical_newId (canonical_updCore hd))

theorem canonical_askLane {load : Bool} {rel : Option (BitVec 512)} {a : Acc} {hops : List Hop} (hs : s.canonical) :
    (askLane i load rel a hops s).canonical := by
  unfold askLane
  split
  · split
    · split <;> exact hs
    · split
      · exact canonical_sendRead hs
      · exact canonical_sendAtom hs
  · exact hs

theorem canonical_strongLoad {a : Acc} {hops : List Hop} (hs : s.canonical) : (strongLoad i a hops s).canonical := by
  unfold strongLoad
  split
  · exact canonical_landNow hs
  · exact canonical_checkRead hs fun _ ht => canonical_landNow ht

theorem canonical_strongAtom {rel : Bool} {a : Acc} {hops : List Hop} (hs : s.canonical) :
    (strongAtom i rel a hops s).canonical := by
  have ha : (atomAcc i a hops s).canonical := canonical_atomAcc hs
  unfold strongAtom
  split
  · exact canonical_landNow hs
  · split
    · next e =>
      rw [e] at ha
      split <;> exact ha
    · exact ha

theorem canonical_strongStore {a : Acc} {hops : List Hop} (hs : s.canonical) : (strongStore i a hops s).canonical := by
  have ha : (storeAcc i true false a hops s).canonical := canonical_storeAcc hs
  unfold strongStore
  split
  · split
    · next e => exact canonical_of_eq_pair e (canonical_readyFar hs)
    · next e => exact canonical_sendFar (canonical_of_eq_pair e (canonical_readyFar hs))
  · split
    · next e =>
      rw [e] at ha
      exact ha
    · exact ha
  · exact ha

theorem canonical_readsReady {hops : List Hop} (hs : s.canonical) : (readsReady i hops s).canonical := by
  unfold readsReady
  dsimp only
  split <;> exact canonical_dropLines hs

theorem canonical_strongLane {what : Nat} {rel : Bool} {x0 : Acc} {x1 : List Hop} (hs : s.canonical) :
    (strongLane i what rel x0 x1 s).canonical := by
  unfold strongLane
  split
  · exact canonical_strongLoad hs
  · exact canonical_strongStore hs
  · exact canonical_strongAtom hs

theorem canonical_noteRel (hs : s.canonical) : (noteRel s i).canonical := by
  unfold noteRel
  split <;> exact hs

/-- The reads of a strong load made ready at their homes. -/
theorem canonical_ready_of_eq {p : Prop} [Decidable p] {hops : List Hop} {r : SRes}
    (e : (if p then readsReady i hops s else .done s) = r) (hs : s.canonical) : r.canonical := by
  subst e
  split
  · exact canonical_readsReady hs
  · exact hs
theorem canonical_askLanes {load : Bool} {rel : Option (BitVec 512)} {l : List (Acc × List Hop)} (hs : s.canonical) :
    (l.foldl (stepLane (askLane i load rel)) { s }).s.canonical :=
  canonical_stepLanes (fun _ _ _ ht => canonical_askLane ht) hs

/-- The remote lanes of a strong access asked, but for a store. -/
theorem canonical_asked {p : Prop} [Decidable p] {load : Bool} {rel : Option (BitVec 512)} {l : List (Acc × List Hop)}
    (hs : s.canonical) : (if p then ({ s } : Prog) else l.foldl (stepLane (askLane i load rel)) { s }).s.canonical := by
  split
  · exact hs
  · exact canonical_askLanes hs
/-- A strong access: its release, its lanes asked and ready, and its acquire, in turn. -/
theorem canonical_strongRun {what : Nat} {acq rel : Bool} {obs align accept : Nat} {l : List Acc} (hs : s.canonical) :
    (strongRun i what acq rel obs align accept l s).canonical := by
  have hlines {t : State} {m : List Nat} (ht : t.canonical) :
      (if what = 0 then (if rel then noteRel t i else t)
        else addLines (if rel then noteRel t i else t) i.c i.sl m).canonical :=
    have hn := canonical_ite (canonical_noteRel ht) ht
    canonical_ite hn (canonical_addLines hn)
  have hlanes {t : State} {m : List (Acc × List Hop)} (ht : t.canonical) :
      (m.foldl (stepLane (strongLane i what rel))
        { s := if acq then (l.filterMap (strongOf t i)).foldl (noteGens i) t else t }).s.canonical :=
    canonical_stepLanes (fun _ _ _ hu => canonical_strongLane hu) (canonical_ite (canonical_foldl ht fun _ _ hu => hu) ht)
  unfold strongRun
  dsimp only
  split
  · exact hs
  · split
    · exact hs
    · exact canonical_finishAcc (canonical_offer hs)
    · split
      · exact hs
      · split
        · exact canonical_finishAcc hs
        · split
          · exact canonical_finishAcc hs
          · split
            · next e => exact canonical_finishAcc (canonical_release_of_eq e (canonical_accessStart hs))
            · next e => exact canonical_release_of_eq e (canonical_accessStart hs)
            · next e =>
              have ht := canonical_release_of_eq e (canonical_accessStart hs)
              split
              · exact canonical_finishAcc (canonical_asked (hlines ht))
              · exact (canonical_asked (hlines ht))
              · split
                · next e => exact canonical_finishAcc (canonical_ready_of_eq e (canonical_asked (hlines ht)))
                · next e => exact canonical_finishAcc (canonical_ready_of_eq e (canonical_asked (hlines ht)))
                · next e => exact canonical_ready_of_eq e (canonical_asked (hlines ht))
                · next e =>
                  have hu := canonical_ready_of_eq e (canonical_asked (hlines ht))
                  have hp := hlanes (m := (routes s i (strongKind what) l).1) hu
                  refine Res.canonical_ite (canonical_finishWait ?_) (canonical_finishAcc ?_) <;>
                    refine canonical_ite (canonical_acquire ?_) ?_ <;> exact canonical_ite hp hp

/-! ## Lane accesses -/

theorem canonical_holdDest {l : List Acc} {r : Res} (hr : r.canonical) : (holdDest i l r).canonical := by
  unfold holdDest
  split
  · exact hr
  · exact canonical_foldl hr fun _ _ ht => ht
  · refine canonical_foldl ?_ (fun _ _ ht => ht)
    split <;> exact hr
  · exact hr

theorem canonical_weakLoad {f : MemForm} {e : LaneEnv} (hs : s.canonical) : (weakLoad f e s).canonical := by
  unfold weakLoad
  refine canonical_holdDest ?_
  split
  · exact canonical_weakAcc (fun _ _ _ ht => canonical_loadAcc ht) hs
  · exact canonical_weakAcc (fun _ _ _ ht => canonical_gfeLoad ht) hs

theorem canonical_execLd {w : L3} (hs : s.canonical) : Out.canonical (execLd w s) := by
  unfold execLd
  refine canonical_laneRun (fun _ _ ht => ?_) hs
  split
  · exact canonical_weakLoad ht
  · exact canonical_holdDest (canonical_strongRun ht)

theorem canonical_execLdImm {w : LI} (hs : s.canonical) : Out.canonical (execLdImm w s) :=
  canonical_laneRun (fun _ _ ht => canonical_weakLoad ht) hs
theorem canonical_weakStore {f : MemForm} {code : Nat} {e : LaneEnv} (hs : s.canonical) : (weakStore f code e s).canonical :=
  canonical_finishAcc (canonical_weakRun (fun _ _ _ ht => canonical_storeAcc ht) hs)

theorem canonical_execSt {w : L3} (hs : s.canonical) : Out.canonical (execSt w s) := by
  unfold execSt
  refine canonical_laneRun (fun _ _ ht => ?_) hs
  split
  · exact canonical_weakStore ht
  · exact canonical_strongRun ht

theorem canonical_execStImm {w : LI} (hs : s.canonical) : Out.canonical (execStImm w s) := by
  unfold execStImm
  exact canonical_laneRun (fun _ _ ht => canonical_weakStore ht) hs

theorem canonical_laneAtomic {w : L3} {l : List Acc} {e : LaneEnv} (hs : s.canonical) : (laneAtomic w l e s).canonical := by
  unfold laneAtomic
  refine canonical_holdDest ?_
  split
  · exact canonical_weakAcc (fun _ _ _ ht => canonical_atomAcc ht) hs
  · exact canonical_strongRun hs

theorem canonical_execAtom {w : L3} (hs : s.canonical) : Out.canonical (execAtom w s) := by
  unfold execAtom
  exact canonical_laneRun (fun _ _ ht => canonical_laneAtomic ht) hs

theorem canonical_execCas {w : L3} (hs : s.canonical) : Out.canonical (execCas w s) := by
  unfold execCas
  exact canonical_laneRun (fun _ _ ht => canonical_laneAtomic ht) hs

theorem canonical_prefOne {nl1 : Bool} {a : Nat × Nat} (hs : s.canonical) : (prefOne i nl1 s a).canonical := by
  have hk {h : Hop} : (keepLeaf i.p s h).canonical := canonical_keepLeaf hs
  unfold prefOne
  dsimp only
  split
  · split
    · exact hs
    · split
      · split
        all_goals
          split
          · exact hk
          · exact canonical_countErrs hk
      · split
        · dsimp only
          split
          · exact hk
          · split
            · exact hk
            · split
              · next e => exact canonical_of_eq_pair e (canonical_loadBlock hk)
              · next e => exact canonical_askFill (canonical_of_eq_pair e (canonical_loadBlock hk))
        · dsimp only
          split
          · exact hk
          · split
            · split
              · exact canonical_roomL1 hk
              · exact hk
            · split
              · exact hk
              · split
                · next e => exact canonical_of_eq_pair e (canonical_loadBlock hk)
                · next e => exact canonical_askFill (canonical_of_eq_pair e (canonical_loadBlock hk))
  · exact hs

theorem canonical_prefetch {f : MemForm} {e : LaneEnv} (hs : s.canonical) : (prefetch f e s).canonical :=
  canonical_foldl hs fun _ _ ht => canonical_prefOne ht
theorem canonical_execPref {w : L3} (hs : s.canonical) : Out.canonical (execPref w s) :=
  canonical_laneRun (fun _ _ ht => canonical_prefetch ht) hs
theorem canonical_execPrefImm {w : LI} (hs : s.canonical) : Out.canonical (execPrefImm w s) :=
  canonical_laneRun (fun _ _ ht => canonical_prefetch ht) hs

theorem canonical_granuleRun {fill : Bool} {w : L3} (hs : s.canonical) : Out.canonical (granuleRun fill w s) := by
  unfold granuleRun
  refine canonical_laneRun (fun _ _ ht => ?_) hs
  dsimp only
  split
  · exact ht
  · refine canonical_foldl ht fun _ _ hu => ?_
    refine canonical_foldl hu fun _ _ hv => ?_
    split
    · exact canonical_fillGranule hv
    · exact hv

theorem canonical_execFez {w : L3} (hs : s.canonical) : Out.canonical (execFez w s) := canonical_granuleRun hs
theorem canonical_execFeset {w : L3} (hs : s.canonical) : Out.canonical (execFeset w s) := canonical_granuleRun hs

theorem canonical_execFeq {w : L3} (hs : s.canonical) : Out.canonical (execFeq w s) := by
  unfold execFeq
  refine canonical_laneRun (fun _ _ ht => ?_) hs
  dsimp only
  split <;> exact ht

theorem canonical_putStack {e : LaneEnv} {n : Nat} (hs : s.canonical) : (putStack e n s).canonical := by
  unfold putStack
  split <;> exact hs

theorem canonical_pushWord {e : LaneEnv} {sp reg : Nat} {x : Nat × Nat} (hs : s.canonical) :
    (pushWord e sp reg s x).canonical :=
  canonical_ite hs (canonical_writeSpad hs)

theorem canonical_execPushm {w : L3} (hs : s.canonical) : Out.canonical (execPushm w s) := by
  unfold execPushm
  refine canonical_laneRun (fun _ _ ht => ?_) hs
  split
  · exact ht
  · split
    · exact ht
    · exact canonical_putStack (canonical_foldl ht fun _ _ hu => canonical_pushWord hu)

theorem canonical_execPopm {w : L3} (hs : s.canonical) : Out.canonical (execPopm w s) := by
  unfold execPopm
  refine canonical_laneRun (fun _ _ ht => ?_) hs
  dsimp only
  split
  · exact ht
  · split
    · dsimp only
      split
      · exact ht
      · exact canonical_putStack ht
    · split
      · exact ht
      · split
        · exact ht
        · exact canonical_putStack (canonical_countErrs ht)

/-! ## Lane control flow -/

theorem canonical_jumpL {pc : W32} (hs : s.canonical) : (jumpL s pc).canonical := hs

theorem canonical_execBra {w : LI} (hs : s.canonical) : Out.canonical (execBra w s) := by
  unfold execBra
  refine canonical_laneRun (fun _ _ ht => ?_) hs
  dsimp only
  split
  · exact canonical_jumpL ht
  · split
    · exact canonical_jumpL ht
    · split
      · exact ht
      · split
        · exact canonical_jumpL ht
        · split
          · exact ht
          · exact canonical_jumpL ht

theorem canonical_execLcall {w : LI} (hs : s.canonical) : Out.canonical (execLcall w s) := by
  unfold execLcall
  refine canonical_laneRun (fun _ _ ht => ?_) hs
  dsimp only
  split
  · exact canonical_jumpL ht
  · split
    · exact ht
    · split
      · exact ht
      · exact canonical_jumpL ht

theorem canonical_execLret (hs : s.canonical) : Out.canonical (execLret s) := by
  unfold execLret
  refine canonical_laneRun (fun _ _ ht => ?_) hs
  split
  · split
    · exact canonical_jumpL ht
    · exact ht
  · exact ht

theorem canonical_execLexit {w : L3} (hs : s.canonical) : Out.canonical (execLexit w s) := by
  unfold execLexit
  refine canonical_laneRun (fun _ _ ht => ?_) hs
  dsimp only
  split
  · exact ht
  · split
    · exact ht
    · split <;> exact ht

theorem canonical_waitSplits {e : LaneEnv} {kind : Nat} (hs : s.canonical) : (waitSplits e kind s).canonical := hs

theorem canonical_execLend (hs : s.canonical) : Out.canonical (execLend s) := by
  unfold execLend
  refine canonical_laneRun (fun _ _ ht => ?_) hs
  split
  · exact ht
  · split
    · exact ht
    · exact canonical_waitSplits ht

theorem canonical_execWide (hs : s.canonical) : Out.canonical (execWide s) := by
  unfold execWide
  refine canonical_laneRun (fun _ _ ht => ?_) hs
  split
  · exact ht
  · exact canonical_waitSplits ht

theorem canonical_execEndw (hs : s.canonical) : Out.canonical (execEndw s) := by
  unfold execEndw
  refine canonical_laneRun (fun _ _ ht => ?_) hs
  split
  · exact canonical_waitSplits ht
  · exact ht

theorem canonical_execHint (hs : s.canonical) : Out.canonical (execHint s) := canonical_laneRun (fun _ _ ht => ht) hs
theorem canonical_execLaneProg {w : L3} (hs : s.canonical) : Out.canonical (execLaneProg w s) :=
  canonical_laneRun (fun _ _ ht => ht) hs

theorem canonical_breakpoint {g : Group} {code : Nat} {mask : W32} (hs : s.canonical) :
    (breakpoint g code mask s).canonical := by
  unfold breakpoint
  split <;> exact hs

theorem canonical_execLaneBkpt {w : L3} (hs : s.canonical) : Out.canonical (execLaneBkpt w s) := by
  unfold execLaneBkpt
  refine canonical_laneRun (fun _ _ ht => ?_) hs
  split
  · exact ht
  · exact canonical_breakpoint ht

theorem canonical_execLaneTrap {w : L3} (hs : s.canonical) : Out.canonical (execLaneTrap w s) :=
  canonical_laneRun (fun _ _ ht => by split <;> exact ht) hs

/-! ## Scalar control flow -/

theorem canonical_execSbrZ {a : BitVec 6} {o : BitVec 20} (hs : s.canonical) : Out.canonical (execSbrZ a o s) :=
  canonical_scalarRun (fun _ _ _ => by split <;> exact hs) hs
theorem canonical_execSbrNz {a : BitVec 6} {o : BitVec 20} (hs : s.canonical) : Out.canonical (execSbrNz a o s) :=
  canonical_scalarRun (fun _ _ _ => by split <;> exact hs) hs
theorem canonical_execSjmp {o : BitVec 20} (hs : s.canonical) : Out.canonical (execSjmp o s) :=
  canonical_scalarRun (fun _ _ _ => hs) hs
theorem canonical_execScall {a : BitVec 6} {o : BitVec 20} (hs : s.canonical) : Out.canonical (execScall a o s) :=
  canonical_scalarRun (fun _ _ _ => hs) hs
theorem canonical_execSret {a : BitVec 6} (hs : s.canonical) : Out.canonical (execSret a s) :=
  canonical_scalarRun (fun _ _ _ => by split <;> exact hs) hs

theorem canonical_execLissue {w0 w1 w2 w3 : BitVec 6} {t : BitVec 32} (hs : s.canonical) :
    Out.canonical (execLissue w0 w1 w2 w3 t s) := by
  unfold execLissue
  refine canonical_scalarRun (fun _ _ _ => ?_) hs
  split <;> split <;> exact hs

theorem canonical_execLsync (hs : s.canonical) : Out.canonical (execLsync s) :=
  canonical_scalarRun (fun _ _ _ => by split <;> exact hs) hs
theorem canonical_endGroup {g : Group} (hs : s.canonical) : (endGroup s c sl g).canonical :=
  canonical_ite (canonical_ite (canonical_removeNb (canonical_ite hs hs)) (canonical_ite hs hs)) hs

theorem canonical_execSexit (hs : s.canonical) : Out.canonical (execSexit s) := by
  unfold execSexit
  refine canonical_scalarRun (fun _ _ _ => ?_) hs
  split
  · exact hs
  · split
    · exact hs
    · split
      · exact hs
      · exact canonical_endGroup hs

theorem canonical_execSpause {a : BitVec 6} (hs : s.canonical) : Out.canonical (execSpause a s) := by
  unfold execSpause
  refine canonical_scalarRun (fun _ _ _ => ?_) hs
  dsimp only
  split <;> exact hs

theorem canonical_execSfmt {a : BitVec 6} (hs : s.canonical) : Out.canonical (execSfmt a s) :=
  canonical_scalarRun (fun _ _ _ => hs) hs
theorem canonical_execShint (hs : s.canonical) : Out.canonical (execShint s) := canonical_scalarRun (fun _ _ _ => hs) hs
theorem canonical_execProg {n : BitVec 3} (hs : s.canonical) : Out.canonical (execProg n s) :=
  canonical_scalarRun (fun _ _ _ => hs) hs
theorem canonical_execBkpt {code : BitVec 5} (hs : s.canonical) : Out.canonical (execBkpt code s) :=
  canonical_scalarRun (fun _ _ _ => canonical_breakpoint hs) hs

theorem canonical_execTrialon {a b : BitVec 6} (hs : s.canonical) : Out.canonical (execTrialon a b s) := by
  unfold execTrialon
  refine canonical_scalarRun (fun _ _ _ => ?_) hs
  dsimp only
  split <;> exact hs

theorem canonical_execTrialoff {d : BitVec 6} (hs : s.canonical) : Out.canonical (execTrialoff d s) :=
  canonical_scalarRun (fun _ _ _ => hs) hs

/-! ## Scalar accesses -/

theorem canonical_scalarLoad {a : Acc} {g : Group} (hs : s.canonical) : (scalarLoad a c sl g s).canonical :=
  canonical_weakAcc (fun _ _ _ ht => canonical_loadAcc ht) hs
theorem canonical_scalarStore {a : Acc} {g : Group} (hs : s.canonical) : (scalarStore a c sl g s).canonical :=
  canonical_weakAcc (fun _ _ _ ht => canonical_storeAcc ht) hs

theorem canonical_scalarStrong {what : Nat} {x : SXMem} {a : Acc} {g : Group} (hs : s.canonical) :
    (scalarStrong what x a c sl g s).canonical := by
  unfold scalarStrong
  split
  · exact hs
  · exact canonical_strongRun hs

theorem canonical_scalarAtomic {x : SXMem} {a : Acc} {g : Group} (hs : s.canonical) :
    (scalarAtomic x a c sl g s).canonical := by
  unfold scalarAtomic
  split
  · exact canonical_weakAcc (fun _ _ _ ht => canonical_atomAcc ht) hs
  · exact canonical_scalarStrong hs

theorem canonical_execSld {d a : BitVec 6} {i : BitVec 13} (hs : s.canonical) : Out.canonical (execSld d a i s) :=
  canonical_scalarRun (fun _ _ _ => canonical_scalarLoad hs) hs
theorem canonical_execSst {d a : BitVec 6} {i : BitVec 13} (hs : s.canonical) : Out.canonical (execSst d a i s) :=
  canonical_scalarRun (fun _ _ _ => canonical_scalarStore hs) hs

theorem canonical_execSldX {d a : BitVec 6} {x : SXMem} (hs : s.canonical) : Out.canonical (execSldX d a x s) := by
  unfold execSldX
  refine canonical_scalarRun (fun _ _ _ => ?_) hs
  split
  · exact canonical_scalarLoad hs
  · exact canonical_scalarStrong hs

theorem canonical_execSstX {d a : BitVec 6} {x : SXMem} (hs : s.canonical) : Out.canonical (execSstX d a x s) := by
  unfold execSstX
  refine canonical_scalarRun (fun _ _ _ => ?_) hs
  split
  · exact canonical_scalarStore hs
  · exact canonical_scalarStrong hs

theorem canonical_execSatom {d a b : BitVec 6} {op : BitVec 3} {x : SXMem} (hs : s.canonical) :
    Out.canonical (execSatom d a b op x s) :=
  canonical_scalarRun (fun _ _ _ => canonical_scalarAtomic hs) hs

theorem canonical_execScas {d a b n : BitVec 6} {x : SXMem} (hs : s.canonical) : Out.canonical (execScas d a b n x s) :=
  canonical_scalarRun (fun _ _ _ => canonical_scalarAtomic hs) hs

theorem canonical_lineOp {drop : Bool} {r : Bool × State} {x : Spot} (hr : r.2.canonical) :
    (lineOp c drop r x).2.canonical := by
  unfold lineOp
  split
  · dsimp only
    split
    · exact canonical_invalidateLine hr
    · exact canonical_writeBack hr
  · split
    · exact canonical_dropRemote hr
    · exact canonical_sendLine hr
  · exact hr

theorem canonical_lineRun {drop : Bool} {a b : BitVec 6} (hs : s.canonical) : Out.canonical (lineRun drop a b s) := by
  unfold lineRun
  refine canonical_scalarRun (fun _ _ _ => ?_) hs
  dsimp only
  split
  · exact hs
  · split
    · exact hs
    · split
      · exact hs
      · split
        · dsimp only
          split
          · exact hs
          · split <;> exact hs
        · split
          · exact canonical_foldl_snd hs fun _ _ ht => canonical_lineOp ht
          · split <;> exact canonical_foldl_snd hs fun _ _ ht => canonical_lineOp ht

theorem canonical_execLinv {a b : BitVec 6} (hs : s.canonical) : Out.canonical (execLinv a b s) := canonical_lineRun hs
theorem canonical_execLwb {a b : BitVec 6} (hs : s.canonical) : Out.canonical (execLwb a b s) := canonical_lineRun hs

/-! ## Barriers -/

theorem canonical_takeCarried {bit : Nat} {v : BitVec 512} (hs : s.canonical) : (takeCarried s c bit v).canonical := by
  unfold takeCarried
  split <;> exact hs

theorem canonical_execNbinit {n : BitVec 4} {a : BitVec 6} (hs : s.canonical) : Out.canonical (execNbinit n a s) := by
  unfold execNbinit
  refine canonical_scalarRun (fun _ _ _ => ?_) hs
  dsimp only
  split
  · exact hs
  · split <;> exact hs

theorem canonical_execNbarr {n : BitVec 4} (hs : s.canonical) : Out.canonical (execNbarr n s) := by
  unfold execNbarr
  refine canonical_scalarRun (fun _ _ _ => ?_) hs
  split
  · exact hs
  · split
    · exact hs
    · split
      · exact hs
      · exact canonical_bindGroup hs

theorem canonical_execNbwait {n : BitVec 4} {a : BitVec 6} (hs : s.canonical) : Out.canonical (execNbwait n a s) := by
  unfold execNbwait
  refine canonical_scalarRun (fun _ _ _ => ?_) hs
  dsimp only
  split
  · exact hs
  · exact canonical_takeCarried hs

theorem canonical_barArrive {part key : Nat} {v : BitVec 512} (hs : s.canonical) : (barArrive s part key v).canonical :=
  canonical_ite hs hs

theorem canonical_barWaited {scope : Nat} {v : BitVec 512} (hs : s.canonical) : (barWaited s c sl scope v).canonical := by
  have hp : (purgeL1 c s).canonical := canonical_purgeL1 hs
  unfold barWaited
  dsimp only
  split
  · exact canonical_takeCarried hs
  · split
    · split
      · exact canonical_updGroup (canonical_fullSig (canonical_purgePartition hp))
      · exact canonical_fullSig (canonical_purgePartition hp)
    · split
      · exact canonical_updGroup (canonical_takeCarried hp)
      · exact canonical_takeCarried hp

theorem canonical_barRelease {scope : Nat} (hs : s.canonical) : (barRelease s c sl scope).canonical := by
  unfold barRelease
  dsimp only
  split
  · exact hs
  · split
    · exact hs
    · exact canonical_bindGroup hs
    · exact canonical_releaseSteps hs
    · split <;> exact canonical_flushL1 (canonical_bindGroup hs)

theorem canonical_execBar {d : BitVec 6} {sc : BitVec 3} (hs : s.canonical) : Out.canonical (execBar d sc s) := by
  unfold execBar
  refine canonical_scalarRun (fun _ _ _ => ?_) hs
  dsimp only
  split
  · exact hs
  · split
    · exact hs
    · exact canonical_barWaited hs
  · split
    · exact hs
    · split
      · exact hs
      · split
        · next e => exact Rel.canonical_of_eq e (canonical_barRelease hs)
        · next e => exact Rel.canonical_of_eq e (canonical_barRelease hs)
        · next e =>
          have ht := Rel.canonical_of_eq e (canonical_barRelease hs)
          split
          all_goals
            split
            · exact canonical_barArrive ht
            · exact canonical_barWaited (canonical_barArrive ht)

/-! ## Records, copies and operand maps -/

theorem canonical_readRecord {va n align : Nat} (hs : s.canonical) : (readRecord i va n align s).canonical := by
  unfold readRecord
  dsimp only
  split
  · exact hs
  · split
    · exact hs
    · split
      · exact canonical_offer hs
      · split
        · exact hs
        · split
          · exact canonical_askLanes (canonical_keepLeaves (canonical_leaveQueue hs))
          · exact canonical_askLanes (canonical_keepLeaves (canonical_leaveQueue hs))
          · exact canonical_askLanes (canonical_keepLeaves (canonical_leaveQueue hs))
          · split
            · exact canonical_askLanes (canonical_keepLeaves (canonical_leaveQueue hs))
            · exact canonical_countErrs (canonical_askLanes (canonical_keepLeaves (canonical_leaveQueue hs)))

theorem canonical_execCseal {d : BitVec 6} (hs : s.canonical) : Out.canonical (execCseal d s) := by
  unfold execCseal
  refine canonical_scalarRun (fun _ _ _ => ?_) hs
  dsimp only
  split
  · exact hs
  · split <;> exact hs

theorem canonical_execCwait {a : BitVec 6} (hs : s.canonical) : Out.canonical (execCwait a s) := by
  unfold execCwait
  refine canonical_scalarRun (fun _ _ _ => ?_) hs
  dsimp only
  split
  · exact hs
  · split <;> exact hs

theorem canonical_execCpoll {d a : BitVec 6} (hs : s.canonical) : Out.canonical (execCpoll d a s) :=
  canonical_scalarRun (fun _ _ _ => hs) hs
theorem canonical_addCopy {x : Copy} (hs : s.canonical) : (addCopy s c sl x).canonical := hs

theorem canonical_execCpy {a b : BitVec 6} {e : BitVec 1} {m : BitVec 2} (hs : s.canonical) :
    Out.canonical (execCpy a b e m s) := by
  unfold execCpy
  refine canonical_scalarRun (fun _ _ _ => Res.canonical_ite hs ?_) hs
  dsimp only
  split
  · next e => exact Rec.canonical_of_eq e (canonical_readRecord hs)
  · next e =>
    have ht := Rec.canonical_of_eq e (canonical_readRecord hs)
    split
    · exact ht
    · split
      · exact ht
      · exact canonical_addCopy ht

theorem canonical_execCpyg {a b : BitVec 6} {e x : BitVec 1} (hs : s.canonical) : Out.canonical (execCpyg a b e x s) := by
  unfold execCpyg
  refine canonical_scalarRun (fun _ _ _ => ?_) hs
  dsimp only
  split
  · next e => exact Rec.canonical_of_eq e (canonical_readRecord hs)
  · next e =>
    have ht := Rec.canonical_of_eq e (canonical_readRecord hs)
    split
    · exact ht
    · split
      all_goals
        split
        · exact ht
        · split
          · exact ht
          · split
            · exact ht
            · exact canonical_addCopy ht

theorem canonical_addLaneCopy {x : Nat × Nat × Nat × Nat} (hs : s.canonical) : (addLaneCopy i s x).canonical :=
  canonical_addCopy hs

theorem canonical_execLcpy {w : L3} (hs : s.canonical) : Out.canonical (execLcpy w s) := by
  unfold execLcpy
  refine canonical_laneRun (fun _ _ ht => ?_) hs
  dsimp only
  split
  · exact ht
  · exact ht
  · split
    · exact ht
    · exact canonical_foldl ht fun _ _ hu => canonical_addLaneCopy hu

theorem canonical_execOmap {a : BitVec 6} {k : BitVec 4} (hs : s.canonical) : Out.canonical (execOmap a k s) := by
  unfold execOmap
  refine canonical_scalarRun (fun _ _ _ => ?_) hs
  dsimp only
  split
  · exact hs
  · split
    · next e => exact Rec.canonical_of_eq e (canonical_readRecord hs)
    · next e =>
      have ht := Rec.canonical_of_eq e (canonical_readRecord hs)
      split
      · exact ht
      · split <;> exact ht

theorem canonical_execOstat {d : BitVec 6} {k : BitVec 3} (hs : s.canonical) : Out.canonical (execOstat d k s) :=
  canonical_scalarRun (fun _ _ _ => hs) hs

/-! ## Cross-lane words -/

theorem canonical_shuffle {h : LaneHead} {mode : Nat} {srcs : List Src} {b : Group → Nat → Nat} (hs : s.canonical) :
    Out.canonical (shuffle h mode srcs b s) :=
  canonical_laneRun (fun _ _ ht => ht) hs

theorem canonical_execShfl {w : L3} (hs : s.canonical) : Out.canonical (execShfl w s) := canonical_shuffle hs
theorem canonical_execShflImm {w : LI} (hs : s.canonical) : Out.canonical (execShflImm w s) := canonical_shuffle hs

theorem canonical_execVote {w : L3} (hs : s.canonical) : Out.canonical (execVote w s) := by
  unfold execVote
  refine canonical_laneRun (fun _ _ ht => ?_) hs
  exact canonical_ite (canonical_putTos ht) (canonical_ite ht (canonical_ite ht ht))

theorem canonical_execGred {w : L3} (hs : s.canonical) : Out.canonical (execGred w s) := by
  unfold execGred
  refine canonical_laneRun (fun _ _ ht => ?_) hs
  split
  · exact canonical_putTos ht
  · exact ht

/-! ## Probes and invalidations of translations -/

theorem canonical_execSaper {d a : BitVec 6} (hs : s.canonical) : Out.canonical (execSaper d a s) :=
  canonical_scalarRun (fun _ _ _ => hs) hs

theorem canonical_execPprobe {d a : BitVec 6} {k : BitVec 2} (hs : s.canonical) : Out.canonical (execPprobe d a k s) := by
  unfold execPprobe
  refine canonical_scalarRun (fun _ _ _ => ?_) hs
  dsimp only
  split <;> exact hs

theorem canonical_dropLeaves {gone : CachedLeaf → Bool} {line : Nat → Bool} (hs : s.canonical) :
    (dropLeaves s gone line).canonical :=
  canonical_foldl hs fun _ _ ht => canonical_foldl ht fun _ _ hu => canonical_dropRemote hu

theorem canonical_flushAll (hs : s.canonical) : (flushAll s).2.canonical :=
  canonical_foldl_snd hs fun _ _ ht => canonical_flushL1 ht

theorem canonical_tlbiWait {who : Nat} (hs : s.canonical) : (tlbiWait s c sl who).canonical := by
  unfold tlbiWait
  dsimp only
  split <;> exact canonical_flushAll hs

theorem canonical_tlbiRun {sset : Bool} {regs : List Nat} {f : Group → Nat → State → Option State}
    (hf : ∀ x y t, t.canonical → (f x y t).all State.canonical) (hs : s.canonical) :
    Out.canonical (tlbiRun sset regs f s) := by
  unfold tlbiRun
  refine canonical_scalarRun (fun _ _ _ => ?_) hs
  dsimp only
  split
  · exact canonical_tlbiWait hs
  · split
    · exact hs
    · next e => exact canonical_tlbiWait (canonical_of_eq_some e (hf _ _ _ hs))

theorem canonical_execTlbiRange {a b : BitVec 6} (hs : s.canonical) : Out.canonical (execTlbiRange a b s) := by
  unfold execTlbiRange
  refine canonical_tlbiRun ?_ hs
  intro _ _ _ ht
  dsimp only
  split
  · rfl
  · exact canonical_dropLeaves ht

theorem canonical_execTlbiCtx (hs : s.canonical) : Out.canonical (execTlbiCtx s) :=
  canonical_tlbiRun (fun _ _ _ ht => canonical_dropLeaves ht) hs
theorem canonical_execTlbiSset {a : BitVec 6} (hs : s.canonical) : Out.canonical (execTlbiSset a s) :=
  canonical_tlbiRun (fun _ _ _ ht => canonical_dropLeaves ht) hs

/-! ## Keyed remote memory access -/

theorem canonical_closeChan {k : Nat} (hs : s.canonical) : (closeChan s k).canonical := by
  unfold closeChan
  refine canonical_ite ?_ ?_
  · dsimp only
    exact hs
  · exact hs

theorem canonical_rmaRun {kind : Nat} {a b : BitVec 6} {e : BitVec 1} (hs : s.canonical) :
    Out.canonical (rmaRun kind a b e s) := by
  unfold rmaRun
  refine canonical_scalarRun (fun _ _ _ => ?_) hs
  dsimp only
  split
  · exact hs
  · split
    · next e => exact Rec.canonical_of_eq e (canonical_readRecord hs)
    · next e =>
      have ht := Rec.canonical_of_eq e (canonical_readRecord hs)
      split
      · exact ht
      · split
        · exact ht
        · split
          · exact ht
          · refine canonical_addCopy ?_
            split <;> exact ht

theorem canonical_execRmput {a b : BitVec 6} {e : BitVec 1} (hs : s.canonical) : Out.canonical (execRmput a b e s) :=
  canonical_rmaRun hs
theorem canonical_execRmget {a b : BitVec 6} {e : BitVec 1} (hs : s.canonical) : Out.canonical (execRmget a b e s) :=
  canonical_rmaRun hs

theorem canonical_rmatomRun {d a b : BitVec 6} {w : BitVec 1} {op : Nat} (hs : s.canonical) :
    Out.canonical (rmatomRun d a b w op s) := by
  unfold rmatomRun
  refine canonical_scalarRun (fun _ _ _ => ?_) hs
  dsimp only
  split
  · split
    · exact hs
    · split <;> exact hs
  · split
    · next e => exact Rec.canonical_of_eq e (canonical_readRecord hs)
    · next e =>
      have ht := Rec.canonical_of_eq e (canonical_readRecord hs)
      split
      · exact ht
      · split
        all_goals
          split
          · exact ht
          · split
            · exact ht
            · exact canonical_leaveQueue ht

theorem canonical_execRmatom {d a b : BitVec 6} {w : BitVec 1} {op : BitVec 3} (hs : s.canonical) :
    Out.canonical (execRmatom d a b w op s) :=
  canonical_rmatomRun hs

theorem canonical_execRmatomCas {d a b : BitVec 6} {w : BitVec 1} (hs : s.canonical) :
    Out.canonical (execRmatomCas d a b w s) :=
  canonical_rmatomRun hs

theorem canonical_endHolds {dev who : Nat} (hs : s.canonical) : (endHolds s dev who).canonical :=
  canonical_foldl hs fun _ _ ht => canonical_closeChan ht

theorem canonical_execRmflush {a : BitVec 6} (hs : s.canonical) : Out.canonical (execRmflush a s) := by
  unfold execRmflush
  refine canonical_scalarRun (fun _ _ _ => ?_) hs
  dsimp only
  split
  · exact hs
  · split
    · exact hs
    · split <;> exact canonical_endHolds hs

theorem canonical_execFlushp {a : BitVec 6} (hs : s.canonical) : Out.canonical (execFlushp a s) := by
  unfold execFlushp
  refine canonical_scalarRun (fun _ _ _ => ?_) hs
  dsimp only
  split
  · exact hs
  · split
    · exact canonical_sendContrib hs
    · split
      · next e => exact canonical_of_eq_some_pair e (canonical_takePosted (canonical_sendContrib hs))
      · exact canonical_sendContrib hs

theorem canonical_execKeyset {d a b : BitVec 6} {r : BitVec 3} (hs : s.canonical) :
    Out.canonical (execKeyset d a b r s) := by
  unfold execKeyset
  refine canonical_scalarRun (fun _ _ _ => ?_) hs
  dsimp only
  split
  · exact hs
  · split
    · exact hs
    · split
      · exact hs
      · split
        · exact hs
        · split <;> exact hs

theorem canonical_execKeyrev {a : BitVec 6} (hs : s.canonical) : Out.canonical (execKeyrev a s) := by
  unfold execKeyrev
  refine canonical_scalarRun (fun _ _ _ => ?_) hs
  dsimp only
  split <;> exact hs

/-! ## Queues -/

theorem canonical_putHdr {w : Who} {a : Nat} {h : QHdr} (hs : s.canonical) : (putHdr w s a h).canonical := canonical_putBy hs

theorem canonical_putRecord {w : Who} {a : Nat × Nat} {r : BitVec 512} {stamp : Nat} (hs : s.canonical) :
    (putRecord w s a r stamp).canonical :=
  canonical_putBy (canonical_putBy hs)

theorem canonical_appendOne {stamp : Nat} {x : State × QHdr} {y : BitVec 512 × Who} (hx : x.1.canonical) :
    (appendOne stamp x y).1.canonical := by
  unfold appendOne
  dsimp only
  split <;> exact canonical_putRecord hx

theorem canonical_appendRun {hdr : Nat} {recs : List (BitVec 512)} {peer : Bool} {whos : List Who} (hs : s.canonical) :
    (appendRun s hdr recs peer whos).all State.canonical := by
  unfold appendRun
  dsimp only
  split
  · rfl
  · exact canonical_putHdr (canonical_foldl_fst hs fun _ _ ht => canonical_appendOne ht)

theorem canonical_dequeue {w : Who} {hdr n : Nat} (hs : s.canonical) : (dequeue w s hdr n).2.canonical := canonical_putHdr hs
theorem canonical_sendRun {x : Run} (hs : s.canonical) : (sendRun s x).canonical := hs

theorem canonical_runDeposit {hdr : Nat} {x : Run} (hs : s.canonical) : (runDeposit s hdr x).canonical := by
  unfold runDeposit
  split <;> exact hs

theorem canonical_admitRun {x : Run} (hs : s.canonical) : (admitRun s x).all State.canonical := by
  unfold admitRun
  dsimp only
  split
  · rfl
  · split
    · exact all_map_state (canonical_appendRun hs) fun _ ht => canonical_runDeposit ht
    · split
      · rfl
      · split <;> exact hs

theorem canonical_enqueue {w : L3} {e : LaneEnv} {lanes : List (Nat × Option Nat)} (hs : s.canonical) :
    (enqueue w e lanes s).canonical := by
  unfold enqueue
  dsimp only
  split
  · split <;> exact hs
  · split
    · exact hs
    · split
      · exact hs
      · split
        · next e => exact canonical_release_of_eq e hs
        · next e => exact canonical_release_of_eq e hs
        · next e =>
          have ht := canonical_release_of_eq e hs
          exact canonical_foldl (canonical_ite ht ht) fun _ _ hu => canonical_sendRun hu

theorem canonical_execEnq {w : L3} (hs : s.canonical) : Out.canonical (execEnq w s) :=
  canonical_laneRun (fun _ _ ht => canonical_enqueue ht) hs
theorem canonical_execEnqd {w : L3} (hs : s.canonical) : Out.canonical (execEnqd w s) :=
  canonical_laneRun (fun _ _ ht => canonical_enqueue ht) hs

/-! ## Placing blocks -/

theorem canonical_moveAlloc {x : Nat × Nat × Nat} {base : Nat} (hs : s.canonical) : (moveAlloc s c x base).canonical := by
  unfold moveAlloc
  split
  · exact hs
  · exact canonical_writeSpadBytes hs

theorem canonical_packAllocs {base : Nat} {l : List (Nat × Nat × Nat)} (hs : s.canonical) :
    (packAllocs c base l s).canonical := by
  induction l generalizing base s with
  | nil => exact hs
  | cons x l ih => exact ih (canonical_moveAlloc hs)

theorem canonical_takeBase {n : Nat} (hs : s.canonical) : (takeBase s c n).2.canonical := by
  unfold takeBase
  split
  · exact hs
  · exact canonical_packAllocs hs

theorem canonical_clearAlloc {base n ctx : Nat} (hs : s.canonical) : (clearAlloc s c base n ctx).canonical :=
  canonical_writeSpadBytes hs

theorem canonical_launchAcquire {x : Seeds} (hs : s.canonical) : (launchAcquire s c sl x).canonical := by
  unfold launchAcquire
  dsimp only
  split
  · exact hs
  · split <;> exact canonical_acquire hs

theorem canonical_placeBlock {t : Stage} {x : Seeds} {nb : Nat} {k : Nat} {at' : Nat × List Nat} (hs : s.canonical) :
    (placeBlock t x nb s k at').canonical :=
  canonical_foldl (canonical_foldl (canonical_clearAlloc (canonical_takeBase hs)) fun _ _ ht => ht)
    fun _ _ ht => canonical_launchAcquire ht

theorem canonical_place {part anchor : Nat} {t : Stage} {x : Seeds} {cores : List (Nat × List Nat)} {cmd : Option Nat}
    (hs : s.canonical) : (place s part anchor t x cores cmd).canonical :=
  canonical_foldl hs fun _ _ ht => canonical_placeBlock ht

/-! ## Counters and launches -/

theorem canonical_counterAdd {w : Who} {a n : Nat} (hs : s.canonical) : (counterAdd s w a n).canonical := by
  unfold counterAdd
  split
  · exact canonical_perform hs
  · exact hs

theorem canonical_execCtradd {a b : BitVec 6} {o : BitVec 5} (hs : s.canonical) : Out.canonical (execCtradd a b o s) := by
  unfold execCtradd
  refine canonical_scalarRun (fun _ _ _ => ?_) hs
  split
  · exact hs
  · dsimp only
    split
    · exact hs
    · split
      · exact canonical_counterAdd hs
      · split
        · next e => exact Rel.canonical_of_eq e (canonical_releaseSteps hs)
        · next e => exact Rel.canonical_of_eq e (canonical_releaseSteps hs)
        · next e => exact canonical_released (canonical_deposit
            (canonical_counterAdd (Rel.canonical_of_eq e (canonical_releaseSteps hs))))

theorem canonical_execCtrwait {a b : BitVec 6} {o : BitVec 5} (hs : s.canonical) : Out.canonical (execCtrwait a b o s) := by
  unfold execCtrwait
  refine canonical_scalarRun (fun _ _ _ => ?_) hs
  dsimp only
  split
  · exact hs
  · split
    · exact hs
    · split
      · exact hs
      · split
        · exact hs
        · split
          · exact canonical_finishWait (canonical_acquire hs)
          · exact canonical_acquire hs

theorem canonical_execTicket {d a b : BitVec 6} (hs : s.canonical) : Out.canonical (execTicket d a b s) := by
  unfold execTicket
  refine canonical_scalarRun (fun _ _ _ => ?_) hs
  split
  · exact hs
  · split
    · exact hs
    · split
      · exact hs
      · exact canonical_counterAdd hs

theorem canonical_execDiffmax {d a b : BitVec 6} (hs : s.canonical) : Out.canonical (execDiffmax d a b s) :=
  canonical_scalarRun (fun _ _ _ => hs) hs

theorem canonical_launchFrom {part sid qid : Nat} {d : BitVec 6} {t : Stage} {q : Queue} {ticket : Nat}
    {cores : List (Nat × List Nat)} (hs : s.canonical) : (launchFrom s c sl part sid qid d t q ticket cores).canonical := by
  unfold launchFrom
  dsimp only
  split
  · exact hs
  · split
    · exact hs
    · exact canonical_place (canonical_dequeue hs)

theorem canonical_execLaunch {d a b : BitVec 6} (hs : s.canonical) : Out.canonical (execLaunch d a b s) := by
  unfold execLaunch
  refine canonical_scalarRun (fun _ _ _ => ?_) hs
  dsimp only
  split
  · exact hs
  · split
    · exact hs
    · split
      · exact hs
      · split
        · exact hs
        · exact canonical_launchFrom hs

theorem canonical_execLaunchDirect {d a b : BitVec 6} (hs : s.canonical) : Out.canonical (execLaunchDirect d a b s) := by
  unfold execLaunchDirect
  refine canonical_scalarRun (fun _ _ _ => ?_) hs
  dsimp only
  split
  · exact hs
  · split
    · next e => exact Rec.canonical_of_eq e (canonical_readRecord hs)
    · next e =>
      have ht := Rec.canonical_of_eq e (canonical_readRecord hs)
      split
      · exact ht
      · exact canonical_place ht

/-! ## The shared tile file -/

theorem canonical_answerPeers {nb : Nat} (hs : s.canonical) : (answerPeers s nb).canonical :=
  canonical_foldl hs fun _ _ ht => canonical_ite ht ht

theorem canonical_pendRefused {nb : Nat} {o : TileOp} (hs : s.canonical) : (pendRefused nb s o).canonical := by
  unfold pendRefused
  dsimp only
  split
  · split <;> exact hs
  · split <;> exact hs
  · exact hs

theorem canonical_judged {nb : Nat} (hs : s.canonical) : (judged s nb).canonical :=
  canonical_foldl (canonical_answerPeers hs) fun _ _ ht => canonical_pendRefused ht

theorem canonical_changeName {nb name : Nat} {f : TileName → TileName} (hs : s.canonical) :
    (changeName s nb name f).canonical :=
  canonical_judged hs

theorem canonical_killName {nb name : Nat} (hs : s.canonical) : (killName s nb name).canonical := canonical_changeName hs
theorem canonical_settleKills (hs : s.canonical) : (settleKills s).canonical :=
  canonical_foldl hs fun _ _ ht => canonical_foldl ht fun _ _ hu => canonical_killName hu
theorem canonical_sendTileOp {nb : Nat} {o : TileOp} (hs : s.canonical) : (sendTileOp s nb o).canonical := hs

theorem canonical_tileRun {nb : Nat} {early : Bool} {o : TileOp} {first accepted : TileOp → State → Res}
    (hfirst : ∀ x t, t.canonical → (first x t).canonical) (haccepted : ∀ x t, t.canonical → (accepted x t).canonical)
    (hs : s.canonical) : (tileRun nb early o first accepted s).canonical := by
  unfold tileRun
  split
  · exact hfirst _ _ hs
  · split
    · exact hs
    · split
      · exact haccepted _ _ hs
      · exact hs

theorem canonical_sendAndWait {nb : Nat} {o : TileOp} (hs : s.canonical) : (sendAndWait nb o s).canonical :=
  canonical_sendTileOp hs

theorem canonical_execTdef {a b : BitVec 6} (hs : s.canonical) : Out.canonical (execTdef a b s) := by
  unfold execTdef
  refine canonical_scalarRun (fun _ _ _ => ?_) hs
  refine canonical_tileRun ?_ ?_ hs
  · intro _ _ ht
    split
    · exact ht
    · split
      · exact ht
      · split
        · exact ht
        · exact canonical_sendAndWait ht
  · intro _ _ ht
    split
    · exact ht
    · exact canonical_addCopy ht

theorem canonical_setTileOp {nb : Nat} {o : TileOp} (hs : s.canonical) : (setTileOp s nb o).canonical := hs

theorem canonical_execTrds {a b : BitVec 6} (hs : s.canonical) : Out.canonical (execTrds a b s) := by
  unfold execTrds
  refine canonical_scalarRun (fun _ _ _ => ?_) hs
  refine canonical_tileRun (fun _ _ ht => ?_) (fun _ _ ht => ?_) hs
  · split
    · exact ht
    · split
      · exact ht
      · exact canonical_sendAndWait ht
  · split
    · exact ht
    · exact canonical_setTileOp (canonical_addCopy ht)

theorem canonical_execTkill {a : BitVec 6} (hs : s.canonical) : Out.canonical (execTkill a s) :=
  canonical_scalarRun (fun _ _ _ => canonical_tileRun (fun _ _ ht => canonical_sendAndWait ht) (fun _ _ ht => ht) hs) hs
theorem canonical_execTqry {d a : BitVec 6} (hs : s.canonical) : Out.canonical (execTqry d a s) :=
  canonical_scalarRun (fun _ _ _ => hs) hs

theorem canonical_execTdefv {w : L3} (hs : s.canonical) : Out.canonical (execTdefv w s) := by
  unfold execTdefv
  refine canonical_laneRun (fun _ _ ht => ?_) hs
  dsimp only
  split
  · exact ht
  · split
    · exact ht
    · split
      · exact ht
      · split
        · exact ht
        · split
          · next e =>
            have hr := Res.canonical_of_eq e
              (canonical_tileRun (fun _ _ ht => canonical_sendAndWait ht) (fun _ _ ht => ht) ht)
            exact hr
          · exact canonical_tileRun (fun _ _ ht => canonical_sendAndWait ht) (fun _ _ ht => ht) ht

theorem canonical_execTrd {w : L3} (hs : s.canonical) : Out.canonical (execTrd w s) := by
  unfold execTrd
  refine canonical_laneRun (fun e t ht => ?_) hs
  dsimp only
  split
  · exact ht
  · split
    · next e =>
      have hr := Res.canonical_of_eq e
        (canonical_tileRun (fun _ _ ht => canonical_sendAndWait ht) (fun _ _ ht => ht) ht)
      exact hr
    · exact canonical_tileRun (fun _ _ ht => canonical_sendAndWait ht) (fun _ _ ht => ht) ht

/-! ## Operand streams -/

theorem canonical_waitAt {w : SliceParty} {c : WaitCond} (hs : s.canonical) : (waitAt w c s).canonical := by
  unfold waitAt
  split
  · exact canonical_joinPlace hs
  · exact hs

theorem canonical_readyOne {w : Reader} {r : Ready} {h : Hop} (hr : r.canonical) : (readyOne i w r h).canonical := by
  unfold readyOne
  dsimp only
  split
  · split
    · split <;> exact hr
    · split
      · exact hr
      · split
        · split <;> exact canonical_writeBack hr
        · exact hr
    · split
      · split
        · exact hr
        · split <;> exact hr
      · split
        · exact hr
        · split <;> next e => exact SRes.canonical_of_eq e (canonical_sendRead (canonical_leaveQueue hr))
    · exact hr
  · exact hr

theorem canonical_readyAll {w : Reader} {hops : List Hop} (hs : s.canonical) : (readyAll i w hops s).canonical := by
  have hr : (hops.foldl (readyOne i w) (.ok s)).canonical :=
    List.foldlRecOn (motive := fun r => Ready.canonical r) hops _ hs fun r hr x _ => canonical_readyOne hr
  unfold readyAll
  split
  · next e =>
    have ht := Ready.canonical_of_eq e hr
    split
    · exact ht
    · exact canonical_countErrs ht
  · exact hr

/-- Why an element has no place: no reason touches a memory. -/
theorem canonical_placed {p : Party} {k : Access} {x g : Nat × Nat} {r : Got1} (hs : s.canonical)
    (e : placed s p k x g = .error r) : r.canonical := by
  unfold placed at e
  split at e
  · cases e; rfl
  · split at e
    · cases e; rfl
    · split at e
      · cases e; exact hs
      · split at e
        · cases e; exact hs
        · cases e

/-- The error that a list of computations stops at is the error of one of them. -/
theorem error_of_mapM_eq_error {α β ε : Type} {f : α → Except ε β} {l : List α} {e : ε} (h : l.mapM f = .error e) :
    ∃ x ∈ l, f x = .error e := by
  induction l with
  | nil => cases h
  | cons x l ih =>
    rw [List.mapM_cons] at h
    cases hx : f x with
    | error e' =>
      rw [hx] at h
      cases h
      exact ⟨x, List.mem_cons_self, hx⟩
    | ok y =>
      rw [hx] at h
      cases hl : l.mapM f with
      | error e' =>
        obtain ⟨z, hz, hf⟩ := ih (by rw [hl] at h ⊢; exact h)
        exact ⟨z, List.mem_cons_of_mem x hz, hf⟩
      | ok ys =>
        rw [hl] at h
        cases h
theorem canonical_readMem {tag : Nat} {m : OMap} {j : Nat} (hs : s.canonical) : (readMem s i tag m j).canonical := by
  unfold readMem
  dsimp only
  split
  · next e =>
    obtain ⟨x, _, hx⟩ := error_of_mapM_eq_error e
    exact canonical_placed hs hx
  · have hr {w : Reader} {hops : List Hop} : (readyAll i w hops (keepLeaves s i.p hops)).canonical :=
      canonical_readyAll (canonical_keepLeaves hs)
    split
    · next e => exact Ready.canonical_of_eq e hr
    · next e => exact Ready.canonical_of_eq e hr
    · next e => exact Ready.canonical_of_eq e hr

theorem canonical_tileHere {strm : StreamId} {tag nb name : Nat} (hs : s.canonical) :
    (tileHere s strm tag nb name).canonical := by
  unfold tileHere
  dsimp only
  split
  · refine canonical_sendTileOp ?_
    split <;> exact hs
  · split
    · split <;> exact hs
    · split <;> split <;> exact hs

theorem canonical_tileFar {dev handle name : Nat} (hs : s.canonical) : (tileFar s i dev handle name).canonical := by
  unfold tileFar
  split
  · exact hs
  · split
    · exact hs
    · split <;> exact hs

theorem canonical_tileSource {tag : Nat} {m : OMap} (hs : s.canonical) : (tileSource s i tag m).canonical := by
  unfold tileSource
  dsimp only
  split
  · exact canonical_tileFar hs
  · split
    · exact canonical_tileHere hs
    · split <;> exact hs

theorem canonical_tileEnd {tag : Nat} {m : OMap} (hs : s.canonical) : (tileEnd s i tag m).canonical := by
  unfold tileEnd
  dsimp only
  split
  · exact hs
  · split <;> exact hs

theorem canonical_readTile {tag : Nat} {m : OMap} {j : Nat} (hs : s.canonical) : (readTile s i tag m j).canonical := by
  unfold readTile
  split
  · next e => exact TileGot.canonical_of_eq e (canonical_tileSource hs)
  · next e => exact TileGot.canonical_of_eq e (canonical_tileSource hs)
  · next e =>
    have ht := TileGot.canonical_of_eq e (canonical_tileSource hs)
    split
    · exact canonical_tileEnd ht
    · split
      · rfl
      · exact ht

theorem canonical_readElem {tag : Nat} {m : OMap} {j : Nat} (hs : s.canonical) : (readElem s i tag m j).canonical := by
  unfold readElem
  split
  · exact canonical_readMem hs
  · exact canonical_readTile hs

theorem canonical_endMap {tag : Nat} {m : OMap} (hs : s.canonical) : (endMap s i tag m).canonical := canonical_tileEnd hs
theorem canonical_spillElem {p : Party} {m : OMap} {j pat : Nat} (hs : s.canonical) : (spillElem s p m j pat).1.canonical :=
  canonical_writeSpadBytes hs

theorem canonical_deliver {b k n : Nat} (hs : s.canonical) : (deliver b k n s).1.canonical := by
  induction n generalizing s with
  | zero => exact hs
  | succ n ih =>
    unfold deliver
    dsimp only
    split
    any_goals exact hs
    split
    · exact hs
    · split
      · exact hs
      · have hr {i : Issuer} {tag : Nat} {m : OMap} {j : Nat} : (readElem s i tag m j).canonical := canonical_readElem hs
        split
        · next e => exact canonical_waitAt (Got1.canonical_of_eq e hr)
        · exact hs
        · exact hs
        · next e => exact Got1.canonical_of_eq e hr
        · next e => exact Got1.canonical_of_eq e hr
        · next e => exact Got1.canonical_of_eq e hr
        · next e =>
          have ht := canonical_leavePlaces (w := .operand b k) (Got1.canonical_of_eq e hr)
          refine ih (canonical_ite (canonical_endMap ?_) ?_)
          all_goals
            split
            · exact canonical_spillElem ht
            · exact ht

theorem canonical_deliverSome {b k n : Nat} (hs : s.canonical) : (deliverSome s b k n).canonical :=
  canonical_ite (canonical_deliver hs) (canonical_writeSpad (canonical_deliver hs))

theorem canonical_drain {b : Nat} (hs : s.canonical) : (drain s b).1.canonical := by
  unfold drain
  split
  · exact hs
  · split
    · exact hs
    · split <;> exact hs

theorem canonical_drainNow {b : Nat} (hs : s.canonical) : (drainNow s b).canonical := by
  unfold drainNow
  split
  · next e => exact canonical_raiseSeq (canonical_of_eq_fst e (canonical_drain hs))
  · next e => exact canonical_of_eq_fst e (canonical_drain hs)

/-! ## The matrix sequencer -/

theorem canonical_alone {q : Seq} {f : Unit → Res} (hs : s.canonical) (hf : ∀ x, (f x).canonical) :
    (alone s q f).canonical := by
  unfold alone
  split
  · exact hf _
  · exact hs

theorem canonical_settled {b : Nat} {q : Seq} {f : Unit → Res} (hs : s.canonical) (hf : ∀ x, (f x).canonical) :
    (settled s b q f).canonical := by
  unfold settled
  refine canonical_alone hs fun _ => ?_
  split
  · exact hs
  · exact hf _

theorem canonical_drained {b : Nat} (hs : s.canonical) : (drained s b).canonical := by
  unfold drained
  split <;> next e => exact canonical_of_eq_fst e (canonical_drain hs)

theorem canonical_matrixMul {quant : Bool} {w : MA} (hs : s.canonical) : Out.canonical (matrixMul quant w s) := by
  unfold matrixMul
  refine canonical_seqRun fun _ _ _ => ?_
  split
  · exact canonical_drained hs
  · split
    · exact canonical_alone hs fun _ => hs
    · exact hs
    · exact canonical_drained hs

theorem canonical_execMma {w : MA} (hs : s.canonical) : Out.canonical (execMma w s) := canonical_matrixMul hs
theorem canonical_execMmaq {w : MA} (hs : s.canonical) : Out.canonical (execMmaq w s) := canonical_matrixMul hs
theorem canonical_execMzero {w : MA} (hs : s.canonical) : Out.canonical (execMzero w s) :=
  canonical_seqRun fun _ _ _ => canonical_alone hs fun _ => hs
theorem canonical_execMadda {w : MA} (hs : s.canonical) : Out.canonical (execMadda w s) :=
  canonical_seqRun fun _ _ _ => canonical_alone hs fun _ => hs

theorem canonical_seqFault {b pos : Nat} {k : Access} {f : XFault} {va : Nat} (hs : s.canonical) :
    (seqFault s b pos k f va).canonical :=
  canonical_setFaults (canonical_offer hs)

theorem canonical_readMap {b slot : Nat} {m : OMap} {done : List Nat → State → Res} {js buf : List Nat}
    (hdone : ∀ l t, t.canonical → (done l t).canonical) (hs : s.canonical) : (readMap b slot m done js buf s).canonical := by
  induction js generalizing buf s with
  | nil => exact hdone _ _ (canonical_endMap hs)
  | cons j js ih =>
    have hr : (readElem s (seqIssuer s b 8) 0 m j).canonical := canonical_readElem hs
    unfold readMap
    split
    · next e => exact ih (Got1.canonical_of_eq e hr)
    · next e => exact Got1.canonical_of_eq e hr
    · exact canonical_endMap hs
    · exact canonical_endMap hs
    · next e => exact canonical_seqFault (Got1.canonical_of_eq e hr)
    · next e => exact canonical_endMap (Got1.canonical_of_eq e hr)
    · next e => exact canonical_endMap (Got1.canonical_of_eq e hr)

theorem canonical_execMlda {w : MA} (hs : s.canonical) : Out.canonical (execMlda w s) := by
  unfold execMlda
  refine canonical_seqRun fun _ _ _ => ?_
  refine canonical_alone hs fun _ => ?_
  split
  · exact hs
  · exact canonical_readMap (fun _ _ ht => ht) hs

theorem canonical_postUnit {b dev : Nat} {l : List (Nat × Byte)} (hs : s.canonical) : (postUnit b dev l s).canonical := by
  unfold postUnit
  split <;> exact hs

theorem canonical_writeUnit {b : Nat} {posOf : Nat → Nat → Nat} {u : StaUnit} (hs : s.canonical) :
    (writeUnit b posOf u s).canonical := by
  unfold writeUnit
  dsimp only
  split
  · exact canonical_seqFault hs
  · have hp {p : Party} {hops : List Hop} {l : List (Nat × List (Nat × Byte))} :
        (l.foldl (fun t y => dropPeerLine t (b / 8) y.1 (farAddr y)) (keepLeaves s p hops)).canonical :=
      canonical_foldl (canonical_keepLeaves hs) fun _ _ ht => canonical_dropPeerLine ht
    split
    · exact hs
    · split
      · exact hp
      · split
        · exact hp
        · split
          · exact canonical_dropLines (canonical_leaveQueue hp)
          · split
            · next e => exact canonical_exhaust (canonical_homed_of_eq e (canonical_leaveQueue hp))
            · next e => exact canonical_homed_of_eq e (canonical_leaveQueue hp)
            · next e => exact canonical_homed_of_eq e (canonical_leaveQueue hp)
            · next e =>
              have ht := canonical_homed_of_eq e (canonical_leaveQueue hp)
              exact canonical_foldl (canonical_writeChip (canonical_writeSpad (canonical_toHost (canonical_addLines ht))))
                fun _ _ hu => canonical_postUnit hu

theorem canonical_writeUnits {b : Nat} {posOf : Nat → Nat → Nat} {draws : StaUnit → Nat} {fin : State → Res} {n : Nat}
    {us : List StaUnit} (hfin : ∀ t, t.canonical → (fin t).canonical) (hs : s.canonical) :
    (writeUnits b posOf draws fin n us s).canonical := by
  induction us generalizing n s with
  | nil => exact hfin s hs
  | cons u us ih =>
    have hu : (writeUnit b posOf u s).canonical := canonical_writeUnit hs
    unfold writeUnits
    split
    · next e => exact ih (Res.canonical_of_eq e hu)
    · exact hu

theorem canonical_staMemory {b : Nat} {w : MA} {m : OMap} {es : List (Nat × Nat)} {pats : List Nat} (hs : s.canonical) :
    (staMemory b w m es pats s).canonical :=
  canonical_writeUnits (fun _ ht => by split <;> exact ht) hs

theorem canonical_execMsta {w : MA} (hs : s.canonical) : Out.canonical (execMsta w s) := by
  unfold execMsta
  refine canonical_seqRun fun b _ _ => ?_
  refine canonical_alone hs fun _ => ?_
  dsimp only
  split
  · exact hs
  · split
    · exact hs
    · split
      · exact canonical_staMemory hs
      · split
        · exact hs
        · split
          · next e =>
            have hr := Res.canonical_of_eq e (canonical_tileRun (fun _ _ ht => canonical_sendAndWait ht)
              (fun _ _ ht => ht) hs)
            exact hr
          · exact canonical_tileRun (fun _ _ ht => canonical_sendAndWait ht) (fun _ _ ht => ht) hs
      · exact hs

theorem canonical_execMprdCnt {w : MP} (hs : s.canonical) : Out.canonical (execMprdCnt w s) :=
  canonical_seqRun fun _ _ _ => canonical_alone hs fun _ => hs
theorem canonical_execMprdQ {w : MP} (hs : s.canonical) : Out.canonical (execMprdQ w s) :=
  canonical_seqRun fun _ _ _ => canonical_alone hs fun _ => hs

theorem canonical_execMsclSet {w : MP} (hs : s.canonical) : Out.canonical (execMsclSet w s) := by
  unfold execMsclSet
  refine canonical_seqRun fun _ _ _ => ?_
  refine canonical_alone hs fun _ => ?_
  split
  · exact hs
  · split
    · exact hs
    · exact canonical_readMap (fun _ _ ht => ht) hs

theorem canonical_execMsclClr {w : MP} (hs : s.canonical) : Out.canonical (execMsclClr w s) :=
  canonical_seqRun fun _ _ _ => canonical_alone hs fun _ => hs
theorem canonical_execMnba (hs : s.canonical) : Out.canonical (execMnba s) :=
  canonical_seqRun fun _ _ _ => canonical_settled hs fun _ => hs

theorem canonical_execMnbw (hs : s.canonical) : Out.canonical (execMnbw s) := by
  unfold execMnbw
  refine canonical_seqRun fun _ _ _ => ?_
  refine canonical_alone hs fun _ => ?_
  dsimp only
  split
  · exact hs
  · exact canonical_takeCarried hs

theorem canonical_execMwaits (hs : s.canonical) : Out.canonical (execMwaits s) :=
  canonical_seqRun fun _ _ _ => canonical_alone hs fun _ => by split <;> exact hs
theorem canonical_execMloop (hs : s.canonical) : Out.canonical (execMloop s) :=
  canonical_seqRun fun _ _ _ => canonical_alone hs fun _ => by split <;> exact hs

theorem canonical_execMend (hs : s.canonical) : Out.canonical (execMend s) := by
  unfold execMend
  refine canonical_seqRun fun _ _ _ => ?_
  refine canonical_alone hs fun _ => ?_
  dsimp only
  split
  · exact hs
  · split <;> exact hs

theorem canonical_execMjmp (hs : s.canonical) : Out.canonical (execMjmp s) :=
  canonical_seqRun fun _ _ _ => canonical_alone hs fun _ => hs

theorem canonical_execMsafe (hs : s.canonical) : Out.canonical (execMsafe s) := by
  unfold execMsafe
  refine canonical_seqRun fun _ _ _ => ?_
  split
  · exact canonical_settled hs fun _ => hs
  · exact hs

theorem canonical_execMexit (hs : s.canonical) : Out.canonical (execMexit s) :=
  canonical_seqRun fun _ _ _ => canonical_settled hs fun _ => hs
theorem canonical_execMhint (hs : s.canonical) : Out.canonical (execMhint s) := canonical_seqRun fun _ _ _ => hs

theorem canonical_execFetcherDeliver (hs : s.canonical) : Out.canonical (execFetcherDeliver s) := by
  unfold execFetcherDeliver
  refine canonical_event hs fun _ ht => ?_
  refine all_bind fun _ => ?_
  split
  · exact canonical_drainNow (canonical_deliverSome ht)
  · rfl

theorem canonical_pendNow {b : Nat} (hs : s.canonical) : (pendNow s b).canonical := by
  unfold pendNow
  split
  · exact hs
  · split
    · split
      · exact canonical_raiseSeq hs
      · exact hs
    · exact hs

theorem canonical_execMatrixUnitComplete (hs : s.canonical) : Out.canonical (execMatrixUnitComplete s) := by
  unfold execMatrixUnitComplete
  refine canonical_event hs fun _ ht => ?_
  refine all_bind fun _ => ?_
  split
  · split
    · exact canonical_pendNow (canonical_drainNow ht)
    · rfl
  · rfl

/-! ## Snapshot regions -/

theorem canonical_startOp {slot : Nat} {g : Group} {f : Region → Region} (hs : s.canonical) :
    (startOp s c sl slot g f).canonical :=
  hs

theorem canonical_ownWait {slot : Nat} {g : Group} {r : Region} (hs : s.canonical) :
    (ownWait c sl slot g r s).canonical := by
  unfold ownWait
  split <;> split <;> exact hs

theorem canonical_inTurn {slot : Nat} {g : Group} {r : Region} {body : State → Res} (hs : s.canonical)
    (hbody : ∀ t, t.canonical → (body t).canonical) : (inTurn c sl slot g r s body).canonical := by
  unfold inTurn
  split
  · exact hs
  · exact hbody _ hs

theorem canonical_regionRun {a : BitVec 6} {g : Group} {body : State → Nat → Region → Res} (hs : s.canonical)
    (hbody : ∀ t x y, t.canonical → (body t x y).canonical) : (regionRun a c sl g s body).canonical := by
  unfold regionRun
  split
  · split <;> exact hs
  · split
    · exact canonical_ownWait hs
    · exact canonical_inTurn hs fun _ ht => hbody _ _ _ ht

theorem canonical_execSnap {a : BitVec 6} (hs : s.canonical) : Out.canonical (execSnap a s) := by
  unfold execSnap
  refine canonical_scalarRun (fun _ _ _ => ?_) hs
  refine canonical_regionRun hs fun _ _ _ ht => ?_
  dsimp only
  split
  · exact ht
  · split
    · exact canonical_flushL1 ht
    · split
      · exact canonical_flushL1 ht
      · split <;> exact canonical_flushL1 ht

theorem canonical_execSacc {a : BitVec 6} (hs : s.canonical) : Out.canonical (execSacc a s) := by
  unfold execSacc
  refine canonical_scalarRun (fun _ _ _ => ?_) hs
  refine canonical_regionRun hs fun _ _ _ ht => ?_
  split
  · exact ht
  · split
    · exact ht
    · exact canonical_startOp ht

theorem canonical_execSrej {a : BitVec 6} {o : BitVec 5} (hs : s.canonical) : Out.canonical (execSrej a o s) := by
  unfold execSrej
  refine canonical_scalarRun (fun _ _ _ => ?_) hs
  refine canonical_regionRun hs fun _ _ _ ht => ?_
  split
  · exact ht
  · split
    · exact ht
    · split
      · next e => exact Rel.canonical_of_eq e (canonical_releaseSteps ht)
      · next e => exact Rel.canonical_of_eq e (canonical_releaseSteps ht)
      · next e => exact canonical_startOp (Rel.canonical_of_eq e (canonical_releaseSteps ht))

theorem canonical_execSsweep {a : BitVec 6} (hs : s.canonical) : Out.canonical (execSsweep a s) := by
  unfold execSsweep
  refine canonical_scalarRun (fun _ _ _ => ?_) hs
  refine canonical_regionRun hs fun _ _ _ ht => ?_
  split
  · exact ht
  · exact canonical_startOp ht

theorem canonical_execSqry {d a : BitVec 6} (hs : s.canonical) : Out.canonical (execSqry d a s) :=
  canonical_scalarRun (fun _ _ _ => hs) hs

theorem canonical_defineRegion {g : Group} {sg base lines pent pool : Nat} (hs : s.canonical) :
    (defineRegion s c sl g sg base lines pent pool).canonical := by
  unfold defineRegion
  dsimp only
  split
  · exact hs
  · split
    · split
      · exact hs
      · exact canonical_startOp hs
    · exact hs

theorem canonical_growRegion {g : Group} {slot : Nat} {r : Region} {pent pool : Nat} (hs : s.canonical) :
    (growRegion s c sl g slot r pent pool).canonical := by
  unfold growRegion
  dsimp only
  split
  · exact hs
  · split
    · split <;> exact hs
    · split
      · exact hs
      · exact canonical_startOp hs

theorem canonical_execSnapdef {a b : BitVec 6} (hs : s.canonical) : Out.canonical (execSnapdef a b s) := by
  unfold execSnapdef
  refine canonical_scalarRun (fun _ _ _ => ?_) hs
  dsimp only
  split
  · split
    · exact hs
    · exact canonical_ownWait hs
  · split
    · next e =>
      refine Rec.canonical_of_eq e ?_
      split
      · exact hs
      · exact canonical_readRecord hs
    · next t _ e =>
      have ht : t.canonical := by
        refine Rec.canonical_of_eq e ?_
        split
        · exact hs
        · exact canonical_readRecord hs
      split
      · exact ht
      · split
        · split
          · exact ht
          · split
            · exact ht
            · exact canonical_defineRegion ht
        · refine canonical_inTurn ht fun _ hu => ?_
          split
          · split
            · exact hu
            · exact canonical_growRegion hu
          · split
            · exact hu
            · split <;> exact hu

/-! ## Fetches -/

theorem canonical_fetchCode {f : Fetcher} {va n : Nat} (hs : s.canonical) : (fetchCode f va n s).canonical := by
  unfold fetchCode
  dsimp only
  split
  · exact hs
  · split
    · exact canonical_offer hs
    · split
      · exact canonical_askLanes (canonical_keepLeaves hs)
      · exact canonical_askLanes (canonical_keepLeaves hs)
      · exact canonical_askLanes (canonical_keepLeaves hs)
      · split
        · exact canonical_askLanes (canonical_keepLeaves hs)
        · exact canonical_countErrs (canonical_askLanes (canonical_keepLeaves hs))

theorem canonical_fetchScalar {f : Fetcher} {pc : W64} (hs : s.canonical) : (fetchScalar f pc s).canonical := by
  unfold fetchScalar
  dsimp only
  split
  · exact hs
  · split
    · next e => exact Rec.canonical_of_eq e (canonical_fetchCode hs)
    · next e =>
      have ht := Rec.canonical_of_eq e (canonical_fetchCode hs)
      split
      · split
        · next e2 => exact Rec.canonical_of_eq e2 (canonical_fetchCode ht)
        · next e2 => exact Rec.canonical_of_eq e2 (canonical_fetchCode ht)
      · exact ht

theorem canonical_fetchLane {f : Fetcher} {vregs : Nat} {pc : W32} (hs : s.canonical) :
    (fetchLane f vregs pc s).canonical := by
  unfold fetchLane
  split <;> next e => exact Rec.canonical_of_eq e (canonical_fetchCode hs)

theorem canonical_fetchMatrix {bkey pc : Nat} (hs : s.canonical) : (fetchMatrix bkey pc s).canonical := by
  unfold fetchMatrix
  dsimp only
  split <;> next e => exact Rec.canonical_of_eq e (canonical_fetchCode hs)

/-! ## Saves and restores of a block -/

theorem canonical_saveNow {o : SaveOp} {n : Nbhd} (hs : s.canonical) : (saveNow s o n).canonical :=
  canonical_putOwn (canonical_foldl (canonical_foldl (canonical_foldl hs fun _ _ ht => canonical_flushL1 ht)
    fun _ _ ht => ht) fun _ _ ht => canonical_ite ht ht)

theorem canonical_restoreBlock {v : Saved} {x : (Nat × Block) × Nat × List Nat} (hs : s.canonical) :
    (restoreBlock v s x).canonical := by
  unfold restoreBlock
  refine canonical_ite ?_ ?_ <;>
    exact canonical_foldl (canonical_foldl (canonical_writeSpadBytes (canonical_clearAlloc (canonical_takeBase hs)))
      fun _ _ ht => ht) fun _ _ ht => ht

theorem canonical_restoreNow {v : Saved} {anchor : Nat} {cores : List (Nat × List Nat)} (hs : s.canonical) :
    (restoreNow s v anchor cores).canonical := by
  unfold restoreNow
  refine canonical_foldl ?_ (fun _ _ ht => canonical_purgePartition (canonical_purgeL1 ht))
  refine canonical_foldl hs fun _ _ ht => ?_
  split
  · exact canonical_restoreBlock ht
  · exact ht

theorem canonical_restoreArea {part area : Nat} {t : Stage} {anchor : Nat} {cores : List (Nat × List Nat)}
    (hs : s.canonical) : (restoreArea s part area t anchor cores).2.canonical := by
  unfold restoreArea
  split <;> exact canonical_restoreNow hs

/-! ## System words -/

theorem canonical_execTrap {a : BitVec 6} {k : BitVec 5} (hs : s.canonical) : Out.canonical (execTrap a k s) :=
  canonical_scalarRun (fun _ _ _ => hs) hs

theorem canonical_rftRun {skip : Bool} (hs : s.canonical) : Out.canonical (rftRun skip s) := by
  unfold rftRun
  refine canonical_scalarRun (fun _ _ _ => ?_) hs
  split
  · exact hs
  · split
    · exact hs
    · exact canonical_settleLanes (canonical_returnTrap hs)

theorem canonical_execRft (hs : s.canonical) : Out.canonical (execRft s) := canonical_rftRun hs
theorem canonical_execRftSkip (hs : s.canonical) : Out.canonical (execRftSkip s) := canonical_rftRun hs

theorem canonical_seedWrite {v : Nat} (hs : s.canonical) : (seedWrite s c sl v).canonical := by
  unfold seedWrite
  split <;> exact hs

theorem canonical_rlwaysWrite {die v : Nat} (hs : s.canonical) : (rlwaysWrite s die v).canonical :=
  canonical_foldl hs fun _ _ ht => canonical_dropRemote ht

theorem canonical_sysWrite {g : Group} {n : Nat} {v : W64} (hs : s.canonical) : (sysWrite s c sl g n v).canonical := by
  unfold sysWrite
  split
  · exact hs
  · exact hs
  · exact hs
  · exact hs
  · exact hs
  · exact canonical_seedWrite hs
  · exact hs
  · exact hs
  · exact hs
  · exact hs
  · exact canonical_rlwaysWrite hs
  · exact hs
  · exact hs
  · split <;> exact hs

theorem canonical_execSysr {d : BitVec 6} {n : BitVec 11} (hs : s.canonical) : Out.canonical (execSysr d n s) :=
  canonical_scalarRun (fun _ _ _ => by split <;> exact hs) hs

theorem canonical_execSysw {a : BitVec 6} {n : BitVec 11} (hs : s.canonical) : Out.canonical (execSysw a n s) := by
  unfold execSysw
  refine canonical_scalarRun (fun _ _ _ => ?_) hs
  dsimp only
  split
  · exact hs
  · split
    · exact hs
    · split <;> exact canonical_sysWrite hs

theorem canonical_execPreq {d a b : BitVec 6} (hs : s.canonical) : Out.canonical (execPreq d a b s) := by
  unfold execPreq
  refine canonical_scalarRun (fun _ _ _ => ?_) hs
  split
  · split <;> exact hs
  · split
    · exact hs
    · split
      · exact hs
      · split
        · exact hs
        · split <;> exact hs

theorem canonical_execPreqRst {d a b : BitVec 6} (hs : s.canonical) : Out.canonical (execPreqRst d a b s) := by
  unfold execPreqRst
  refine canonical_scalarRun (fun _ _ _ => ?_) hs
  dsimp only
  split
  · split <;> exact hs
  · split
    · exact hs
    · split
      · exact hs
      · split
        · exact hs
        · exact canonical_restoreArea hs

theorem canonical_execHalt {d a : BitVec 6} (hs : s.canonical) : Out.canonical (execHalt d a s) := by
  unfold execHalt
  refine canonical_scalarRun (fun _ _ _ => ?_) hs
  split
  · exact hs
  · split
    · exact hs
    · exact canonical_removeNb hs

/-! ## Ends of waits, faults and fills -/

theorem canonical_unpark {x0 : StreamId} (hs : s.canonical) : (unpark s x0).canonical := by
  unfold unpark
  split
  · exact hs
  · exact canonical_settleLanes hs
  · exact hs

theorem canonical_settlePlaces (hs : s.canonical) : (settlePlaces s).canonical := by
  unfold settlePlaces
  split <;> exact hs

theorem canonical_resumeIf {f : WaitCond → Bool} (hs : s.canonical) : (resumeIf f s).all State.canonical := by
  unfold resumeIf
  split
  · split
    · exact canonical_unpark hs
    · rfl
  · rfl

theorem canonical_execParkResume (hs : s.canonical) : Out.canonical (execParkResume s) :=
  canonical_event hs fun _ ht => canonical_resumeIf ht
theorem canonical_execRequestTableGrant (hs : s.canonical) : Out.canonical (execRequestTableGrant s) :=
  canonical_event hs fun _ ht => canonical_resumeIf ht

theorem canonical_execWaitlistResend (hs : s.canonical) : Out.canonical (execWaitlistResend s) := by
  unfold execWaitlistResend
  refine canonical_event hs fun _ ht => ?_
  split
  · split
    · exact canonical_unpark ht
    · rfl
  · rfl

theorem canonical_execProducerWrite (hs : s.canonical) : Out.canonical (execProducerWrite s) :=
  canonical_event hs fun _ ht => all_bind fun _ => all_map fun _ => ht

theorem canonical_execLaneBlockStart (hs : s.canonical) : Out.canonical (execLaneBlockStart s) := by
  unfold execLaneBlockStart
  refine canonical_event hs fun _ ht => ?_
  refine all_bind fun _ => ?_
  split
  · exact ht
  · rfl

theorem canonical_unheldAt {id : Nat} {st : StreamId} (hs : s.canonical) : (unheldAt s id st).canonical := by
  unfold unheldAt
  split <;> exact hs

theorem canonical_unheld {id : Nat} {st : StreamId} (hs : s.canonical) : (unheld s id st).canonical := by
  unfold unheld
  split
  · exact hs
  · split
    · exact canonical_settleLanes (canonical_unheldAt hs)
    · exact canonical_unheldAt hs

theorem canonical_execFaultResolved (hs : s.canonical) : Out.canonical (execFaultResolved s) := by
  unfold execFaultResolved
  refine canonical_event hs fun _ ht => ?_
  refine all_map fun _ => ?_
  split
  · exact canonical_raiseVector ht
  · split
    · exact ht
    · split <;> exact ht
    · exact ht
    · exact canonical_unheld ht

theorem canonical_fatalTrap {f : Nat × FaultRec} (hs : s.canonical) : (fatalTrap s f).canonical := by
  unfold fatalTrap
  split
  · exact canonical_raise (canonical_unheldAt hs)
  · exact canonical_raise (canonical_unheldAt hs)
  · exact canonical_stopSeq (canonical_unheldAt hs)

theorem canonical_execFaultFatal (hs : s.canonical) : Out.canonical (execFaultFatal s) := by
  unfold execFaultFatal
  refine canonical_event hs fun _ ht => ?_
  refine all_bind fun _ => ?_
  dsimp only
  split
  · exact canonical_ite (canonical_logError ht) ht
  · split
    · exact canonical_drainNow (canonical_ite (canonical_logError ht) ht)
    · split
      · exact canonical_logError ht
      · exact ht
  · rfl
  · refine canonical_fatalTrap ?_
    split
    · exact canonical_logError ht
    · exact ht

theorem canonical_execMaskedWriteback (hs : s.canonical) : Out.canonical (execMaskedWriteback s) := by
  unfold execMaskedWriteback
  refine canonical_event hs fun _ ht => ?_
  refine all_map fun _ => ?_
  split
  · exact canonical_invalidateLine ht
  · exact canonical_writeBack ht

theorem canonical_failLoads {bad : Load → Option TrapInfo} (hs : s.canonical) : (failLoads s c bad).canonical :=
  canonical_foldl (canonical_foldl hs fun _ _ ht => ht) fun _ _ ht => canonical_raise ht
theorem canonical_settleBad (hs : s.canonical) : (settleBad s).canonical :=
  canonical_foldl hs fun _ _ ht => canonical_ite (canonical_failLoads ht) ht

theorem canonical_pendFailed {tag : Nat} (hs : s.canonical) : (pendFailed c sl s tag).canonical := by
  unfold pendFailed
  dsimp only
  split
  · exact hs
  · split <;> exact hs

theorem canonical_settleFailed (hs : s.canonical) : (settleFailed s).canonical :=
  canonical_foldl hs fun _ _ ht => canonical_ite (canonical_foldl ht fun _ _ hu => canonical_pendFailed hu) ht
theorem canonical_fillLine {line : Nat} {byte : Nat → Byte} (hs : s.canonical) : (fillLine s c line byte).canonical :=
  canonical_ite hs (canonical_roomL1 hs)

theorem canonical_execFillReturn (hs : s.canonical) : Out.canonical (execFillReturn s) := by
  unfold execFillReturn
  refine canonical_event hs fun _ ht => ?_
  refine all_bind fun _ => ?_
  dsimp only
  split
  · split
    · rfl
    · exact canonical_joinPlace ht
  · refine all_map fun _ => ?_
    split
    · refine canonical_feedLoads ?_
      split
      · exact canonical_countErrs (canonical_leavePlaces ht)
      · exact canonical_fillLine (canonical_countErrs (canonical_leavePlaces ht))
    · split
      · refine canonical_feedLoads ?_
        split
        · exact canonical_leavePlaces ht
        · exact canonical_fillLine (canonical_leavePlaces ht)
      · exact canonical_failLoads (canonical_leavePlaces ht)

theorem canonical_execRemoteLineAgeExpiry (hs : s.canonical) : Out.canonical (execRemoteLineAgeExpiry s) := by
  unfold execRemoteLineAgeExpiry
  refine canonical_event hs fun _ ht => ?_
  refine all_bind fun _ => ?_
  split
  · exact canonical_dropRemote ht
  · split
    · exact canonical_sendLine ht
    · rfl

theorem canonical_trimSlice {die : Nat} {slice : Nat} (hs : s.canonical) : (trimSlice die s slice).canonical :=
  canonical_foldl hs fun _ _ ht => canonical_dropRemote ht

theorem canonical_trimPartition {die : Nat} (hs : s.canonical) : (trimPartition die s).canonical := by
  unfold trimPartition
  split
  · exact hs
  · exact canonical_foldl hs fun _ _ ht => canonical_trimSlice ht

theorem canonical_trimL2 {die : Nat} (hs : s.canonical) : (trimL2 die s).canonical :=
  canonical_ite hs (canonical_foldl hs fun _ _ ht => canonical_foldl ht fun _ _ hu => hu)
theorem canonical_trimCaches (hs : s.canonical) : (trimCaches s).canonical :=
  canonical_foldl hs fun _ _ ht => canonical_trimL2 (canonical_trimPartition ht)
theorem canonical_execSrseedWrite (hs : s.canonical) : Out.canonical (execSrseedWrite s) :=
  canonical_event hs fun _ ht => all_map fun _ => canonical_seedWrite ht
theorem canonical_execRlwaysWrite (hs : s.canonical) : Out.canonical (execRlwaysWrite s) :=
  canonical_event hs fun _ ht => all_map fun _ => canonical_rlwaysWrite ht

/-! ## The copy engines -/

theorem canonical_leaveEngine {x : Copy} (hs : s.canonical) : (leaveEngine s c x).canonical := canonical_leaveQueue hs

theorem canonical_execCopyStart (hs : s.canonical) : Out.canonical (execCopyStart s) := by
  unfold execCopyStart
  refine canonical_event hs fun _ ht => ?_
  refine all_bind fun _ => ?_
  dsimp only
  split
  · rfl
  · split
    · split
      · split
        · exact ht
        · split
          · exact ht
          · rfl
      · rfl
    · exact ht

theorem canonical_updCopy {id : Nat} {f : Copy → Copy} (hs : s.canonical) : (updCopy s c id f).canonical := hs
theorem canonical_copyFault {x : Copy} {k : Access} {f : XFault} {va : Nat} (hs : s.canonical) :
    (copyFault s c x k f va).canonical :=
  canonical_updCopy (canonical_setFaults (canonical_offer hs))

theorem canonical_postCopy {x : Copy} {hops : List Hop} {y : Nat × List (Nat × Byte)} (hs : s.canonical) :
    (postCopy c x hops s y).canonical := by
  unfold postCopy
  split <;> exact hs

theorem canonical_engineWrite {x : Copy} {hops : List Hop} {bs : List Byte} (hs : s.canonical) :
    (engineWrite s c x hops bs).canonical := by
  have hp {l : List (Nat × List (Nat × Byte))} : (l.foldl (fun t y => dropPeerLine t c y.1 (farAddr y)) s).canonical :=
    canonical_foldl hs fun _ _ ht => canonical_dropPeerLine ht
  unfold engineWrite
  dsimp only
  split
  · exact hs
  · split
    · exact hp
    · split
      · exact hp
      · split
        · exact canonical_dropLines (canonical_leaveEngine hp)
        · split
          · next e => exact canonical_exhaust (canonical_homed_of_eq e (canonical_leaveEngine hp))
          · next e => exact canonical_joinPlace (canonical_homed_of_eq e (canonical_leaveEngine hp))
          · next e => exact canonical_homed_of_eq e (canonical_leaveEngine hp)
          · next e =>
            have ht := canonical_homed_of_eq e (canonical_leaveEngine hp)
            exact canonical_foldl (canonical_writeChip
              (canonical_writeSpad (canonical_toHost (canonical_addLines (canonical_leavePlaces ht)))))
              fun _ _ hu => canonical_postCopy hu

theorem canonical_engineRead {x : Copy} {va n ahead : Nat} (hs : s.canonical) : (engineRead s c x va n ahead).canonical := by
  unfold engineRead
  dsimp only
  split
  · exact canonical_copyFault hs
  · split
    · next e => exact canonical_waitAt (Ready.canonical_of_eq e (canonical_readyAll (canonical_keepLeaves hs)))
    · next e => exact Ready.canonical_of_eq e (canonical_readyAll (canonical_keepLeaves hs))
    · next e => exact canonical_leavePlaces (Ready.canonical_of_eq e (canonical_readyAll (canonical_keepLeaves hs)))

theorem canonical_getSegment {x : Copy} {n : Nat} (hs : s.canonical) : (getSegment s c x n).canonical := by
  unfold getSegment
  dsimp only
  split
  · exact hs
  · split
    · split
      · exact hs
      · exact canonical_leaveEngine hs
    · split
      · exact hs
      · split <;> exact hs

theorem canonical_unitBytes {x : Copy} {n : Nat} (hs : s.canonical) : (unitBytes s c x n).canonical := by
  unfold unitBytes
  split
  · exact hs
  · exact canonical_getSegment hs
  · exact canonical_engineRead hs

theorem canonical_putSegment {x : Copy} {bs : List Byte} (hs : s.canonical) : (putSegment s c x bs).canonical := hs
theorem canonical_gatherRow {x : Copy} (hs : s.canonical) : (gatherRow s c x).canonical := canonical_engineRead hs

theorem canonical_moveUnit {x : Copy} (hs : s.canonical) : (moveUnit s c x).canonical := by
  have hb : (unitBytes s c x (x.unit s)).canonical := canonical_unitBytes hs
  unfold moveUnit
  dsimp only
  split
  · next e => exact UnitGot.canonical_of_eq e hb
  · next e => exact UnitGot.canonical_of_eq e hb
  · next e => exact UnitGot.canonical_of_eq e hb
  · next e =>
    have ht := UnitGot.canonical_of_eq e hb
    split
    · exact canonical_copyFault hs
    · split
      · exact ht
      · split
        · exact ht
        · exact canonical_updCopy (canonical_putSegment (canonical_leaveEngine ht))
      · split
        · next e => exact canonical_updCopy (Wrote.canonical_of_eq e (canonical_engineWrite (canonical_keepLeaves ht)))
        · next e => exact Wrote.canonical_of_eq e (canonical_engineWrite (canonical_keepLeaves ht))
        · next e => exact canonical_updCopy (Wrote.canonical_of_eq e (canonical_engineWrite (canonical_keepLeaves ht)))

theorem canonical_execCopyUnitWrite (hs : s.canonical) : Out.canonical (execCopyUnitWrite s) := by
  unfold execCopyUnitWrite
  refine canonical_event hs fun _ ht => ?_
  refine all_bind fun _ => ?_
  dsimp only
  split
  · rfl
  · split
    · split
      · next e => exact UnitGot.canonical_of_eq e (canonical_gatherRow ht)
      · next e => exact UnitGot.canonical_of_eq e (canonical_gatherRow ht)
      · next e => exact UnitGot.canonical_of_eq e (canonical_gatherRow ht)
      · next e =>
        have hu := UnitGot.canonical_of_eq e (canonical_gatherRow ht)
        split
        · exact hu
        · exact canonical_moveUnit hu
    · exact canonical_moveUnit ht

theorem canonical_execCopyComplete (hs : s.canonical) : Out.canonical (execCopyComplete s) := by
  unfold execCopyComplete
  refine canonical_event hs fun _ ht => ?_
  refine all_bind fun _ => ?_
  split
  · rfl
  · split <;> exact ht

/-! ## The home of a tile -/

theorem canonical_execTileOpAccept (hs : s.canonical) : Out.canonical (execTileOpAccept s) := by
  unfold execTileOpAccept
  refine canonical_event hs fun _ ht => ?_
  refine all_bind fun _ => ?_
  dsimp only
  split
  · rfl
  · exact canonical_judged ht

theorem canonical_execTileDefined (hs : s.canonical) : Out.canonical (execTileDefined s) := by
  unfold execTileDefined
  refine canonical_event hs fun _ ht => ?_
  refine all_bind fun _ => ?_
  dsimp only
  split
  · rfl
  · split
    · exact canonical_changeName ht
    · refine all_bind fun _ => ?_
      split
      · exact canonical_changeName ht
      · rfl

theorem canonical_execTileDefineFail (hs : s.canonical) : Out.canonical (execTileDefineFail s) := by
  unfold execTileDefineFail
  refine canonical_event hs fun _ ht => ?_
  refine all_bind fun _ => ?_
  split
  · rfl
  · refine all_bind fun _ => ?_
    split
    · exact canonical_changeName ht
    · rfl

theorem canonical_execTileReadComplete (hs : s.canonical) : Out.canonical (execTileReadComplete s) := by
  unfold execTileReadComplete
  refine canonical_event hs fun _ ht => ?_
  refine all_bind fun _ => ?_
  split
  · exact ht
  · rfl

theorem canonical_execTileKillEffect (hs : s.canonical) : Out.canonical (execTileKillEffect s) := by
  unfold execTileKillEffect
  refine canonical_event hs fun _ ht => ?_
  refine all_bind fun _ => ?_
  split
  · exact canonical_killName ht
  · rfl

theorem canonical_execTilePlacementMove (hs : s.canonical) : Out.canonical (execTilePlacementMove s) := by
  unfold execTilePlacementMove
  refine canonical_event hs fun _ ht => all_bind fun _ => ?_
  dsimp only
  split
  all_goals
    split
    · exact ht
    · rfl

theorem canonical_countStuck {d : Nat} {x : Nat × Nbhd} (hs : s.canonical) : (countStuck d s x).canonical := by
  unfold countStuck
  dsimp only
  split
  · exact hs
  · split <;> split <;> exact hs

theorem canonical_stuckClocks {d : Nat} (hs : s.canonical) : (stuckClocks s d).canonical :=
  canonical_foldl hs fun _ _ ht => canonical_countStuck ht

theorem canonical_execTileDeadlock (hs : s.canonical) : Out.canonical (execTileDeadlock s) := by
  unfold execTileDeadlock
  refine canonical_event hs fun _ ht => ?_
  refine all_bind fun _ => ?_
  split
  · exact canonical_judged ht
  · rfl

/-! ## Links -/

theorem canonical_passOn {p : Packet} (hs : s.canonical) : (passOn s p).canonical := by
  unfold passOn
  split <;> exact hs

theorem canonical_routeRequest {r : Request} (hs : s.canonical) : (routeRequest s r).canonical := by
  unfold routeRequest
  split
  · exact hs
  · split <;> exact hs

theorem canonical_routeAnswer {r : State × List Answer} {a : Answer} (hr : r.1.canonical) :
    (routeAnswer r a).1.canonical := by
  unfold routeAnswer
  dsimp only
  split
  · exact hr
  · exact canonical_foldl hr fun _ _ ht => by split <;> exact ht

theorem canonical_moveStranded {x : Nat × Link} (hs : s.canonical) : (moveStranded s x).canonical :=
  canonical_ite hs (canonical_foldl hs fun _ _ ht => canonical_passOn ht)
theorem canonical_routeAll (hs : s.canonical) : (routeAll s).canonical :=
  canonical_foldl (canonical_foldl_fst (canonical_foldl hs fun _ _ ht => canonical_routeRequest ht)
    fun _ _ ht => canonical_routeAnswer ht) fun _ _ ht => canonical_moveStranded ht

theorem canonical_egress {port : Nat} (hs : s.canonical) : (egress s port).canonical := by
  unfold egress
  dsimp only
  split
  · exact hs
  · split
    · exact hs
    · split
      · exact hs
      · split <;> split <;> exact hs

/-! ## Runs and records that arrive -/

theorem canonical_runAdmitted {x : Run} (hs : s.canonical) : (runAdmitted s x).canonical := by
  unfold runAdmitted
  split <;> exact hs

theorem canonical_execRunAppend (hs : s.canonical) : Out.canonical (execRunAppend s) := by
  unfold execRunAppend
  refine canonical_event hs fun _ ht => ?_
  refine all_bind fun _ => ?_
  split
  · exact all_map_state (canonical_admitRun ht) fun _ hu => canonical_runAdmitted hu
  · rfl

theorem canonical_countRecord {part q : Nat} {f : Graph → Graph} (hs : s.canonical) :
    (countRecord s part q f).canonical := by
  unfold countRecord
  split <;> exact hs

theorem canonical_execRemoteRecordArrival (hs : s.canonical) : Out.canonical (execRemoteRecordArrival s) := by
  unfold execRemoteRecordArrival
  refine canonical_event hs fun _ ht => ?_
  refine all_bind fun _ => ?_
  split
  · rfl
  · split
    · next e =>
      have hu := canonical_of_eq_some e (canonical_appendRun ht)
      refine (canonical_countRecord ?_)
      split
      · exact hu
      · exact hu
    · exact ht

theorem canonical_execRefillMove (hs : s.canonical) : Out.canonical (execRefillMove s) := by
  unfold execRefillMove
  refine canonical_event hs fun _ ht => ?_
  refine all_bind fun _ => ?_
  refine all_bind fun _ => ?_
  dsimp only
  split
  · rfl
  · split
    · exact canonical_putBy (canonical_putHdr (canonical_putRecord ht))
    · rfl

theorem canonical_execPortForward (hs : s.canonical) : Out.canonical (execPortForward s) := by
  unfold execPortForward
  refine canonical_event hs fun _ ht => ?_
  refine all_bind fun _ => ?_
  dsimp only
  split
  · rfl
  · refine all_bind fun _ => ?_
    split
    · rfl
    · exact canonical_countRecord ht

theorem canonical_onDies {part : Nat} {f : Die → Die} (hs : s.canonical) : (onDies s part f).canonical :=
  canonical_foldl hs fun _ _ ht => ht
theorem canonical_execSummarySend (hs : s.canonical) : Out.canonical (execSummarySend s) :=
  canonical_event hs fun _ ht => all_map fun _ => canonical_onDies ht
theorem canonical_takeSummary {m : SummaryMsg} (hs : s.canonical) : (takeSummary s m).canonical := canonical_onDies hs

theorem canonical_takeReport {part kind i dev bits : Nat} (hs : s.canonical) :
    (takeReport s part kind i dev bits).canonical :=
  canonical_onDies hs

theorem canonical_podArrival {part id : Nat} (hs : s.canonical) : (podArrival s part id).all State.canonical := by
  unfold podArrival
  dsimp only
  split
  · rfl
  · exact canonical_barArrive hs

theorem canonical_execSummaryReceive (hs : s.canonical) : Out.canonical (execSummaryReceive s) := by
  unfold execSummaryReceive
  refine canonical_event hs fun _ ht => ?_
  dsimp only
  split
  · refine all_bind fun _ => ?_
    split
    · rfl
    · exact canonical_takeSummary ht
  · exact canonical_takeReport ht
  · exact canonical_podArrival ht
  · exact canonical_takeReport ht

/-! ## The fabric -/

theorem canonical_onLink {f : Link → Option Link} (hs : s.canonical) : (onLink f s).all State.canonical := by
  unfold onLink
  refine all_bind fun _ => ?_
  split
  · exact all_map fun _ => hs
  · rfl

theorem canonical_execXoff (hs : s.canonical) : Out.canonical (execXoff s) :=
  canonical_event hs fun _ ht => canonical_onLink ht
theorem canonical_execXon (hs : s.canonical) : Out.canonical (execXon s) :=
  canonical_event hs fun _ ht => canonical_onLink ht
theorem canonical_execPortXoff (hs : s.canonical) : Out.canonical (execPortXoff s) :=
  canonical_event hs fun _ ht => canonical_onLink ht

theorem canonical_execProgressTimerExpiry (hs : s.canonical) : Out.canonical (execProgressTimerExpiry s) := by
  unfold execProgressTimerExpiry
  refine canonical_event hs fun _ ht => ?_
  refine all_bind fun _ => ?_
  split
  · rfl
  · split
    · rfl
    · exact ht

theorem canonical_linkDown {port : Nat} {l : Link} (hs : s.canonical) : (linkDown s port l).canonical :=
  canonical_foldl hs fun _ _ ht => canonical_logError ht

theorem canonical_execFlitReceive (hs : s.canonical) : Out.canonical (execFlitReceive s) := by
  unfold execFlitReceive
  refine canonical_event hs fun _ ht => ?_
  refine all_bind fun _ => ?_
  dsimp only
  split
  · rfl
  · split
    · split
      · exact canonical_linkDown ht
      · exact ht
    · split
      · exact ht
      · split
        · exact ht
        · exact canonical_passOn ht

theorem canonical_execEscapeTreeRebuild (hs : s.canonical) : Out.canonical (execEscapeTreeRebuild s) :=
  canonical_event hs fun _ ht => ht

theorem canonical_refuse {part : Nat} {r : RemoteReq} {write : Bool} (hs : s.canonical) :
    (refuse s part r write).canonical :=
  canonical_logError hs

theorem canonical_peerWaits {dev tag k : Nat} (hs : s.canonical) : (peerWaits s dev tag k).all State.canonical := by
  unfold peerWaits
  split
  · rfl
  · exact canonical_joinPlace hs

theorem canonical_toldPeer {part dev tag vc pa : Nat} {r : WRes} {good : State → State} (hs : s.canonical) (hr : r.canonical)
    (hgood : ∀ t, t.canonical → (good t).canonical) : (toldPeer s part dev tag vc pa r good).all State.canonical := by
  unfold toldPeer
  split
  · exact hgood _ (canonical_leavePlaces hr)
  · exact canonical_exhaust (canonical_leavePlaces hr)
  · exact canonical_logError hs
  · exact canonical_peerWaits hr

theorem canonical_peerWrite {part dev tag vc : Nat} {l : List (Nat × Byte)} {good : State → State} (hs : s.canonical)
    (hgood : ∀ t, t.canonical → (good t).canonical) : (peerWrite s part dev tag vc l good).all State.canonical :=
  canonical_toldPeer hs (canonical_homeAll hs) fun _ ht => hgood _ ht

theorem canonical_peerRead {dev tag vc : Nat} {pas : List Nat} {good : State → Option State} (hs : s.canonical)
    (hgood : ∀ t, t.canonical → (good t).all State.canonical) : (peerRead s dev tag vc pas good).all State.canonical := by
  unfold peerRead
  dsimp only
  split
  · exact canonical_peerWaits hs
  · split
    · exact canonical_leavePlaces hs
    · exact hgood _ (canonical_countErrs (canonical_leavePlaces hs))

theorem canonical_peerAtom {part dev tag vc pa : Nat} {a : Acc} {good : State → List Byte → State} (hs : s.canonical)
    (hgood : ∀ t x, t.canonical → (good t x).canonical) : (peerAtom s part dev tag vc pa a good).all State.canonical :=
  canonical_peerRead hs fun _ ht => canonical_toldPeer ht (canonical_homeAt ht) fun _ hu => hgood _ _ hu

/-- Both states of a forwarding slot: the one that answers a refusal, and the one that the access goes on from. -/
theorem canonical_forwardSlot {pa dev tag vc : Nat} (hs : s.canonical) :
    (forwardSlot s pa dev tag vc).1.all State.canonical ∧ (forwardSlot s pa dev tag vc).2.canonical := by
  unfold forwardSlot
  dsimp only
  split
  · exact ⟨rfl, hs⟩
  · split
    · exact ⟨rfl, hs⟩
    · exact ⟨hs, hs⟩

theorem canonical_withSlot {pa dev tag vc : Nat} {f : State → Option State} (hs : s.canonical)
    (hf : ∀ t, t.canonical → (f t).all State.canonical) : (withSlot s pa dev tag vc f).all State.canonical := by
  obtain ⟨hrefused, hgoes⟩ := canonical_forwardSlot (pa := pa) (dev := dev) (tag := tag) (vc := vc) hs
  unfold withSlot
  split
  · next e => rw [e] at hrefused; exact hrefused
  · next e => rw [e] at hgoes; exact hf _ hgoes

theorem canonical_remoteTile {r : RemoteReq} (hs : s.canonical) : (remoteTile s r).all State.canonical := by
  unfold remoteTile
  split
  · split <;> exact hs
  · split
    · rfl
    · exact canonical_answerPeers hs

theorem canonical_execRemoteLoadRequest (hs : s.canonical) : Out.canonical (execRemoteLoadRequest s) := by
  unfold execRemoteLoadRequest
  refine canonical_event hs fun _ ht => ?_
  dsimp only
  split
  · exact canonical_remoteTile ht
  · split
    · exact canonical_refuse ht
    · exact canonical_withSlot ht fun _ hu => canonical_peerRead hu fun _ hv => hv

theorem canonical_execRemoteStoreArrival (hs : s.canonical) : Out.canonical (execRemoteStoreArrival s) := by
  unfold execRemoteStoreArrival
  refine canonical_event hs fun _ ht => ?_
  dsimp only
  split
  · exact canonical_refuse ht
  · split
    · exact canonical_logError ht
    · exact canonical_withSlot ht fun _ hu => canonical_peerWrite hu fun _ hv => canonical_ite hv hv

theorem canonical_execRemoteAtomicRequest (hs : s.canonical) : Out.canonical (execRemoteAtomicRequest s) := by
  unfold execRemoteAtomicRequest
  refine canonical_event hs fun _ ht => ?_
  dsimp only
  split
  · exact canonical_refuse ht
  · exact canonical_withSlot ht fun _ hu => canonical_peerAtom hu fun _ _ hv => canonical_ite hv hv

theorem canonical_segRun {g : RmaSegment} {part : Nat} {pas : List Nat} {good : State → State} (hs : s.canonical)
    (hgood : ∀ t, t.canonical → (good t).canonical) : (segRun s g part pas good).all State.canonical := by
  unfold segRun
  split
  · exact canonical_peerWrite hs fun _ ht => hgood _ ht
  · exact canonical_peerRead hs fun _ ht => ht
  · exact canonical_peerAtom hs fun _ _ ht => ht

theorem canonical_segmentArrival {g : RmaSegment} {sound : Bool} (hs : s.canonical) :
    (segmentArrival s g sound).all State.canonical := by
  unfold segmentArrival
  dsimp only
  split
  · exact hs
  · rfl
  · split
    · split
      · exact hs
      · split
        · exact hs
        · split
          · exact hs
          · exact hs
          · split
            · exact canonical_logError hs
            · split
              · exact canonical_logError hs
              · exact canonical_withSlot hs fun _ ht => canonical_segRun ht fun _ hu => hu
    · split
      · exact canonical_logError hs
      · exact canonical_withSlot hs fun _ ht => canonical_segRun ht fun _ hu => hu

theorem canonical_execRmaSegmentArrival (hs : s.canonical) : Out.canonical (execRmaSegmentArrival s) :=
  canonical_event hs fun _ ht => canonical_segmentArrival ht

theorem canonical_closeArrival {g : RmaSegment} (hs : s.canonical) : (closeArrival s g).all State.canonical := by
  unfold closeArrival
  refine all_bind fun _ => ?_
  split
  · exact hs
  · rfl

theorem canonical_execRmaChannelClose (hs : s.canonical) : Out.canonical (execRmaChannelClose s) :=
  canonical_event hs fun _ ht => canonical_closeArrival ht
theorem canonical_allocRemote {r : Request} {bs : List Byte} (hs : s.canonical) : (allocRemote s r bs).canonical :=
  canonical_ite hs hs
theorem canonical_lineArrives {r : Request} {bs : List Byte} (hs : s.canonical) : (lineArrives s r bs).canonical :=
  canonical_allocRemote hs

theorem canonical_settleLine {die key : Nat} (hs : s.canonical) : (settleLine s die key).canonical := by
  unfold settleLine
  split
  · exact hs
  · split <;> exact hs

theorem canonical_storeEnds {r : Request} {fail : Option TrapInfo} (hs : s.canonical) : (storeEnds s r fail).canonical := by
  unfold storeEnds
  split
  · exact canonical_settleLine hs
  · refine canonical_dropPeerLine ?_
    split <;> exact hs

theorem canonical_acknowledged {r : Request} {bs : List Byte} (hs : s.canonical) : (acknowledged s r bs).canonical := by
  unfold acknowledged
  split
  · exact canonical_storeEnds hs
  · exact canonical_closeChan hs
  · exact hs
  · exact hs
  · split
    · exact hs
    · exact canonical_lineArrives hs
  · split
    · exact canonical_dropPeerLine hs
    · exact canonical_feedLoads (canonical_dropPeerLine hs)
  · exact hs

theorem canonical_noteEntry {r : Request} (hs : s.canonical) : (noteEntry s r).canonical := by
  unfold noteEntry
  split <;> exact hs

theorem canonical_execAckReceive (hs : s.canonical) : Out.canonical (execAckReceive s) :=
  canonical_event hs fun _ ht => all_map fun _ => canonical_acknowledged (canonical_noteEntry ht)

theorem canonical_lateAtom {r : Request} {t : TrapInfo} (hs : s.canonical) : (lateAtom s r t).canonical := by
  unfold lateAtom
  split
  · exact canonical_logError hs
  · exact hs

theorem canonical_rmaFails {t : TrapInfo} {r : Request} {k : Nat} (hs : s.canonical) : (rmaFails t r s k).canonical :=
  canonical_ite (canonical_logError hs) hs

theorem canonical_requestFails {r : Request} {t : TrapInfo} (hs : s.canonical) : (requestFails s r t).canonical := by
  unfold requestFails
  split
  · exact canonical_foldl (canonical_storeEnds hs) fun _ _ ht => ht
  · exact canonical_foldl (canonical_closeChan hs) fun _ _ ht => canonical_rmaFails ht
  · exact hs
  · exact hs
  · split
    · exact hs
    · exact canonical_failLoads hs
  · split
    · exact hs
    · exact canonical_failLoads hs
  · exact canonical_rmaFails (canonical_lateAtom hs)
  · exact hs

theorem canonical_execNackReceive (hs : s.canonical) : Out.canonical (execNackReceive s) :=
  canonical_event hs fun _ ht => all_map fun _ => canonical_requestFails ht
theorem canonical_execRetryReceive (hs : s.canonical) : Out.canonical (execRetryReceive s) :=
  canonical_event hs fun _ ht => all_map fun _ => ht

theorem canonical_execResendTimerExpiry (hs : s.canonical) : Out.canonical (execResendTimerExpiry s) := by
  unfold execResendTimerExpiry
  refine canonical_event hs fun _ ht => ?_
  refine all_bind fun _ => ?_
  split
  · rfl
  · split
    · exact ht
    · exact canonical_requestFails ht

theorem canonical_selfAnswered {r : Request} (hs : s.canonical) : (selfAnswered s r).canonical := by
  unfold selfAnswered
  split
  · exact hs
  · split
    · exact canonical_acknowledged hs
    · exact canonical_requestFails hs
    · exact hs

theorem canonical_serveSelf {r : Request} (hs : s.canonical) : (serveSelf s r).canonical := by
  unfold serveSelf
  dsimp only
  split
  · next e =>
    refine canonical_selfAnswered ?_
    refine canonical_of_eq_some e ?_
    split
    · exact canonical_closeArrival hs
    · exact canonical_segmentArrival hs
  · exact hs

theorem canonical_serveSelfAll (hs : s.canonical) : (serveSelfAll s).canonical :=
  canonical_foldl hs fun _ _ ht => canonical_serveSelf ht

/-! ## Fences -/

theorem canonical_fenceRun {obs : Nat} {mask : W32} (hs : s.canonical) : (fenceRun i obs mask s).canonical := by
  unfold fenceRun
  dsimp only
  split
  · next e => exact Rel.canonical_of_eq e (canonical_releaseSteps hs)
  · next e => exact Rel.canonical_of_eq e (canonical_releaseSteps hs)
  · next e =>
    have ht := Rel.canonical_of_eq e (canonical_releaseSteps hs)
    split
    · exact ht
    · split
      · split
        · exact canonical_finishWait (canonical_purgePartition (canonical_purgeL1 ht))
        · exact canonical_purgePartition (canonical_purgeL1 ht)
      · split
        · exact canonical_finishWait (canonical_purgeL1 ht)
        · exact canonical_purgeL1 ht

theorem canonical_execFence {o : BitVec 5} (hs : s.canonical) : Out.canonical (execFence o s) := by
  unfold execFence
  refine canonical_scalarRun (fun _ _ _ => ?_) hs
  split
  · exact hs
  · exact canonical_fenceRun hs

theorem canonical_execLaneFence {w : L3} (hs : s.canonical) : Out.canonical (execLaneFence w s) := by
  unfold execLaneFence
  refine canonical_laneRun (fun _ _ ht => ?_) hs
  split
  · exact ht
  · exact canonical_fenceRun ht

/-! ## The Geyser -/

theorem canonical_unmapSlot {die : Nat} {k : Nat} (hs : s.canonical) : (unmapSlot die s k).canonical := by
  unfold unmapSlot
  split <;> exact hs

theorem canonical_unmapEmpty {die : Nat} (hs : s.canonical) : (unmapEmpty s die).canonical := by
  unfold unmapEmpty
  split
  · exact hs
  · exact canonical_foldl hs fun _ _ ht => canonical_unmapSlot ht

theorem canonical_mapPending {die n : Nat} (hs : s.canonical) : (mapPending die n s).canonical := by
  induction n generalizing s with
  | zero => exact hs
  | succ n ih =>
    unfold mapPending
    split
    · exact hs
    · split
      · exact hs
      · exact ih hs

theorem canonical_evict {die : Nat} (hs : s.canonical) : (evict s die).canonical := by
  unfold evict
  dsimp only
  split
  · exact hs
  · split
    · exact hs
    · split
      · exact hs
      · exact canonical_unmapSlot hs

theorem canonical_geyser {die : Nat} (hs : s.canonical) : (geyser s die).canonical :=
  canonical_evict (canonical_mapPending (canonical_unmapEmpty hs))

theorem canonical_setPending {die u : Nat} (hs : s.canonical) : (setPending s die u).canonical := by
  unfold setPending
  split <;> exact hs

theorem canonical_putWr {u wr : Nat} (hs : s.canonical) : (putWr s u wr).canonical := by
  unfold putWr
  split <;> exact hs

theorem canonical_doorbell {u wr : Nat} (hs : s.canonical) : (doorbell s u wr).all State.canonical := by
  unfold doorbell
  refine all_bind fun _ => ?_
  refine all_map fun _ => ?_
  split
  · exact hs
  · refine canonical_geyser ?_
    split
    · exact canonical_setPending (canonical_putWr hs)
    · exact canonical_putWr hs

theorem canonical_execDoorbell (hs : s.canonical) : Out.canonical (execDoorbell s) := by
  unfold execDoorbell
  refine canonical_event hs fun _ ht => ?_
  split
  · rfl
  · exact canonical_doorbell ht

theorem canonical_execGeyserAgeingStep (hs : s.canonical) : Out.canonical (execGeyserAgeingStep s) :=
  canonical_event hs fun _ ht => canonical_geyser ht
theorem canonical_stopUq {part u : Nat} {q : UQ} {sub : Nat} (hs : s.canonical) : (stopUq s part u q sub).canonical :=
  canonical_logError hs

theorem canonical_feedRuns {part q addr cmd n left : Nat} {t : State} (ht : t.canonical) :
    (feedRuns s part q addr cmd n left t).canonical := by
  induction n generalizing addr left t with
  | zero => exact ht
  | succ n ih =>
    unfold feedRuns
    split
    · exact ht
    · exact ih (canonical_sendRun ht)

theorem canonical_startCmd {part u : Nat} {q : UQ} {p : Part} {h : HostCmd} (hs : s.canonical) :
    (startCmd s part u q p h).canonical := by
  unfold startCmd
  refine canonical_ite ?_ ?_
  · exact canonical_stopUq hs
  · dsimp only
    split
    · exact hs
    · exact hs
    · exact canonical_feedRuns hs
    · exact hs

theorem canonical_execCommandStart (hs : s.canonical) : Out.canonical (execCommandStart s) := by
  unfold execCommandStart
  refine canonical_event hs fun _ ht => ?_
  refine all_bind fun _ => ?_
  refine all_bind fun _ => ?_
  refine all_bind fun _ => ?_
  dsimp only
  split
  · rfl
  · split
    · exact canonical_stopUq ht
    · split
      · rfl
      · exact canonical_geyser (canonical_startCmd ht)

theorem canonical_partRelease {part : Nat} (hs : s.canonical) : (partRelease s part).2.canonical :=
  canonical_foldl_snd hs fun _ _ ht => canonical_sendContrib (canonical_flushL1 ht)

theorem canonical_execCommandComplete (hs : s.canonical) : Out.canonical (execCommandComplete s) := by
  unfold execCommandComplete
  refine canonical_event hs fun _ ht => ?_
  refine all_map fun _ => ?_
  dsimp only
  split
  · split
    · exact canonical_raiseVector ht
    · exact ht
  · split
    · split
      · exact canonical_raiseVector (canonical_counterAdd (canonical_partRelease ht))
      · exact canonical_counterAdd (canonical_partRelease ht)
    · exact canonical_partRelease ht

theorem canonical_execStealReqSend (hs : s.canonical) : Out.canonical (execStealReqSend s) := by
  unfold execStealReqSend
  refine canonical_event hs fun _ ht => ?_
  dsimp only
  split
  · rfl
  · exact ht

theorem canonical_execStealReq (hs : s.canonical) : Out.canonical (execStealReq s) := by
  unfold execStealReq
  refine canonical_event hs fun _ ht => ?_
  dsimp only
  split
  · rfl
  · split
    · exact ht
    · split
      · exact ht
      · exact canonical_geyser (canonical_unmapSlot ht)

theorem canonical_execStealGrant (hs : s.canonical) : Out.canonical (execStealGrant s) := by
  unfold execStealGrant
  refine canonical_event hs fun _ ht => ?_
  dsimp only
  split
  · rfl
  · split
    · exact ht
    · split
      · exact ht
      · exact canonical_setPending ht

theorem canonical_execTerminationRound (hs : s.canonical) : Out.canonical (execTerminationRound s) := by
  unfold execTerminationRound
  refine canonical_event hs fun _ ht => ?_
  refine all_bind fun _ => ?_
  refine all_bind fun _ => ?_
  dsimp only
  split
  · rfl
  · split <;> exact ht

/-! ## Ends at a region, and preemption -/

theorem canonical_atRegion {st : Nat} {f : State → Region → State} (hf : ∀ t x, t.canonical → (f t x).canonical)
    (hs : s.canonical) : (atRegion st f s).all State.canonical := by
  unfold atRegion
  split
  · rfl
  · split
    · exact hf _ _ hs
    · rfl

theorem canonical_putEntries {pages : List Nat} {i : Nat} {l : List (Nat × Nat × List Byte)} (hs : s.canonical) :
    (putEntries s pages i l).canonical := by
  induction l generalizing s i with
  | nil => exact hs
  | cons e l ih => exact ih (canonical_perform hs)

theorem canonical_execSinterMergeDone (hs : s.canonical) : Out.canonical (execSinterMergeDone s) :=
  canonical_event hs fun _ ht => canonical_atRegion (fun _ _ hu => canonical_putEntries hu) ht
theorem canonical_restoreEntry {e : Nat × Nat × List Byte} (hs : s.canonical) : (restoreEntry e s).canonical :=
  canonical_perform hs

theorem canonical_addRegion {r : Region} (hs : s.canonical) : (addRegion s r).canonical := by
  unfold addRegion
  split
  · exact hs
  · split
    · exact canonical_foldl hs fun _ _ ht => ht
    · exact hs

theorem canonical_execSinterRestoreDone (hs : s.canonical) : Out.canonical (execSinterRestoreDone s) :=
  canonical_event hs fun _ ht => canonical_atRegion
    (fun _ _ hu => canonical_addRegion (canonical_foldr hu fun _ _ hv => canonical_restoreEntry hv)) ht
theorem canonical_execSinterGrowDone (hs : s.canonical) : Out.canonical (execSinterGrowDone s) :=
  canonical_event hs fun _ ht => canonical_atRegion (fun _ _ hu => canonical_putEntries hu) ht
theorem canonical_execSinterSweepDone (hs : s.canonical) : Out.canonical (execSinterSweepDone s) :=
  canonical_event hs fun _ ht => canonical_atRegion (fun _ _ hu => hu) ht
theorem canonical_execSnapdefTagsDone (hs : s.canonical) : Out.canonical (execSnapdefTagsDone s) :=
  canonical_event hs fun _ ht => canonical_atRegion (fun _ _ hu => hu) ht

theorem canonical_execSequencerSaveTimeout (hs : s.canonical) : Out.canonical (execSequencerSaveTimeout s) := by
  unfold execSequencerSaveTimeout
  refine canonical_event hs fun _ ht => ?_
  refine all_bind fun _ => ?_
  dsimp only
  split
  · exact ht
  · rfl

theorem canonical_settleCores {nb : Nat} (hs : s.canonical) : (settleCores s nb).canonical :=
  canonical_foldl hs fun _ _ ht => canonical_sendContrib (canonical_flushL1 ht)

theorem canonical_preemptTrap {o : SaveOp} (hs : s.canonical) : (preemptTrap s o).canonical := by
  unfold preemptTrap
  dsimp only
  split
  · exact hs
  · exact canonical_ite hs (canonical_trapOrPend hs)

theorem canonical_execPreempt (hs : s.canonical) : Out.canonical (execPreempt s) := by
  unfold execPreempt
  refine canonical_event hs fun _ ht => ?_
  refine all_bind fun _ => ?_
  refine all_map fun _ => ?_
  dsimp only
  split
  · exact canonical_preemptTrap ht
  · split
    · exact canonical_saveNow (canonical_settleCores ht)
    · exact canonical_settleCores ht

/-! ## The host and the debugger -/

theorem canonical_ownMemory {a : Nat} {bs : List Byte} (hs : s.canonical) : (ownMemory s a bs).all State.canonical := by
  unfold ownMemory
  split
  · exact canonical_poke hs
  · rfl

theorem canonical_hostDone {i : Input} {kind : Nat} {good bad : State → State} {r : WRes}
    (hgood : ∀ t, t.canonical → (good t).canonical) (hbad : ∀ t, t.canonical → (bad t).canonical) (hr : r.canonical) :
    (hostDone i kind good bad r).canonical := by
  unfold hostDone
  split
  · exact hgood _ (canonical_leavePlaces hr)
  · exact canonical_exhaust (canonical_leavePlaces hr)
  · exact hbad _ (canonical_logError hr)
  · exact canonical_joinPlace hr

theorem canonical_hostWriteNow {i : Input} (hs : s.canonical) : (hostWriteNow s i).canonical :=
  canonical_hostDone (fun _ ht => ht) (fun _ ht => ht) (canonical_homeAll hs)
theorem canonical_hostAtomicNow {i : Input} (hs : s.canonical) : (hostAtomicNow s i).canonical :=
  canonical_hostDone (fun _ ht => ht) (fun _ ht => ht) (canonical_homeAt hs)

theorem canonical_hostReadNow {i : Input} (hs : s.canonical) : (hostReadNow s i).canonical := by
  unfold hostReadNow
  dsimp only
  split
  · exact canonical_joinPlace hs
  · split <;> exact canonical_countErrs (canonical_leavePlaces hs)

theorem canonical_hostAgain {h : Nat × Input} (hs : s.canonical) : (hostAgain s h).canonical := by
  unfold hostAgain
  split
  · exact canonical_hostWriteNow hs
  · exact canonical_hostAtomicNow hs
  · exact canonical_hostReadNow hs

theorem canonical_execHostWrite (hs : s.canonical) : Out.canonical (execHostWrite s) := by
  unfold execHostWrite
  refine canonical_event hs fun _ ht => ?_
  dsimp only
  split
  · exact canonical_ownMemory ht
  · split
    · exact all_map fun _ => canonical_hostAgain ht
    · split
      · rfl
      · split
        · exact canonical_logError ht
        · exact canonical_hostWriteNow ht

theorem canonical_execHostRead (hs : s.canonical) : Out.canonical (execHostRead s) := by
  unfold execHostRead
  refine canonical_event hs fun _ ht => ?_
  dsimp only
  split
  · exact ht
  · split
    · exact ht
    · split
      · rfl
      · split
        · exact ht
        · split
          · split
            · split
              · exact ht
              · exact canonical_logError ht
            · exact canonical_logError ht
          · split
            · exact canonical_logError ht
            · exact canonical_hostReadNow ht

theorem canonical_execHostAtomic (hs : s.canonical) : Out.canonical (execHostAtomic s) := by
  unfold execHostAtomic
  refine canonical_event hs fun _ ht => ?_
  dsimp only
  split
  · exact ht
  · split
    · rfl
    · split
      · exact canonical_logError ht
      · exact canonical_hostAtomicNow ht

theorem canonical_onPart {f : Part → Part} (hs : s.canonical) : (onPart s f).all State.canonical := all_map fun _ => hs

theorem canonical_writeQcb {u : Nat} {x : List Nat} (hs : s.canonical) : (writeQcb s u x).all State.canonical := by
  unfold writeQcb
  refine all_bind fun _ => ?_
  dsimp only
  split
  · rfl
  · exact hs

theorem canonical_controlWrite (hs : s.canonical) : (controlWrite s).all State.canonical := by
  unfold controlWrite
  dsimp only
  split
  · exact canonical_onPart hs
  · exact canonical_onPart hs
  · split
    · rfl
    · exact canonical_onPart hs
  · exact canonical_onPart hs
  · exact canonical_onPart hs
  · exact canonical_onPart hs
  · exact canonical_onPart hs
  · exact all_map fun _ => canonical_foldl hs fun _ _ ht => ht
  · split
    · exact canonical_onPart hs
    · rfl
  · exact canonical_onPart hs
  · exact canonical_onPart hs
  · exact canonical_onPart hs
  · exact canonical_onPart hs
  · exact canonical_writeQcb hs
  · exact canonical_onPart hs
  · split
    · rfl
    · exact hs
  · rfl

theorem canonical_execControlWindowWrite (hs : s.canonical) : Out.canonical (execControlWindowWrite s) := by
  unfold execControlWindowWrite
  refine canonical_event hs fun _ ht => ?_
  split
  · exact canonical_controlWrite ht
  · rfl

theorem canonical_execPartitionReset (hs : s.canonical) : Out.canonical (execPartitionReset s) :=
  canonical_event hs fun _ ht => all_map fun _ => canonical_ite (canonical_finishReset ht) (canonical_resetPartition ht)

theorem canonical_execVectorPendingSend (hs : s.canonical) : Out.canonical (execVectorPendingSend s) := by
  unfold execVectorPendingSend
  refine canonical_event hs fun _ ht => ?_
  refine all_bind fun _ => ?_
  dsimp only
  split
  · exact canonical_sendVector (canonical_putOwn ht)
  · rfl

theorem canonical_execAcceptedByHostMemory (hs : s.canonical) : Out.canonical (execAcceptedByHostMemory s) := by
  unfold execAcceptedByHostMemory
  refine canonical_event hs fun _ ht => ?_
  refine all_map fun _ => ?_
  refine canonical_ite ?_ ?_
  · exact ht
  · split <;> exact ht

theorem canonical_execDbgen (hs : s.canonical) : Out.canonical (execDbgen s) :=
  canonical_event hs fun _ ht => canonical_onPart ht
theorem canonical_execDebugStop (hs : s.canonical) : Out.canonical (execDebugStop s) :=
  canonical_event hs fun _ ht => all_map fun _ => canonical_foldl ht fun _ _ hu => hu
theorem canonical_execDebugResume (hs : s.canonical) : Out.canonical (execDebugResume s) :=
  canonical_event hs fun _ ht => all_map fun _ => canonical_foldl ht fun _ _ hu => canonical_foldl hu fun _ _ hv => hv

theorem canonical_execDebugStep (hs : s.canonical) : Out.canonical (execDebugStep s) := by
  unfold execDebugStep
  refine canonical_event hs fun _ ht => ?_
  refine all_bind fun _ => ?_
  split
  · rfl
  · exact ht

theorem canonical_stepped (hs : s.canonical) : (stepped s c sl).canonical := by
  unfold stepped
  split
  · exact hs
  · split <;> exact hs

theorem canonical_execStopDump (hs : s.canonical) : Out.canonical (execStopDump s) := by
  unfold execStopDump
  refine canonical_event hs fun _ ht => ?_
  refine all_bind fun _ => ?_
  dsimp only
  split
  · rfl
  · exact canonical_foldl ht fun _ _ hu => hu

theorem canonical_execStallSample (hs : s.canonical) : Out.canonical (execStallSample s) := by
  unfold execStallSample
  refine canonical_event hs fun _ ht => ?_
  refine all_bind fun _ => ?_
  dsimp only
  split
  · rfl
  · split
    · exact ht
    · exact canonical_ringPut ht

/-! ## Lane arithmetic on floating-point numbers -/

theorem canonical_lf1 {t : Nat} {op : Alu.Fin → Nat → Nat} {w : L3} (hs : s.canonical) : Out.canonical (lf1 t op w s) :=
  canonical_laneMap hs

theorem canonical_lf2 {t : Nat} {op : Alu.Fin → Nat → Nat → Nat} {w : L3} (hs : s.canonical) :
    Out.canonical (lf2 t op w s) :=
  canonical_laneMap hs

theorem canonical_lf3 {t : Nat} {op : Alu.Fin → Nat → Nat → Nat → Nat} {w : L3} (hs : s.canonical) :
    Out.canonical (lf3 t op w s) :=
  canonical_laneMap hs

theorem canonical_lf2i {t : Nat} {op : Alu.Fin → Nat → Nat → Nat} {w : LI} (hs : s.canonical) :
    Out.canonical (lf2i t op w s) :=
  canonical_laneMap hs

theorem canonical_lf3i {t : Nat} {op : Alu.Fin → Nat → Nat → Nat → Nat} {w : LI} (hs : s.canonical) :
    Out.canonical (lf3i t op w s) :=
  canonical_laneMap hs

theorem canonical_lfcmp {t : Nat} {f : Fmt} {w : L3} (hs : s.canonical) : Out.canonical (lfcmp t f w s) :=
  canonical_lanePred hs
theorem canonical_lfcmpi {t : Nat} {f : Fmt} {w : LI} (hs : s.canonical) : Out.canonical (lfcmpi t f w s) :=
  canonical_lanePred hs
theorem canonical_lt1 {t : Nat} {op : Mode → Nat → Nat} {w : L3} (hs : s.canonical) : Out.canonical (lt1 t op w s) :=
  canonical_laneTrans hs

/-! ## Lane arithmetic on integers -/

theorem canonical_li1 {op : Nat → Bool → Nat → Nat} {w : L3} (hs : s.canonical) : Out.canonical (li1 op w s) :=
  canonical_laneMap hs
theorem canonical_li2 {op : Nat → Bool → Nat → Nat → Nat} {w : L3} (hs : s.canonical) : Out.canonical (li2 op w s) :=
  canonical_laneMap hs
theorem canonical_li2i {op : Nat → Bool → Nat → Nat → Nat} {w : LI} (hs : s.canonical) : Out.canonical (li2i op w s) :=
  canonical_laneMap hs
theorem canonical_li3 {op : Nat → Nat → Nat → Nat} {w : L3} (hs : s.canonical) : Out.canonical (li3 op w s) :=
  canonical_laneMap hs
theorem canonical_li3i {op : Nat → Nat → Nat → Nat} {w : LI} (hs : s.canonical) : Out.canonical (li3i op w s) :=
  canonical_laneMap hs
theorem canonical_lsh {op : Nat → Nat → Nat → Nat} {w : L3} (hs : s.canonical) : Out.canonical (lsh op w s) :=
  canonical_laneMap hs
theorem canonical_lshi {op : Nat → Nat → Nat → Nat} {w : LI} (hs : s.canonical) : Out.canonical (lshi op w s) :=
  canonical_laneMap hs

theorem canonical_iaddc {h : LaneHead} {cin : Nat} {srcs : List Src} {b : Group → Nat → Nat} (hs : s.canonical) :
    Out.canonical (iaddc h cin srcs b s) :=
  canonical_laneRun (fun _ _ ht => ht) hs

theorem canonical_execIaddc {w : L3} (hs : s.canonical) : Out.canonical (execIaddc w s) := canonical_iaddc hs
theorem canonical_execIaddcImm {w : LI} (hs : s.canonical) : Out.canonical (execIaddcImm w s) := canonical_iaddc hs

/-! ## Lane conversions and modes -/

theorem canonical_execCvt {w : L3} (hs : s.canonical) : Out.canonical (execCvt w s) := by
  unfold execCvt
  exact canonical_laneRun (fun _ _ ht => ht) hs

theorem canonical_execLfmt {w : L3} (hs : s.canonical) : Out.canonical (execLfmt w s) :=
  canonical_laneRun (fun _ _ ht => by split <;> exact ht) hs

/-! ## Management of the module -/

theorem canonical_execPartitionDescriptorWrite (hs : s.canonical) : Out.canonical (execPartitionDescriptorWrite s) := by
  unfold execPartitionDescriptorWrite
  refine canonical_event hs fun _ ht => ?_
  dsimp only
  split
  · rfl
  · exact canonical_startAgents (canonical_foldl ht fun _ _ hu => canonical_removeNb hu)

theorem canonical_startFirmware {b : List Byte} (hs : s.canonical) : (startFirmware s b).canonical := by
  unfold startFirmware
  dsimp only
  split <;> exact hs

theorem canonical_startBlob {b : List Byte} (hs : s.canonical) : (startBlob s b).canonical := by
  unfold startBlob
  refine canonical_ite ?_ ?_
  · exact hs
  · dsimp only
    split
    · exact hs
    · exact canonical_foldl hs fun _ _ ht => ht

theorem canonical_startImage {b : List Byte} {x : List Nat} {final : Bool} (hs : s.canonical) :
    (startImage s b x final).canonical := by
  unfold startImage
  dsimp only
  split
  · split <;> exact canonical_poke hs
  · exact hs

theorem canonical_execPowerOn (hs : s.canonical) : Out.canonical (execPowerOn s) := by
  unfold execPowerOn
  refine canonical_event hs fun _ ht => ?_
  split
  · rfl
  · split
    · exact canonical_startFirmware ht
    · exact canonical_startBlob ht
    · exact canonical_ite ht ht
    · exact all_some (canonical_startImage ht)
    · exact canonical_ite ht ht
    · exact ht
    · rfl

theorem canonical_spdm {f : State → State} (hf : ∀ t, t.canonical → (f t).canonical) (hs : s.canonical) :
    Out.canonical (spdm f s) := by
  unfold spdm
  refine canonical_event hs fun _ ht => ?_
  split
  · rfl
  · exact hf _ ht

theorem canonical_execSpdmGetVersion (hs : s.canonical) : Out.canonical (execSpdmGetVersion s) :=
  canonical_event hs fun _ ht => ht
theorem canonical_execSpdmGetCapabilities (hs : s.canonical) : Out.canonical (execSpdmGetCapabilities s) :=
  canonical_spdm (fun _ ht => ht) hs
theorem canonical_execSpdmNegotiateAlgorithms (hs : s.canonical) : Out.canonical (execSpdmNegotiateAlgorithms s) :=
  canonical_spdm (fun _ ht => by split <;> exact ht) hs
theorem canonical_execSpdmGetDigests (hs : s.canonical) : Out.canonical (execSpdmGetDigests s) :=
  canonical_spdm (fun _ ht => ht) hs
theorem canonical_execSpdmGetCertificate (hs : s.canonical) : Out.canonical (execSpdmGetCertificate s) :=
  canonical_spdm (fun _ ht => ht) hs
theorem canonical_execSpdmChallenge (hs : s.canonical) : Out.canonical (execSpdmChallenge s) :=
  canonical_spdm (fun _ ht => ht) hs
theorem canonical_execSpdmGetMeasurements (hs : s.canonical) : Out.canonical (execSpdmGetMeasurements s) :=
  canonical_spdm (fun _ ht => ht) hs
theorem canonical_execSpdmUnsupportedRequest (hs : s.canonical) : Out.canonical (execSpdmUnsupportedRequest s) :=
  canonical_spdm (fun _ ht => ht) hs

theorem canonical_execPowerMeasurement (hs : s.canonical) : Out.canonical (execPowerMeasurement s) := by
  unfold execPowerMeasurement
  refine canonical_event hs fun _ ht => ?_
  dsimp only
  split
  · rfl
  · exact ht

theorem canonical_execThermalTrip (hs : s.canonical) : Out.canonical (execThermalTrip s) :=
  canonical_event hs fun _ ht => canonical_foldl ht fun _ _ hu => canonical_raiseVector
    (canonical_logError (canonical_haltPartition hu))

/-! ## Scalar arithmetic on integers -/

theorem canonical_sBin {op : Nat → Bool → Nat → Nat → Nat} {d a b : BitVec 6} {f : BitVec 3} (hs : s.canonical) :
    Out.canonical (sBin op d a b f s) :=
  canonical_scalarPure hs

theorem canonical_sUn {op : Nat → Nat → Nat} {d a : BitVec 6} {f : BitVec 3} (hs : s.canonical) :
    Out.canonical (sUn op d a f s) :=
  canonical_scalarPure hs

theorem canonical_sImm {op : Nat → Nat → Nat} {d a : BitVec 6} {i : BitVec 13} (hs : s.canonical) :
    Out.canonical (sImm op d a i s) :=
  canonical_scalarPure hs

theorem canonical_sShift {op : Nat → Nat → Nat → Nat} {d a n : BitVec 6} (hs : s.canonical) :
    Out.canonical (sShift op d a n s) :=
  canonical_scalarPure hs

/-! ## Scalar arithmetic on floating-point numbers -/

theorem canonical_sfBin {op : Fmt → Nat → Nat → Nat} {d a b : BitVec 6} {f : BitVec 3} (hs : s.canonical) :
    Out.canonical (sfBin op d a b f s) :=
  canonical_scalarPure hs

/-! ## Every instruction -/

/-- Every instruction and every event keeps the canonical form: those that compute alone through the lemma of their class, the others
through a lemma of their own. -/
theorem canonical_exec {i : Instr} (hs : s.canonical) : Out.canonical (exec i s) := by
  cases i with
  | sadd | ssub | smul | smulh | smin | smax | saddc | sand | sor | sxor | sshl | sshr
  | ssra => unfold exec; exact canonical_sBin hs
  | sabs | sneg | snot | spopc | sclz | sbrev | smov => unfold exec; exact canonical_sUn hs
  | scmp | scvt | sbfe | sbfi | sli | slih | slea | ssel => unfold exec; exact canonical_scalarPure hs
  | sfadd | sfmul | sfmin | sfmax | sfcmp => unfold exec; exact canonical_sfBin hs
  | saddImm | smulImm | sandImm | sorImm | sxorImm => unfold exec; exact canonical_sImm hs
  | sshlImm | sshrImm | ssraImm => unfold exec; exact canonical_sShift hs
  | sld => exact canonical_execSld hs
  | sst => exact canonical_execSst hs
  | cpy => exact canonical_execCpy hs
  | cpyg => exact canonical_execCpyg hs
  | cseal => exact canonical_execCseal hs
  | cwait => exact canonical_execCwait hs
  | cpoll => exact canonical_execCpoll hs
  | omap => exact canonical_execOmap hs
  | ostat => exact canonical_execOstat hs
  | tdef => exact canonical_execTdef hs
  | trds => exact canonical_execTrds hs
  | tkill => exact canonical_execTkill hs
  | tqry => exact canonical_execTqry hs
  | snapdef => exact canonical_execSnapdef hs
  | snap => exact canonical_execSnap hs
  | sacc => exact canonical_execSacc hs
  | srej => exact canonical_execSrej hs
  | sqry => exact canonical_execSqry hs
  | ssweep => exact canonical_execSsweep hs
  | bar => exact canonical_execBar hs
  | nbinit => exact canonical_execNbinit hs
  | nbarr => exact canonical_execNbarr hs
  | nbwait => exact canonical_execNbwait hs
  | ctradd => exact canonical_execCtradd hs
  | ctrwait => exact canonical_execCtrwait hs
  | ticket => exact canonical_execTicket hs
  | diffmax => exact canonical_execDiffmax hs
  | launch => exact canonical_execLaunch hs
  | launchDirect => exact canonical_execLaunchDirect hs
  | rmput => exact canonical_execRmput hs
  | rmget => exact canonical_execRmget hs
  | rmatom => exact canonical_execRmatom hs
  | rmatomCas => exact canonical_execRmatomCas hs
  | rmflush => exact canonical_execRmflush hs
  | keyset => exact canonical_execKeyset hs
  | keyrev => exact canonical_execKeyrev hs
  | flushp => exact canonical_execFlushp hs
  | fence => exact canonical_execFence hs
  | linv => exact canonical_execLinv hs
  | lwb => exact canonical_execLwb hs
  | saper => exact canonical_execSaper hs
  | pprobe => exact canonical_execPprobe hs
  | tlbiRange => exact canonical_execTlbiRange hs
  | tlbiSset => exact canonical_execTlbiSset hs
  | sfmt => exact canonical_execSfmt hs
  | trialon => exact canonical_execTrialon hs
  | trialoff => exact canonical_execTrialoff hs
  | prog => exact canonical_execProg hs
  | bkpt => exact canonical_execBkpt hs
  | trap => exact canonical_execTrap hs
  | sysr => exact canonical_execSysr hs
  | sysw => exact canonical_execSysw hs
  | preq => exact canonical_execPreq hs
  | preqRst => exact canonical_execPreqRst hs
  | halt => exact canonical_execHalt hs
  | sret => exact canonical_execSret hs
  | spause => exact canonical_execSpause hs
  | sbrZ => exact canonical_execSbrZ hs
  | sbrNz => exact canonical_execSbrNz hs
  | sjmp => exact canonical_execSjmp hs
  | scall => exact canonical_execScall hs
  | lissue => exact canonical_execLissue hs
  | sldX => exact canonical_execSldX hs
  | sstX => exact canonical_execSstX hs
  | satom => exact canonical_execSatom hs
  | scas => exact canonical_execScas hs
  | fadd | fmul | fmin | fmax | bfadd2 | bfmul2 | bfmin2 | bfmax2 | dadd | dmul | dmin
  | dmax => unfold exec; exact canonical_lf2 hs
  | ffma | bffma2 | dfma => unfold exec; exact canonical_lf3 hs
  | frnd => unfold exec; exact canonical_lf1 hs
  | fcmp | dcmp => unfold exec; exact canonical_lfcmp hs
  | fdivc | fdivcImm => unfold exec; exact canonical_laneTrans hs
  | frcp | frsq | fsqrt | fex2 | flg2 | fsin | fcos | drcp | drsq | dsqrt => unfold exec; exact canonical_lt1 hs
  | iadd | isub | imul | imulh | imin | imax | land | lor | lxor | bfe => unfold exec; exact canonical_li2 hs
  | imad | bfi => unfold exec; exact canonical_li3 hs
  | iabs | ineg | lnot | popc | clz | brev => unfold exec; exact canonical_li1 hs
  | iaddc => exact canonical_execIaddc hs
  | icmp | plop | icmpImm => unfold exec; exact canonical_lanePred hs
  | shl | shr | sra => unfold exec; exact canonical_lsh hs
  | cvt => exact canonical_execCvt hs
  | mov | sel | movW | laneid | movi | gscan | rdspec => unfold exec; exact canonical_laneMap hs
  | faddImm | fmulImm | fminImm | fmaxImm | bfadd2Imm | bfmul2Imm | bfmin2Imm | bfmax2Imm | daddImm | dmulImm | dminImm
  | dmaxImm => unfold exec; exact canonical_lf2i hs
  | ffmaImm | bffma2Imm | dfmaImm => unfold exec; exact canonical_lf3i hs
  | fcmpImm | dcmpImm => unfold exec; exact canonical_lfcmpi hs
  | iaddImm | isubImm | imulImm | imulhImm | iminImm | imaxImm | landImm | lorImm | lxorImm
  | bfeImm => unfold exec; exact canonical_li2i hs
  | imadImm | bfiImm => unfold exec; exact canonical_li3i hs
  | iaddcImm => exact canonical_execIaddcImm hs
  | shlImm | shrImm | sraImm => unfold exec; exact canonical_lshi hs
  | shfl => exact canonical_execShfl hs
  | shflImm => exact canonical_execShflImm hs
  | vote => exact canonical_execVote hs
  | gred => exact canonical_execGred hs
  | ld => exact canonical_execLd hs
  | st => exact canonical_execSt hs
  | atom => exact canonical_execAtom hs
  | cas => exact canonical_execCas hs
  | pref => exact canonical_execPref hs
  | ldImm => exact canonical_execLdImm hs
  | stImm => exact canonical_execStImm hs
  | prefImm => exact canonical_execPrefImm hs
  | fez => exact canonical_execFez hs
  | feset => exact canonical_execFeset hs
  | feq => exact canonical_execFeq hs
  | lcpy => exact canonical_execLcpy hs
  | tdefv => exact canonical_execTdefv hs
  | trd => exact canonical_execTrd hs
  | pushm => exact canonical_execPushm hs
  | popm => exact canonical_execPopm hs
  | lfmt => exact canonical_execLfmt hs
  | enq => exact canonical_execEnq hs
  | enqd => exact canonical_execEnqd hs
  | laneFence => exact canonical_execLaneFence hs
  | bra => exact canonical_execBra hs
  | lcall => exact canonical_execLcall hs
  | lexit => exact canonical_execLexit hs
  | laneBkpt => exact canonical_execLaneBkpt hs
  | laneProg => exact canonical_execLaneProg hs
  | laneTrap => exact canonical_execLaneTrap hs
  | mma => exact canonical_execMma hs
  | mmaq => exact canonical_execMmaq hs
  | mzero => exact canonical_execMzero hs
  | mlda => exact canonical_execMlda hs
  | msta => exact canonical_execMsta hs
  | madda => exact canonical_execMadda hs
  | mprdCnt => exact canonical_execMprdCnt hs
  | mprdQ => exact canonical_execMprdQ hs
  | msclSet => exact canonical_execMsclSet hs
  | msclClr => exact canonical_execMsclClr hs
  | tlbiCtx => exact canonical_execTlbiCtx hs
  | rft => exact canonical_execRft hs
  | rftSkip => exact canonical_execRftSkip hs
  | sexit => exact canonical_execSexit hs
  | lsync => exact canonical_execLsync hs
  | shint => exact canonical_execShint hs
  | lend => exact canonical_execLend hs
  | wide => exact canonical_execWide hs
  | endw => exact canonical_execEndw hs
  | lret => exact canonical_execLret hs
  | hint => exact canonical_execHint hs
  | mnba => exact canonical_execMnba hs
  | mnbw => exact canonical_execMnbw hs
  | mwaits => exact canonical_execMwaits hs
  | mloop => exact canonical_execMloop hs
  | mend => exact canonical_execMend hs
  | mjmp => exact canonical_execMjmp hs
  | msafe => exact canonical_execMsafe hs
  | mexit => exact canonical_execMexit hs
  | mhint => exact canonical_execMhint hs
  | srseedWrite => exact canonical_execSrseedWrite hs
  | rlwaysWrite => exact canonical_execRlwaysWrite hs
  | parkResume => exact canonical_execParkResume hs
  | producerWrite => exact canonical_execProducerWrite hs
  | laneBlockStart => exact canonical_execLaneBlockStart hs
  | requestTableGrant => exact canonical_execRequestTableGrant hs
  | faultResolved => exact canonical_execFaultResolved hs
  | faultFatal => exact canonical_execFaultFatal hs
  | maskedWriteback => exact canonical_execMaskedWriteback hs
  | fillReturn => exact canonical_execFillReturn hs
  | remoteLineAgeExpiry => exact canonical_execRemoteLineAgeExpiry hs
  | waitlistResend => exact canonical_execWaitlistResend hs
  | copyStart => exact canonical_execCopyStart hs
  | copyUnitWrite => exact canonical_execCopyUnitWrite hs
  | copyComplete => exact canonical_execCopyComplete hs
  | fetcherDeliver => exact canonical_execFetcherDeliver hs
  | matrixUnitComplete => exact canonical_execMatrixUnitComplete hs
  | sequencerSaveTimeout => exact canonical_execSequencerSaveTimeout hs
  | tileOpAccept => exact canonical_execTileOpAccept hs
  | tileDefined => exact canonical_execTileDefined hs
  | tileDefineFail => exact canonical_execTileDefineFail hs
  | tileReadComplete => exact canonical_execTileReadComplete hs
  | tileKillEffect => exact canonical_execTileKillEffect hs
  | tilePlacementMove => exact canonical_execTilePlacementMove hs
  | tileDeadlock => exact canonical_execTileDeadlock hs
  | runAppend => exact canonical_execRunAppend hs
  | remoteRecordArrival => exact canonical_execRemoteRecordArrival hs
  | refillMove => exact canonical_execRefillMove hs
  | portForward => exact canonical_execPortForward hs
  | flitReceive => exact canonical_execFlitReceive hs
  | escapeTreeRebuild => exact canonical_execEscapeTreeRebuild hs
  | xoff => exact canonical_execXoff hs
  | xon => exact canonical_execXon hs
  | portXoff => exact canonical_execPortXoff hs
  | progressTimerExpiry => exact canonical_execProgressTimerExpiry hs
  | remoteLoadRequest => exact canonical_execRemoteLoadRequest hs
  | remoteStoreArrival => exact canonical_execRemoteStoreArrival hs
  | remoteAtomicRequest => exact canonical_execRemoteAtomicRequest hs
  | rmaSegmentArrival => exact canonical_execRmaSegmentArrival hs
  | rmaChannelClose => exact canonical_execRmaChannelClose hs
  | ackReceive => exact canonical_execAckReceive hs
  | nackReceive => exact canonical_execNackReceive hs
  | retryReceive => exact canonical_execRetryReceive hs
  | resendTimerExpiry => exact canonical_execResendTimerExpiry hs
  | summarySend => exact canonical_execSummarySend hs
  | summaryReceive => exact canonical_execSummaryReceive hs
  | terminationRound => exact canonical_execTerminationRound hs
  | sinterMergeDone => exact canonical_execSinterMergeDone hs
  | sinterRestoreDone => exact canonical_execSinterRestoreDone hs
  | sinterGrowDone => exact canonical_execSinterGrowDone hs
  | sinterSweepDone => exact canonical_execSinterSweepDone hs
  | snapdefTagsDone => exact canonical_execSnapdefTagsDone hs
  | preempt => exact canonical_execPreempt hs
  | hostWrite => exact canonical_execHostWrite hs
  | hostRead => exact canonical_execHostRead hs
  | hostAtomic => exact canonical_execHostAtomic hs
  | doorbell => exact canonical_execDoorbell hs
  | controlWindowWrite => exact canonical_execControlWindowWrite hs
  | partitionReset => exact canonical_execPartitionReset hs
  | dbgen => exact canonical_execDbgen hs
  | debugStop => exact canonical_execDebugStop hs
  | stopDump => exact canonical_execStopDump hs
  | debugResume => exact canonical_execDebugResume hs
  | debugStep => exact canonical_execDebugStep hs
  | commandStart => exact canonical_execCommandStart hs
  | commandComplete => exact canonical_execCommandComplete hs
  | geyserAgeingStep => exact canonical_execGeyserAgeingStep hs
  | stealReqSend => exact canonical_execStealReqSend hs
  | stealReq => exact canonical_execStealReq hs
  | stealGrant => exact canonical_execStealGrant hs
  | vectorPendingSend => exact canonical_execVectorPendingSend hs
  | partitionDescriptorWrite => exact canonical_execPartitionDescriptorWrite hs
  | powerOn => exact canonical_execPowerOn hs
  | spdmGetVersion => exact canonical_execSpdmGetVersion hs
  | spdmGetCapabilities => exact canonical_execSpdmGetCapabilities hs
  | spdmNegotiateAlgorithms => exact canonical_execSpdmNegotiateAlgorithms hs
  | spdmGetDigests => exact canonical_execSpdmGetDigests hs
  | spdmGetCertificate => exact canonical_execSpdmGetCertificate hs
  | spdmChallenge => exact canonical_execSpdmChallenge hs
  | spdmGetMeasurements => exact canonical_execSpdmGetMeasurements hs
  | spdmUnsupportedRequest => exact canonical_execSpdmUnsupportedRequest hs
  | powerMeasurement => exact canonical_execPowerMeasurement hs
  | thermalTrip => exact canonical_execThermalTrip hs
  | stallSample => exact canonical_execStallSample hs
  | acceptedByHostMemory => exact canonical_execAcceptedByHostMemory hs

/-! ## A turn and the time that passes -/

theorem canonical_holdScalar {d : Nat} (hs : s.canonical) : (holdScalar c sl d s).canonical := by
  unfold holdScalar
  split <;> exact hs

theorem canonical_holdSplit {k d : Nat} (hs : s.canonical) : (holdSplit c sl k d s).canonical := by
  unfold holdSplit
  split <;> exact hs

theorem canonical_laneTurn {g : Group} (hs : s.canonical) : (laneTurn s c sl g).all State.canonical := by
  unfold laneTurn
  split
  · rfl
  · split
    · exact hs
    · exact all_map fun _ => hs

theorem canonical_issuedScalar {g : Group} {t : State} (ht : t.canonical) : (issuedScalar s c sl g t).canonical := by
  unfold issuedScalar
  split
  · exact ht
  · exact canonical_stepped (canonical_holdScalar ht)

theorem canonical_issuedLane {k : Nat} {g : Group} {pc : W32} {t : State} (ht : t.canonical) :
    (issuedLane s c sl k g pc t).canonical := by
  unfold issuedLane
  split
  · exact ht
  · exact canonical_stepped (canonical_holdSplit ht)

theorem canonical_withMask {m : W32} {r : Res} (hr : r.canonical) : (withMask m r).canonical := by
  unfold withMask
  split <;> exact hr

theorem canonical_runScalar (hs : s.canonical) : Out.canonical (runScalar c sl s) := by
  unfold runScalar
  split
  · exact hs
  · split
    · exact hs
    · split
      · exact canonical_takePending hs
      · split
        · exact hs
        · split
          · next e => exact canonical_endS (Got.canonical_of_eq e (canonical_fetchScalar hs))
          · next e => exact canonical_stepped (canonical_endS (Got.canonical_of_eq e (canonical_fetchScalar hs)))
          · next e =>
            have ht := Got.canonical_of_eq e (canonical_fetchScalar hs)
            exact canonical_onNext (canonical_exec ht) fun _ hu => canonical_issuedScalar hu

theorem canonical_runLane (hs : s.canonical) : Out.canonical (runLane c sl s) := by
  unfold runLane
  dsimp only
  split
  · exact hs
  · split
    · exact hs
    · next e =>
      have ht := canonical_of_eq_some e (canonical_laneTurn hs)
      split
      · exact canonical_takePending ht
      · split
        · split
          · next e => exact canonical_endL (canonical_withMask (Got.canonical_of_eq e (canonical_fetchLane ht)))
          · next e => exact canonical_stepped (canonical_endL
              (canonical_withMask (Got.canonical_of_eq e (canonical_fetchLane ht))))
          · next e =>
            have hu := Got.canonical_of_eq e (canonical_fetchLane ht)
            exact canonical_onNext (canonical_exec hu) fun _ hv => canonical_issuedLane hv
        · exact ht

theorem canonical_runSeq {b : Nat} (hs : s.canonical) : Out.canonical (runSeq b s) := by
  unfold runSeq
  split
  · exact hs
  · split
    · exact hs
    · split
      · exact hs
      · split
        · next e => exact canonical_stopSeq (Got.canonical_of_eq e (canonical_fetchMatrix hs))
        · next e => exact canonical_parkM (Got.canonical_of_eq e (canonical_fetchMatrix hs))
        · exact hs
        · next e => exact canonical_stopSeq (Got.canonical_of_eq e (canonical_fetchMatrix hs))
        · next e => exact canonical_exec (Got.canonical_of_eq e (canonical_fetchMatrix hs))

theorem canonical_runTurn (hs : s.canonical) : Out.canonical (runTurn s) := by
  unfold runTurn
  split
  · split
    · exact canonical_runScalar hs
    · exact hs
  · split
    · exact canonical_runLane hs
    · exact hs
  · split
    · exact canonical_runSeq hs
    · exact hs
  · split
    · exact canonical_exec hs
    · exact hs
  · exact canonical_egress hs
  · exact hs

theorem canonical_settleWatch (hs : s.canonical) : (settleWatch s).canonical := canonical_ite hs hs

theorem canonical_setTurn {tick : Nat} {input : Input} {turn : Turn} (hs : s.canonical) :
    ({ s with tick, input, turn } : State).canonical := hs

/-- What becomes due when time passes keeps the canonical form. -/
theorem canonical_advance (hs : s.canonical) : (advance s).canonical := by
  have hstuck : (stuckClocks { s with clock := s.clock + Config.clocks s.tick } (Config.clocks s.tick)).canonical :=
    canonical_stuckClocks hs
  have hkills := canonical_settleKills (canonical_settleWatch hstuck)
  have hplaces := canonical_settlePlaces (canonical_settleFailed (canonical_settleBad hkills))
  exact canonical_setTurn (canonical_serveSelfAll (canonical_routeAll (canonical_trimCaches hplaces)))

/-- Settles O59: the turn keeps the canonical form, and so does the passage of time that follows it. -/
theorem canonicalStep : Obligations.CanonicalStep := by
  intro s t hs e
  have h : Out.canonical (step s) := canonical_onNext (canonical_runTurn hs) fun _ ht => canonical_advance ht
  rw [e] at h
  exact h

end Sys2Proof.Machine

end

section
/-! O57: decoding the words of a well-formed instruction gives it back. -/

namespace Sys2Proof
/-! ## The fields of the word forms -/

/-- A field of the upper of two joined parts lies above the lower one; the lower one lies at bit 0, and the upper one right above it. -/
theorem field_above {m n i k : Nat} {a : BitVec m} {b : BitVec n} {x : BitVec k} (h : a.extractLsb' i k = x) :
    (a ++ b).extractLsb' (i + n) k = x := by
  rw [extract_hi _ _ _ _ (Nat.le_add_left n i), Nat.add_sub_cancel, h]
theorem field_low {m n : Nat} {a : BitVec m} {b : BitVec n} : (a ++ b).extractLsb' 0 n = b := BitVec.extractLsb'_append_eq_right
theorem field_top {m n : Nat} {a : BitVec m} {b : BitVec n} : (a ++ b).extractLsb' n m = a := BitVec.extractLsb'_append_eq_left
theorem field_middle {m n p : Nat} {a : BitVec m} {b : BitVec n} {c : BitVec p} : (a ++ b ++ c).extractLsb' p n = b := by
  rw [extract_hi _ _ _ _ le_rfl, Nat.sub_self, field_low]
theorem field_highest {m n p i : Nat} {a : BitVec m} {b : BitVec n} {c : BitVec p} (h : i = n + p) : (a ++ b ++ c).extractLsb' i m = a := by
  subst h
  exact field_above field_top

/-- The fields of the scalar word forms (Table 1-1). -/
theorem fields_wordSR (op d a b : BitVec 6) (sub : BitVec 5) (f : BitVec 3) :
    (wordSR op d a b sub f).extractLsb' 26 6 = op ∧ (wordSR op d a b sub f).extractLsb' 20 6 = d ∧
    (wordSR op d a b sub f).extractLsb' 14 6 = a ∧ (wordSR op d a b sub f).extractLsb' 8 6 = b ∧
    (wordSR op d a b sub f).extractLsb' 3 5 = sub ∧ (wordSR op d a b sub f).extractLsb' 0 3 = f :=
  ⟨field_above (field_above (field_above (field_above field_top))), field_above (field_above (field_above (field_above field_low))),
    field_above (field_above (field_above field_low)), field_above (field_above field_low), field_above field_low, field_low⟩
theorem fields_wordSI (op d a : BitVec 6) (i : BitVec 13) :
    (wordSI op d a i).extractLsb' 26 6 = op ∧ (wordSI op d a i).extractLsb' 20 6 = d ∧
    (wordSI op d a i).extractLsb' 14 6 = a ∧ (wordSI op d a i).extractLsb' 1 13 = i ∧
    (wordSI op d a i).extractLsb' 7 7 = i.extractLsb' 6 7 ∧ (wordSI op d a i).extractLsb' 1 6 = i.extractLsb' 0 6 ∧
    (wordSI op d a i).extractLsb' 0 1 = 0 :=
  ⟨field_above (field_above (field_above field_top)), field_above (field_above (field_above field_low)), field_above (field_above field_low),
    field_above field_low, field_above (extract_lo _ _ _ _ (by decide)), field_above (extract_lo _ _ _ _ (by decide)), field_low⟩
theorem fields_wordSB (op a : BitVec 6) (off : BitVec 20) :
    (wordSB op a off).extractLsb' 26 6 = op ∧ (wordSB op a off).extractLsb' 20 6 = a ∧ (wordSB op a off).extractLsb' 0 20 = off :=
  ⟨field_above field_top, field_above field_low, field_low⟩
theorem fields_wordSE (op d a b : BitVec 6) (sub : BitVec 3) (c : BitVec 5) :
    (wordSE op d a b sub c).extractLsb' 26 6 = op ∧ (wordSE op d a b sub c).extractLsb' 20 6 = d ∧
    (wordSE op d a b sub c).extractLsb' 14 6 = a ∧ (wordSE op d a b sub c).extractLsb' 8 6 = b ∧
    (wordSE op d a b sub c).extractLsb' 5 3 = sub ∧ (wordSE op d a b sub c).extractLsb' 0 5 = c :=
  ⟨field_above (field_above (field_above (field_above field_top))), field_above (field_above (field_above (field_above field_low))),
    field_above (field_above (field_above field_low)), field_above (field_above field_low), field_above field_low, field_low⟩
theorem fields_wordSX (op d a b c : BitVec 6) :
    (wordSX op d a b c).extractLsb' 26 6 = op ∧ (wordSX op d a b c).extractLsb' 20 6 = d ∧
    (wordSX op d a b c).extractLsb' 14 6 = a ∧ (wordSX op d a b c).extractLsb' 8 6 = b ∧
    (wordSX op d a b c).extractLsb' 2 6 = c ∧ (wordSX op d a b c).extractLsb' 0 2 = 0 :=
  ⟨field_above (field_above (field_above (field_above field_top))), field_above (field_above (field_above (field_above field_low))),
    field_above (field_above (field_above field_low)), field_above (field_above field_low), field_above field_low, field_low⟩
/-- The bit of IMM32 below the fields of a memory word (Table 1-2). -/
theorem reserved_wordSXMem (x : SXMem) : (wordSXMem x).extractLsb' 0 1 = 0 := field_low
/-- OP, SUB and the reserved bits of the words of form M-A and M-P (Table 1-4). -/
theorem fields_wordMA (op : BitVec 6) (w : MA) :
    (wordMA op w).extractLsb' 58 6 = op ∧ (wordMA op w).extractLsb' 54 4 = w.sub ∧ (wordMA op w).extractLsb' 0 2 = 0 := by
  refine ⟨?_, ?_, field_low⟩
  · iterate 14 refine field_above ?_
    exact field_top
  · iterate 14 refine field_above ?_
    exact field_low
theorem fields_wordMP (op : BitVec 6) (sub : BitVec 4) (w : MP) :
    (wordMP op sub w).extractLsb' 58 6 = op ∧ (wordMP op sub w).extractLsb' 54 4 = sub ∧ (wordMP op sub w).extractLsb' 0 30 = 0 := by
  refine ⟨?_, ?_, field_low⟩
  · iterate 7 refine field_above ?_
    exact field_top
  · iterate 7 refine field_above ?_
    exact field_low
/-- A system register's number lies in B and CTL, high bits first (Table 1-10). -/
theorem append_halves_sysNumber (n : BitVec 11) : n.extractLsb' 5 6 ++ n.extractLsb' 0 5 = n :=
  (BitVec.extractLsb'_append_extractLsb'_eq_extractLsb' (x := n) rfl).trans (by simp)
/-- A check that stands first and reports a subcode is passed where nothing is reported. -/
theorem not_of_ite_some_eq_none {p : Prop} [Decidable p] {e : Nat} {r : Option Nat} (h : (if p then some e else r) = none) : ¬p := by
  intro hp
  simp [hp] at h

/-! ## Each word splits into the instruction that it encodes -/

theorem rawScalar_of_encodeScalar {i : Instr} {w : W32} (h : encodeScalar i = some w) (hw : WellFormed i) :
    isSX w = false ∧ ∀ imm, rawScalar w imm = .ok i := by
  cases i <;> cases h
  all_goals
    simp [isSX, rawScalar, fields_wordSR, fields_wordSI, fields_wordSB, fields_wordSE, guard, rawCell00, rawCell02,
      rawCell20, rawCell21, rawCell22, rawCell23, rawCell24, rawCell25, rawCell26, rawCell27, rawCell28, rawCell29, rawCell2A]
  case scmp d a b c f => exact Nat.not_lt.1 (not_of_ite_some_eq_none hw)
  case sfcmp d a b c f => exact Nat.not_lt.1 (not_of_ite_some_eq_none hw)
  case sysr d n => exact append_halves_sysNumber n
  case sysw a n => exact append_halves_sysNumber n
  -- B, IMM13 and CTL hold two or three fields, or a field below zeros
  case sbfe | sbfi => exact ⟨field_top, field_low⟩
  case cpy | cpyg | rmatom | rmatomCas =>
    rw [field_highest (by decide), field_middle, field_low]
    simp
  all_goals
    rw [field_top, field_low]
    simp
theorem rawScalar_of_encodeSX {i : Instr} {w imm : W32} (h : encodeSX i = some (w, imm)) :
    isSX w = true ∧ rawScalar w imm = .ok i := by
  cases i <;> cases h
  all_goals simp [isSX, rawScalar, fields_wordSX, guard, rawSX, sxMemOf_word, reserved_wordSXMem]
  case satom d a b op x =>
    rw [field_top, field_low]
    simp
theorem rawLane_of_encodeLane {i : Instr} {w : W96} (h : encodeLane i = some w) : rawLane w = .ok i := by
  cases i <;> cases h
  case lend | wide | endw | lret => decide
  all_goals
    simp [laneCode, rawLane, opOf_wordL3, opOf_wordLI, l3Of_word, liOf_word, rawLane00, rawLane01, rawLane02, rawLane03, rawLane04,
      rawLane05, rawLane06, rawLane07, rawLane08, rawLane0A, rawLane0B, rawLane0D, rawLane0E, rawLane0F, rawLane10, rawLane18,
      rawLane20, rawLane21, rawLane22, rawLane23, rawLane24, rawLane25, rawLane26, rawLane28, rawLane30, rawLane31, rawLane32, rawLane33]
theorem rawMatrix_of_encodeMatrix {i : Instr} {w : W64} (h : encodeMatrix i = some w) (hw : WellFormed i) : rawMatrix w = .ok i := by
  cases i <;> cases h
  all_goals simp [rawMatrix, guard, fields_wordMA, fields_wordMP, maOf_word, mpOf_word, rawMC, wordMC]
  case mzero w => exact Nat.not_lt.1 (not_of_ite_some_eq_none hw)
  all_goals
    rename_i w
    have hsub : w.sub = 0 := not_not.1 (not_of_ite_some_eq_none hw)
    simp [hsub]

/-- What the kind of an instruction says of its four encoders. -/
theorem wordKind_cases (i : Instr) :
    (∃ w, wordKind i = .scalar ∧ encodeScalar i = some w ∧ encode i = some [w]) ∨
    (∃ w imm, wordKind i = .scalarX ∧ encodeSX i = some (w, imm) ∧ encode i = some [w, imm]) ∨
    (∃ w, wordKind i = .lane ∧ encodeLane i = some w ∧ encode i = some (split96 w)) ∨
    (∃ w, wordKind i = .matrix ∧ encodeMatrix i = some w ∧ encode i = some (split64 w)) ∨
    (wordKind i = .event ∧ encode i = none) := by
  unfold wordKind encode
  rcases encodeScalar i with _ | w
  · rcases encodeSX i with _ | ⟨w, imm⟩
    · rcases encodeLane i with _ | w
      · rcases encodeMatrix i with _ | w <;> simp
      · simp
    · simp
  · simp

/-- Settles O57: the word of each kind splits into the instruction that it encodes, and a well-formed one passes the checks on its fields. -/
theorem roundTrip : Obligations.RoundTrip := by
  intro i hw
  rcases wordKind_cases i with ⟨w, hk, he, hi⟩ | ⟨w, imm, hk, he, hi⟩ | ⟨w, hk, he, hi⟩ | ⟨w, hk, he, hi⟩ | ⟨hk, hi⟩ <;>
    simp only [hk, hi, reduceCtorEq, false_implies, true_implies, and_true, true_and]
  case inl =>
    obtain ⟨hx, hr⟩ := rawScalar_of_encodeScalar he hw
    exact ⟨w, rfl, hx, fun imm => by rw [decodeScalar, hr, checked_wellFormed hw]⟩
  case inr.inl =>
    obtain ⟨hx, hr⟩ := rawScalar_of_encodeSX he
    exact ⟨w, imm, rfl, hx, by rw [decodeScalar, hr, checked_wellFormed hw]⟩
  case inr.inr.inl => exact ⟨w, rfl, by rw [decodeLane, rawLane_of_encodeLane he, checked_wellFormed hw]⟩
  case inr.inr.inr.inl => exact ⟨w, rfl, by rw [decodeMatrix, rawMatrix_of_encodeMatrix he hw, checked_wellFormed hw]⟩

end Sys2Proof
end

section
/-! O7: hint words decode whatever their other fields hold, and have no effect. -/

namespace Sys2Proof.Machine
open Bits

/-- OP of a hint word is the cell's, whatever follows (R34). -/
theorem decodeScalar_hint (x : BitVec 26) (imm : W32) : decodeScalar (0x35#6 ++ x) imm = .ok .shint := by
  have hop : (0x35#6 ++ x).extractLsb' 26 6 = 0x35#6 := BitVec.extractLsb'_append_eq_left
  rw [decodeScalar, rawScalar]
  simp only [hop]
  rfl
theorem decodeLane_hint (vregs : Nat) (x : BitVec 89) : decodeLane vregs (0x7E#7 ++ x) = .ok .hint := by
  have hop : (0x7E#7 ++ x).extractLsb' 89 7 = 0x7E#7 := BitVec.extractLsb'_append_eq_left
  rw [decodeLane, rawLane]
  simp only [hop]
  rfl
theorem decodeMatrix_hint (x : BitVec 58) : decodeMatrix (0x3F#6 ++ x) = .ok .mhint := by
  have hop : (0x3F#6 ++ x).extractLsb' 58 6 = 0x3F#6 := BitVec.extractLsb'_append_eq_left
  rw [decodeMatrix, rawMatrix]
  simp only [hop]
  rfl

/-- No role is denied by an empty mask (R5). -/
theorem bit_zero (k : Nat) : bit 0 k = false := Nat.zero_testBit k
/-- A word that names no register waits for none (R216, R217). -/
theorem regCheck_nil (g : Group) (m keep : W32) : regCheck g m keep [] [] = none := by simp [regCheck]
/-- A word without a source leaves the latches as they were (R218). -/
theorem latched_nil (m : W32) (g : Group) : latched m [] g = g := by simp [latched]

/-- Settles O7: a hint word's body leaves the state as it is, and no check stands before it. -/
theorem hintWords : Obligations.HintWords := by
  refine ⟨⟨decodeScalar_hint, decodeLane_hint, decodeMatrix_hint⟩, ?_, ?_, ?_⟩
  · intro s c sl g ht hg
    have h : ScalarTurn s c sl g false 0 [] := ⟨ht, hg, nofun, bit_zero _, nofun⟩
    exact scalarRun_turn h 4 _
  · intro s c sl k g b ht hg hk hb
    have h : LaneTurn s c sl k g b 0 0#4 [] [] := ⟨ht, hg, hk, hb, bit_zero _, .inr (regCheck_nil ..)⟩
    change laneRun 0 0#4 [] [] (fun _ s => .next s) s = _
    rw [laneRun_turn h]
    rw [laneStart_latched, latched_nil]
    rfl
  · intro s c sl x q ht hx hq
    change execMhint s = _
    simp only [execMhint, seqRun, ht, hx, hq]
    rfl

end Sys2Proof.Machine
end

section
/-! O58: worked encodings decode to their instructions, and words of unassigned cells are refused. -/

namespace Sys2Proof

/-- A word of an unassigned cell is refused with its subcode whatever follows OP (R33, Table 1-13). -/
theorem decodeScalar_unassigned (x : BitVec 26) : decodeScalar (0x04#6 ++ x) 0 = .error 1 := by
  have hop : (0x04#6 ++ x).extractLsb' 26 6 = 0x04#6 := BitVec.extractLsb'_append_eq_left
  rw [decodeScalar, rawScalar]
  simp [hop, isSX, checked]
theorem decodeLane_fixedFunction (x : BitVec 89) : decodeLane 256 (0x40#7 ++ x) = .error 5 := by
  have hop : (0x40#7 ++ x).extractLsb' 89 7 = 0x40#7 := BitVec.extractLsb'_append_eq_left
  rw [decodeLane, rawLane]
  simp [hop, checked]
theorem decodeMatrix_unassigned (x : BitVec 58) : decodeMatrix (0x3E#6 ++ x) = .error 1 := by
  have hop : (0x3E#6 ++ x).extractLsb' 58 6 = 0x3E#6 := BitVec.extractLsb'_append_eq_left
  rw [decodeMatrix, rawMatrix]
  simp [hop, checked]

/-- Settles O58: each fixed word is decoded by evaluation, and OP alone refuses a word of an unassigned cell. -/
theorem decodedWords : Obligations.DecodedWords := by
  unfold Obligations.DecodedWords
  refine ⟨?_, ?_, ?_, ?_, ?_, ?_, ?_, ?_, ?_, ?_, decodeScalar_unassigned, decodeLane_fixedFunction, decodeMatrix_unassigned⟩ <;> decide

end Sys2Proof
end

section
/-! O56: a step runs the word that the party in turn stands at. -/

namespace Sys2Proof.Machine
open Bits

/-! ## Code bytes -/

/-- What a fetch leaves of the state that code and streams rest in: the memory, the groups and the blocks. -/
def CodeKept (s t : State) : Prop := t.mem = s.mem ∧ t.groups = s.groups ∧ t.blocks = s.blocks

theorem CodeKept.trans {s t u : State} (h : CodeKept s t) (k : CodeKept t u) : CodeKept s u :=
  ⟨k.1.trans h.1, k.2.1.trans h.2.1, k.2.2.trans h.2.2⟩
theorem codeKept_foldl {α : Type} {f : State → α → State} (h : ∀ s x, CodeKept s (f s x)) (l : List α) (s : State) :
    CodeKept s (l.foldl f s) := by
  induction l generalizing s with
  | nil => exact ⟨rfl, rfl, rfl⟩
  | cons x l ih => exact (h s x).trans (ih (f s x))
theorem codeKept_keepLeaf (p : Party) (s : State) (h : Hop) : CodeKept s (keepLeaf p s h) := by
  unfold keepLeaf; split <;> exact ⟨rfl, rfl, rfl⟩
theorem codeKept_keepLeaves (s : State) (p : Party) (hops : List Hop) : CodeKept s (keepLeaves s p hops) := by
  cases hops with
  | nil => exact ⟨rfl, rfl, rfl⟩
  | cons h l => exact (codeKept_keepLeaf p s h).trans (codeKept_foldl (codeKept_keepLeaf p) ..)
theorem codeKept_setRequests (s : State) (l : List Request) : CodeKept s { s with requests := l } := ⟨rfl, rfl, rfl⟩
theorem codeKept_countErrs (s : State) (us : List Nat) : CodeKept s (countErrs s us) := by
  unfold countErrs l2Read
  refine (codeKept_foldl ?_ _ s).trans (codeKept_foldl ?_ _ _) <;> exact fun _ _ => ⟨rfl, rfl, rfl⟩

/-- Bytes that all live in lines of this module ask no peer. -/
theorem spot_of_lines {hops : List Hop} {pas : List Nat} (hl : hops.map (·.spot) = pas.map .line) {h : Hop} (hh : h ∈ hops) :
    ∃ pa ∈ pas, h.spot = .line pa := by
  have hm : h.spot ∈ pas.map Spot.line := hl ▸ List.mem_map_of_mem hh
  obtain ⟨pa, hpa, he⟩ := List.mem_map.1 hm
  exact ⟨pa, hpa, he.symm⟩
theorem peerParts_of_lines {hops : List Hop} {pas : List Nat} (hl : hops.map (·.spot) = pas.map .line) : peerParts hops = [] := by
  unfold peerParts
  rw [List.filterMap_eq_nil_iff.2]
  · rfl
  · intro h hh
    obtain ⟨pa, -, he⟩ := spot_of_lines hl hh
    simp only [he]
/-- They are as their homes hold them (log 11). -/
theorem codeBytes_of_lines (s : State) (i : Issuer) (parts : List (Acc × List Hop)) {hops : List Hop} {pas : List Nat}
    (hl : hops.map (·.spot) = pas.map .line) : hops.map (codeByte s i parts) = pas.map (Memory.get s.mem) := by
  induction hops generalizing pas with
  | nil => cases pas <;> simp_all
  | cons h hops ih =>
    cases pas with
    | nil => simp at hl
    | cons pa pas =>
      simp only [List.map_cons, List.cons.injEq] at hl ⊢
      exact ⟨by simp [codeByte, hl.1], ih hl.2⟩
/-- A fetch whose bytes all live in this module, at homes that let it read and under checks that pass, gives the bytes of those homes. -/
theorem fetchCode_of_lines {z : Fetcher} {va n : Nat} {s : State} {hops : List Hop} {pas : List Nat}
    (hout : z.p.outside 0b100000 va n = none) (hr : route s z.p .exec va n = .ok hops) (hl : hops.map (·.spot) = pas.map .line)
    (hw : ∀ pa ∈ pas, homeWaits z.issuer.me (keepLeaves s z.p hops) pa false = none) (he : readErr (keepLeaves s z.p hops) hops = none) :
    ∃ v, fetchCode z va n s = .ok v (pas.map (Memory.get s.mem)) ∧ CodeKept s v := by
  have hkeep := codeKept_keepLeaves s z.p hops
  rw [← hkeep.1]
  unfold fetchCode
  simp only [hout, hr, peerParts_of_lines hl, List.foldl_nil, List.map_nil, strongFails, List.filterMap_nil]
  rw [List.findSome?_eq_none_iff.2]
  · simp only [he, codeBytes_of_lines _ _ _ hl]
    exact ⟨_, rfl, hkeep.trans ((codeKept_setRequests _ _).trans (codeKept_countErrs ..))⟩
  · intro h hh
    obtain ⟨pa, hpa, hs⟩ := spot_of_lines hl hh
    simp only [hs, hw pa hpa]

/-! ## Turns -/

theorem onNext_onNext (f g : State → State) (o : Out) : onNext f (onNext g o) = onNext (fun s => f (g s)) o := by cases o <;> rfl

/-- A scalar stream that is free to issue runs the word at its PC, or traps at it (R33). -/
theorem runScalar_word {s t : State} {c sl : Nat} {g : Group} {bits : W96} {len : Nat} {r : Except Nat Instr}
    (hg : s.group? c sl = some g) (hs : groupStopped s g (.scalar c sl) = false) (ht : trapWaits g = false) (hp : g.park = none)
    (hh : g.hold ≤ s.clock) (hf : fetchScalar (scalarFetcher s c sl g) g.spc s = .word t bits len r) :
    runScalar c sl s = match r with
      | .error sub => .next (stepped (endS c sl 0 (.trap t (illegal sub))) c sl)
      | .ok i => onNext (issuedScalar s c sl g) (exec i { t with word := bits }) := by
  unfold runScalar
  simp only [hg, hs, ht, hp, hf, Option.isSome_none, Bool.false_or, Bool.false_eq_true, if_false, Nat.not_lt.2 hh, decide_false]
  cases r <;> rfl
/-- The split that R325 picks runs the word at its PC, or traps at it (R33). -/
theorem runLane_word {s t v : State} {c sl k : Nat} {g h : Group} {b : LaneBlock} {bits : W96} {len : Nat} {r : Except Nat Instr}
    (hg : s.group? c sl = some g) (hv : laneTurn s c sl g = some v) (hh : v.group? c sl = some h) (ht : trapWaits h = false)
    (hk : pickSplit v.clock h = some k) (hb : h.lanes = some b)
    (hf : fetchLane (laneFetcher v c sl k h) (laneFetcher v c sl k h).p.nb.stage.vregs (b.at k).pc v = .word t bits len r) :
    runLane c sl s = match r with
      | .error sub => .next (stepped (endL c sl k h.trapMode (.trap t { illegal sub with mask := (laneFetcher v c sl k h).mask })) c sl)
      | .ok i => onNext (issuedLane v c sl k h (b.at k).pc) (exec i { t with word := bits }) := by
  unfold runLane
  simp only [hg, hv, hh, Option.getD_some, ht, hk, hb, hf, Bool.false_eq_true, if_false]
  cases r <;> rfl
/-- A sequencer that is not held runs the word at its PC, or stops at it once its words in flight are complete (R33, R259). -/
theorem runSeq_word {s t : State} {b : Nat} {x : Block} {q : Seq} {bits : W96} {len : Nat} {r : Except Nat Instr}
    (hx : s.block? b = some x) (hq : x.seq = some q) (hh : seqHeld s b x q = false) (hf : fetchMatrix b q.pc s = .word t bits len r) :
    runSeq b s = match r with
      | .error sub => .next (stopSeq t b (illegal sub))
      | .ok i => exec i { t with word := bits } := by
  unfold runSeq
  simp only [hx, hq, hh, hf, Bool.false_eq_true, if_false]
  cases r <;> rfl

/-- Settles O56: the turn of each party, with the bytes of its word and its decoder. -/
theorem stepRuns : Obligations.StepRuns := by
  intro s t c sl k sub len bits g b x q i here
  refine ⟨?_, ?_, ?_, ?_, ?_, ?_, ?_⟩
  · rintro hturn ⟨hg, hc, hsl, htrap⟩ hstop hpark hhold
    have hstep : step s = onNext advance (runScalar c sl s) := by simp [step, runTurn, hturn, hc, hsl]
    constructor <;> intro hf
    · rw [hstep, runScalar_word hg hstop htrap hpark hhold hf, onNext_onNext]
    · rw [hstep, runScalar_word hg hstop htrap hpark hhold hf]
      rfl
  · rintro v h hturn ⟨hg, hc, hsl, -⟩ hv hh htrap hk hb
    have hstep : step s = onNext advance (runLane c sl s) := by simp [step, runTurn, hturn, hc, hsl]
    constructor <;> intro hf
    · rw [hstep, runLane_word hg hv hh htrap hk hb hf, onNext_onNext]
    · rw [hstep, runLane_word hg hv hh htrap hk hb hf]
      rfl
  · intro hturn hc hk hx hq hheld
    have hstep : step s = onNext advance (runSeq (c * 8 + k) s) := by simp [step, runTurn, hturn, hc, hk]
    constructor <;> intro hf
    · rw [hstep, runSeq_word hx hq hheld hf]
    · rw [hstep, runSeq_word hx hq hheld hf]
      rfl
  · intro hturn hkind
    simp [step, runTurn, hturn, hkind]
  · intro z va n hops pas hout hr hl hw he
    exact fetchCode_of_lines hout hr hl hw he
  · intro z pc v v' bs bs' halign hf
    have hnot : ¬pc.toNat % 4 ≠ 0 := not_not.2 halign
    constructor
    · intro hx
      simp only [fetchScalar, if_neg hnot, hf, hx, Bool.false_eq_true, if_false]
    · intro hx hf'
      simp only [fetchScalar, if_neg hnot, hf, hx, if_true, hf']
  · intro z vregs pc v bs hf
    simp only [fetchLane, hf]

end Sys2Proof.Machine
end

section
/-! O35: a weak lane access whose lanes are ready and all performed is complete. -/

namespace Sys2Proof.Machine
open Bits Numbers

/-- A lane word whose body ends in a state is complete there. -/
theorem laneRun_next {s t : State} {c sl k : Nat} {g : Group} {b : LaneBlock} {deny : Nat} {prd : BitVec 4} {srcs : List Src}
    {dsts : List (Nat × Nat)} {body : LaneEnv → State → Res} (h : LaneTurn s c sl k g b deny prd srcs dsts)
    (hb : body (laneEnv s c sl k g b prd srcs) (laneStart s (laneEnv s c sl k g b prd srcs)) = .next t) :
    laneRun deny prd srcs dsts body s = .next (doneLane t c sl k) := by
  rw [laneRun_turn h, hb]
  rfl

/-- A split of an access notes that no lane of it is left. -/
def noneLeft (u : State) (e : LaneEnv) : State := updSplit u e.c e.sl e.k (fun x => { x with unfinished := some 0 })

section
variable {s u : State} {e : LaneEnv}

theorem weakLoad_performed {f : MemForm} (hf : f.gfe = 0)
    (hr : AccessReady s (laneIssuer s e) .read f.align apLane (f.loads e))
    (hp : performed s (laneIssuer s e) .read (f.loads e) (loadAcc (laneIssuer s e) (f.ch == 3)) = some u) :
    weakLoad f e s = .next (noneLeft u e) := by
  simp only [weakLoad, if_pos hf, weakAcc_lane rfl hr hp]
  rfl
/-- So is one with a granule qualifier (R158). -/
theorem weakLoad_granule_performed {f : MemForm} (hf : f.gfe ≠ 0)
    (hr : AccessReady s (laneIssuer s e) .read f.align apGranule (f.loads e))
    (hp : performed s (laneIssuer s e) .read (f.loads e) (gfeLoad (laneIssuer s e) (f.gfe == 2) e.g.trapMode) = some u) :
    weakLoad f e s = .next (noneLeft u e) := by
  simp only [weakLoad, if_neg hf, weakAcc_lane rfl hr hp]
  rfl
/-- The lanes that a store performs are those that act. -/
theorem accMask_stores (f : MemForm) (code : Nat) (i : Issuer) (hi : i.scalar = false) :
    accMask i (f.stores code e) = BitVec.ofNat 32 (maskOf e.acting) := by
  simp [accMask, hi, MemForm.stores, Function.comp_def]
/-- Every acting lane of a store that is performed draws (R68). -/
theorem weakStore_performed {f : MemForm} {code : Nat}
    (hr : AccessReady s (laneIssuer s e) .write f.align (if f.gfe = 3 then apGranule else apLane) (f.stores code e))
    (hp : performed s (laneIssuer s e) .write (f.stores code e) (storeAcc (laneIssuer s e) (f.ch == 3) (f.gfe == 3)) = some u) :
    weakStore f code e s =
      .next (noneLeft (u.updGroup e.c e.sl (fun h => h.drawn (BitVec.ofNat 32 (maskOf e.acting)) (f.draws code))) e) := by
  have hleft : accMask (laneIssuer s e) [] = 0 := rfl
  simp only [weakStore, weakRun_performed hr hp, hleft, accMask_stores f code (laneIssuer s e) rfl]
  rw [show ~~~(0 : W32) = BitVec.allOnes 32 from rfl, BitVec.and_allOnes]
  rfl
theorem laneAtomic_performed {w : L3} {l : List Acc} (hw : w.ord = 0)
    (hr : AccessReady s (laneIssuer s e) .atomic (2 ^ (w.aux.toNat % 8)) apLane l)
    (hp : performed s (laneIssuer s e) .atomic l (atomAcc (laneIssuer s e)) = some u) :
    laneAtomic w l e s = .next (noneLeft u e) := by
  simp only [laneAtomic, if_pos hw, weakAcc_lane rfl hr hp]
  rfl
end

/-- What a weak word of each kind runs (R139, R141). -/
theorem exec_ld_weak {w : L3} (ho : w.ord = 0) (s : State) : exec (.ld w) s =
    laneRun 2 w.prd [srcA w.toLaneHead 2] [(w.dst.toNat, (memL3 w).regs)] (fun e s => weakLoad (memL3 w) e s) s := by
  change execLd w s = _
  simp only [execLd, if_pos ho]
theorem exec_st_weak {w : L3} (ho : w.ord = 0) (s : State) : exec (.st w) s =
    laneRun 2 w.prd [srcA w.toLaneHead 2, srcB w.toLaneHead (memL3 w).regs] []
      (fun e s => weakStore (memL3 w) (rmCode w.rm e.sp.fmtr) e s) s := by
  change execSt w s = _
  simp only [execSt, if_pos ho]

/-- Settles O35: the word issues, its access is performed, and its split moves on. -/
theorem laneAccesses : Obligations.LaneAccesses := by
  intro s u c sl k g b w v f fi wp n one two pair trio env iss ready drawnBy
  refine ⟨fun ho ht => ⟨?_, ?_⟩, ?_, ?_, ?_, ?_, ?_⟩
  · rintro hf ⟨hr, hp⟩
    rw [exec_ld_weak ho]
    exact laneRun_next ht (weakLoad_performed hf hr hp)
  · rintro hf ⟨hr, hp⟩
    rw [exec_ld_weak ho]
    exact laneRun_next ht (weakLoad_granule_performed hf hr hp)
  · rintro ht hf ⟨hr, hp⟩
    exact laneRun_next ht (weakLoad_performed hf hr hp)
  · rintro ho ht ⟨hr, hp⟩
    rw [exec_st_weak ho]
    exact laneRun_next ht (weakStore_performed hr hp)
  · rintro ht ⟨hr, hp⟩
    change execStImm v s = _
    unfold execStImm
    exact laneRun_next ht (weakStore_performed hr hp)
  · rintro ho ht ⟨hr, hp⟩
    change execAtom w s = _
    unfold execAtom
    exact laneRun_next ht (laneAtomic_performed ho hr hp)
  · rintro ho ht ⟨hr, hp⟩
    change execCas w s = _
    unfold execCas
    exact laneRun_next ht (laneAtomic_performed ho hr hp)

end Sys2Proof.Machine
end

section
/-! O54: a lane word of a block of one split writes its register, moves its split on, and leaves everything else. -/

namespace Sys2Proof.Machine
open Bits

/-! ## Tables and lists -/

theorem NMap.modify_set {α : Type} (f : α → α) (m : NMap α) (k : Nat) (x : α) : NMap.modify f (NMap.set m k x) k = NMap.set m k (f x) := by
  induction m with
  | nil => simp [NMap.set, NMap.modify]
  | cons z m ih =>
    obtain ⟨j, v⟩ := z
    by_cases h : j = k
    · simp [NMap.set, NMap.modify, h]
    · by_cases h2 : k < j
      · simp [NMap.set, NMap.modify, h, h2]
      · simp [NMap.set, NMap.modify, h, h2, ih]
/-- A group that was put in its slot is changed there. -/
@[simp] theorem updGroup_setGroup (s : State) (c sl : Nat) (g : Group) (f : Group → Group) :
    (s.setGroup c sl g).updGroup c sl f = s.setGroup c sl (f g) := by
  simp [State.setGroup, State.updGroup, NMap.modify_set]
@[simp] theorem group?_setGroup (s : State) (c sl : Nat) (g : Group) : (s.setGroup c sl g).group? c sl = some g := by
  simp [State.group?, State.setGroup, NMap.get?_set]
theorem getElem?_setAt {α : Type} (l : List α) (k j : Nat) (x : α) :
    (setAt l k x)[j]? = if j = k ∧ k < l.length then some x else l[j]? := by
  induction l generalizing k j with
  | nil => simp [setAt]
  | cons y l ih => cases k <;> cases j <;> simp [setAt, ih]

/-! ## The splits of a lane block -/

theorem at_set (b : LaneBlock) (k j : Nat) (x : Split) : (b.set k x).at j = if j = k ∧ k < b.splits.length then x else b.at j := by
  simp only [LaneBlock.at, LaneBlock.set, getElem?_setAt]
  split <;> rfl
/-- A valid split has a slot. -/
theorem lt_of_valid {b : LaneBlock} {k : Nat} (h : (b.at k).valid = true) : k < b.splits.length := by
  by_contra hk
  simp [LaneBlock.at, List.getElem?_eq_none (Nat.not_lt.1 hk)] at h

/-- Two blocks that differ in how often their splits were passed over. -/
def SameSplits (b b' : LaneBlock) : Prop :=
  b'.joins = b.joins ∧ ∀ j, { b'.at j with passed := 0 } = { b.at j with passed := 0 }
theorem sameSplits_set (b : LaneBlock) (k n : Nat) : SameSplits b (b.set k { b.at k with passed := n }) := by
  refine ⟨rfl, fun j => ?_⟩
  rw [at_set]
  split
  · rename_i h; rw [h.1]
  · rfl
theorem SameSplits.trans {b b' b'' : LaneBlock} (h : SameSplits b b') (h' : SameSplits b' b'') : SameSplits b b'' :=
  ⟨h'.1.trans h.1, fun j => (h'.2 j).trans (h.2 j)⟩
theorem sameSplits_foldl {α : Type} {f : LaneBlock → α → LaneBlock} (h : ∀ b x, SameSplits b (f b x)) (l : List α) (b : LaneBlock) :
    SameSplits b (l.foldl f b) := by
  induction l generalizing b with
  | nil => exact ⟨rfl, fun _ => rfl⟩
  | cons x l ih => exact (h b x).trans (ih (f b x))
/-- The splits that are passed over count it, and nothing else of them changes (R325). -/
theorem sameSplits_passOver (clock : Nat) (g : Group) (b : LaneBlock) (k : Nat) : SameSplits b (passOver clock g b k) := by
  refine sameSplits_foldl (fun x j => ?_) _ b
  dsimp only
  split
  · exact sameSplits_set ..
  · split
    · exact sameSplits_set ..
    · exact ⟨rfl, fun _ => rfl⟩
theorem SameSplits.valid {b b' : LaneBlock} (h : SameSplits b b') (j : Nat) : (b'.at j).valid = (b.at j).valid := by
  have e := congrArg Split.valid (h.2 j)
  exact e
theorem SameSplits.pc {b b' : LaneBlock} (h : SameSplits b b') (j : Nat) : (b'.at j).pc = (b.at j).pc := by
  have e := congrArg Split.pc (h.2 j)
  exact e
theorem SameSplits.lone {b b' : LaneBlock} {k : Nat} (h : SameSplits b b') (hl : b.lone k) : b'.lone k :=
  ⟨h.1.trans hl.1, fun j hj hk => (h.valid j).trans (hl.2 j hj hk)⟩
theorem lone_set {b : LaneBlock} {k : Nat} (hl : b.lone k) (x : Split) : (b.set k x).lone k := by
  refine ⟨hl.1, fun j hj hk => ?_⟩
  rw [at_set, if_neg (fun h => hk h.1)]
  exact hl.2 j hj hk
/-- The split that issues is valid and not parked (R325). -/
theorem pickSplit_ready {clock : Nat} {g : Group} {b : LaneBlock} {k : Nat} (h : pickSplit clock g = some k) (hb : g.lanes = some b) :
    k < 4 ∧ readySplit clock g b k = true := by
  simp only [pickSplit, hb] at h
  split at h
  · rename_i j hj
    cases h
    have hpassed := List.find?_some hj
    rw [Bool.and_eq_true] at hpassed
    exact ⟨List.mem_range.1 (List.mem_of_find?_eq_some hj), hpassed.1⟩
  · exact ⟨List.mem_range.1 (List.mem_of_find?_eq_some h), List.find?_some h⟩

/-! ## A block of one split settles at once -/

section
variable {b : LaneBlock} {k : Nat} (hl : b.lone k)
include hl

theorem atJoin_lone : atJoin b = none := by
  refine List.findSome?_eq_none_iff.2 fun j _ => ?_
  dsimp only
  split
  · simp [hl.1, NMap.get?]
  · rfl
theorem ripe_lone (live : W32) : ripe live b = none := by
  simp [ripe, hl.1, NMap.findV]
theorem mergeable_lone : mergeable b = none := by
  refine List.find?_eq_none.2 fun p hp => ?_
  obtain ⟨i, hi, hp⟩ := List.mem_flatMap.1 hp
  obtain ⟨j, hj, rfl⟩ := List.mem_map.1 hp
  have hi := List.mem_range.1 hi
  have hj := List.mem_range.1 hj
  by_cases h : i = k
  · by_cases h' : j = k
    · simp [h, h']
    · simp [hl.2 j hj h']
  · simp [hl.2 i hi h]
theorem settle_lone (live : W32) (n : Nat) : settle live n b = b := by
  cases n with
  | zero => rfl
  | succ n => simp only [settle, atJoin_lone hl, ripe_lone hl, mergeable_lone hl]
theorem valids_lone (hk : k < 4) (hv : (b.at k).valid = true) : b.valids = [(k, b.at k)] := by
  have h (j : Nat) (hj : j < 4) : (b.at j).valid = decide (j = k) := by
    by_cases hjk : j = k
    · simp [hjk, hv]
    · simp [hjk, hl.2 j hj hjk]
  have hrange : List.range 4 = [0, 1, 2, 3] := rfl
  simp only [LaneBlock.valids, hrange, List.map_cons, List.map_nil, List.filter_cons, List.filter_nil, h 0 (by decide), h 1 (by decide),
    h 2 (by decide), h 3 (by decide)]
  interval_cases k <;> rfl
theorem meeting_lone (hk : k < 4) (hv : (b.at k).valid = true) (hp : (b.at k).park = none) : meeting b = none := by
  simp [meeting, valids_lone hl hk hv, parkedAt, hp]
end

/-! ## What a word keeps of its group -/

/-- What of a group neither a lane register nor a latch of one holds. -/
def Group.bare (g : Group) : Group := { g with vregs := [], latchA := none, latchB := none, latchC := none }
/-- What of it the issue of a lane word does not change either: all but the lane blocks and the split that issued last. -/
def Group.still (g : Group) : Group := { g.bare with lastSplit := 0, lb := none, tlb := none }

theorem still_of_bare {g h : Group} (e : h.bare = g.bare) : h.still = g.still := by
  have hs := congrArg Group.still e
  exact hs
theorem lanes_of_bare {g h : Group} (e : h.bare = g.bare) : h.lanes = g.lanes := by
  have hl := congrArg Group.lanes e
  exact hl
/-- A group that is still is the other with its own registers, latches and lane blocks. -/
theorem eq_of_still {g h : Group} (e : h.still = g.still) :
    { h with vregs := g.vregs, latchA := g.latchA, latchB := g.latchB, latchC := g.latchC, lastSplit := g.lastSplit, lb := g.lb, tlb := g.tlb } = g :=
  congrArg (fun x : Group => { x with
    vregs := g.vregs, latchA := g.latchA, latchB := g.latchB, latchC := g.latchC, lastSplit := g.lastSplit, lb := g.lb, tlb := g.tlb }) e
theorem still_setLanes (g : Group) (l : Option LaneBlock) : (g.setLanes l).still = g.still := by
  unfold Group.setLanes; split <;> rfl
theorem lanes_setLanes (g : Group) (l : Option LaneBlock) : (g.setLanes l).lanes = l := by
  unfold Group.setLanes Group.lanes; split <;> simp [*]
theorem vregs_setLanes (g : Group) (l : Option LaneBlock) : (g.setLanes l).vregs = g.vregs := by
  unfold Group.setLanes; split <;> rfl
theorem v_setLanes (g : Group) (l : Option LaneBlock) (r j : Nat) : (g.setLanes l).v r j = g.v r j := by
  simp only [Group.v, vregs_setLanes]
theorem setLanes_setLanes (g : Group) (l l' : Option LaneBlock) : (g.setLanes l).setLanes l' = g.setLanes l' := by
  unfold Group.setLanes; split <;> simp [*]
theorem still_issuing (g : Group) (k : Nat) : (g.issuing k).still = g.still := by
  unfold Group.issuing; split <;> rfl
theorem lanes_issuing (g : Group) (k : Nat) : (g.issuing k).lanes = g.lanes := by
  unfold Group.issuing; split <;> rfl
theorem vregs_issuing (g : Group) (k : Nat) : (g.issuing k).vregs = g.vregs := by
  unfold Group.issuing; split <;> rfl
theorem bare_foldl {α : Type} {f : Group → α → Group} (h : ∀ g x, (f g x).bare = g.bare) (l : List α) (g : Group) :
    (l.foldl f g).bare = g.bare := by
  induction l generalizing g with
  | nil => rfl
  | cons x l ih => exact (ih (f g x)).trans (h g x)
theorem bare_latch (r g : Group) (x : Src) : (Group.latch r g x).bare = g.bare := by
  unfold Group.latch; split <;> rfl
theorem bare_latched (m : W32) (srcs : List Src) (g : Group) : (latched m srcs g).bare = g.bare := by
  unfold latched
  split
  · rfl
  · exact bare_foldl (bare_latch _) srcs g
theorem bare_putLanes (g : Group) (pair : Bool) (r : Nat) (m : W32) (f : Nat → Nat) : (g.putLanes pair r m f).bare = g.bare := by
  unfold Group.putLanes
  refine bare_foldl (fun g i => ?_) _ g
  unfold Group.putWords
  refine bare_foldl ?_ _ g
  exact fun _ _ => rfl

/-! ## The registers that a word leaves -/

/-- A write of a register of a lane leaves the other lanes' and the other registers. -/
theorem v_setV_of_ne {g : Group} {r i r' j : Nat} (x : W32) (hi : i < 32) (hj : j < 32) (h : r' ≠ r ∨ j ≠ i) :
    (g.setV r i x).v r' j = g.v r' j := by
  have hne : ¬r * 32 + i = r' * 32 + j := by omega
  simp [Group.setV, Group.v, NMap.getD, NMap.get?_set, hne]
theorem v_foldl {α : Type} {f : Group → α → Group} {r j : Nat} {l : List α} (h : ∀ g, ∀ x ∈ l, (f g x).v r j = g.v r j) (g : Group) :
    (l.foldl f g).v r j = g.v r j := by
  induction l generalizing g with
  | nil => rfl
  | cons x l ih =>
    exact (ih (fun g y hy => h g y (List.mem_cons_of_mem _ hy)) _).trans (h g x List.mem_cons_self)
theorem mem_lanesOf {m : W32} {i : Nat} (h : i ∈ lanesOf m) : i < 32 ∧ m.getLsbD i = true := by
  obtain ⟨hi, hm⟩ := List.mem_filter.1 h
  exact ⟨List.mem_range.1 hi, hm⟩
/-- The registers of a value lie from its first on, two of them for a pair (R22). -/
theorem mem_regWords {pair : Bool} {d x : Nat} {y : Nat × W32} (h : y ∈ regWords pair d x) : d ≤ y.1 ∧ y.1 < d + if pair then 2 else 1 := by
  cases pair <;> simp only [regWords, if_true, Bool.false_eq_true, if_false, List.mem_cons, List.not_mem_nil, or_false] at h ⊢
  · subst h; omega
  · rcases h with rfl | rfl <;> simp
theorem v_putLanes {g : Group} {pair : Bool} {d : Nat} {m : W32} {f : Nat → Nat} {r j : Nat} (hj : j < 32)
    (h : m.getLsbD j = false ∨ r < d ∨ d + (if pair then 2 else 1) ≤ r) : (g.putLanes pair d m f).v r j = g.v r j := by
  refine v_foldl (fun g i hi => v_foldl (fun g y hy => ?_) g) g
  obtain ⟨hi32, him⟩ := mem_lanesOf hi
  obtain ⟨hlo, hhi⟩ := mem_regWords hy
  refine v_setV_of_ne _ hi32 hj ?_
  rcases h with hm | hr
  · refine .inr fun hji => ?_
    rw [hji, him] at hm
    cases hm
  · exact .inl (by omega)
/-- A guard that is never true lets no lane execute (R21). -/
theorem executing_never (g : Group) (b : LaneBlock) (k : Nat) : executing g b k 8#4 = 0 := by
  have hguard : guardMask g 8#4 = 0 := by simp [guardMask, Group.p]
  simp [executing, hguard]

/-! ## A word that writes registers in one split -/

/-- The split that has done its word. -/
def Split.after (x : Split) : Split := { x with pc := x.pc + 1, park := none, unfinished := none, rel := false }

/-- The only split of a block moves on, and nothing joins, merges or clashes (R327, R328, R330). -/
theorem doneLane_lone {s : State} {c sl k : Nat} {g : Group} {b : LaneBlock} (hb : g.lanes = some b) (hl : b.lone k) (hk : k < 4)
    (hv : (b.at k).valid = true) :
    doneLane (s.setGroup c sl g) c sl k = s.setGroup c sl (g.setLanes (some (b.set k (b.at k).after))) := by
  have hat : (b.set k (b.at k).after).at k = (b.at k).after := by rw [at_set, if_pos ⟨rfl, lt_of_valid hv⟩]
  have hl' := lone_set hl (b.at k).after
  have hv' : ((b.set k (b.at k).after).at k).valid = true := by rw [hat]; exact hv
  have hm : meeting (b.set k (b.at k).after) = none := meeting_lone hl' hk hv' (by rw [hat]; rfl)
  have hvs := valids_lone hl' hk hv'
  have hmove : updSplit (s.setGroup c sl g) c sl k (fun x => { x with pc := x.pc + 1, park := none, unfinished := none, rel := false }) =
      s.setGroup c sl (g.setLanes (some (b.set k (b.at k).after))) := by
    simp only [updSplit, updGroup_setGroup, hb]
    rfl
  have hsettled : (g.setLanes (some (b.set k (b.at k).after))).settled = g.setLanes (some (b.set k (b.at k).after)) := by
    simp only [Group.settled, lanes_setLanes, settle_lone hl', hvs, hm, setLanes_setLanes]
  have hclash : (g.setLanes (some (b.set k (b.at k).after))).clash = none := by
    simp only [Group.clash, lanes_setLanes, hvs, hm]
  simp only [doneLane, hmove, settleLanes, updGroup_setGroup, hsettled, group?_setGroup, hclash]
  cases (g.setLanes (some (b.set k (b.at k).after))).pendTrap <;> rfl

/-- An outcome is the completion of a word of split k of the block b of the group g that writes z registers from d on and nothing else. -/
def LaneFrame (o : Out) (s : State) (c sl k : Nat) (g : Group) (b : LaneBlock) (prd : BitVec 4) (d z : Nat) : Prop :=
  ∃ t, o = .next t ∧ { t with groups := s.groups } = s ∧ (∀ j, j ≠ c * 48 + sl → t.groups.get? j = s.groups.get? j) ∧
  ∃ h, t.group? c sl = some h ∧
    (∀ r j, j < 32 → (prd = 8#4 ∨ (executing g b k prd).getLsbD j = false ∨ r < d ∨ d + z ≤ r) → h.v r j = g.v r j) ∧
    h.lanes.map (fun b => (b.at k).pc) = some ((b.at k).pc + 1) ∧
    { h with vregs := g.vregs, latchA := g.latchA, latchB := g.latchB, latchC := g.latchC, lastSplit := g.lastSplit, lb := g.lb, tlb := g.tlb } = g

theorem laneFrame_setGroup {s : State} {c sl k : Nat} {g h : Group} {b : LaneBlock} {prd : BitVec 4} {d z : Nat}
    (hv : ∀ r j, j < 32 → ((executing g b k prd).getLsbD j = false ∨ r < d ∨ d + z ≤ r) → h.v r j = g.v r j)
    (hpc : h.lanes.map (fun b => (b.at k).pc) = some ((b.at k).pc + 1)) (hs : h.still = g.still) :
    LaneFrame (.next (s.setGroup c sl h)) s c sl k g b prd d z := by
  refine ⟨_, rfl, rfl, fun j hj => by simp [NMap.get?_set, Ne.symm hj], h, group?_setGroup .., fun r j hj hr => hv r j hj ?_, hpc, eq_of_still hs⟩
  rcases hr with rfl | hr
  · exact .inl (by simp [executing_never])
  · exact hr

/-- The state of a word that wrote registers, before its split moves on. -/
theorem wroteLanes_eq (s : State) (c sl k : Nat) (g : Group) (b : LaneBlock) (prd : BitVec 4) (srcs : List Src) (pair : Bool) (d : BitVec 8)
    (f : Nat → Nat) : wroteLanes s (laneEnv s c sl k g b prd srcs) pair d f = doneLane (s.setGroup c sl
      ((latched (executing g b k prd) srcs (atIssue s g b k)).putLanes pair d.toNat (executing g b k prd &&& keepers b) f)) c sl k := by
  unfold wroteLanes
  rw [laneStart_latched]
  exact congrArg (doneLane · c sl k) (updGroup_setGroup ..)
/-- A word that computes one value per executing lane is complete with that frame. -/
theorem laneFrame_laneMap {s : State} {c sl k : Nat} {g : Group} {b : LaneBlock} {deny : Nat} {h : LaneHead} {pair : Bool}
    {srcs : List Src} {f : LaneEnv → Nat → Nat} (hl : b.lone k)
    (ht : LaneTurn s c sl k g b deny h.prd srcs [(h.dst.toNat, if pair then 2 else 1)]) :
    LaneFrame (laneMap deny h pair srcs f s) s c sl k g b h.prd h.dst.toNat (if pair then 2 else 1) := by
  have ⟨_, _, hpick, hlanes, _⟩ := ht
  obtain ⟨hk, hready⟩ := pickSplit_ready hpick hlanes
  have hvalid : (b.at k).valid = true := by
    simp only [readySplit, Bool.and_eq_true] at hready
    exact hready.1.1
  have hsame := sameSplits_passOver s.clock g b k
  have hvalid' : ((passOver s.clock g b k).at k).valid = true := (hsame.valid k).trans hvalid
  rw [laneMap_turn ht, wroteLanes_eq]
  generalize f (laneEnv s c sl k g b h.prd srcs) = f
  generalize hG : (latched (executing g b k h.prd) srcs (atIssue s g b k)).putLanes pair h.dst.toNat (executing g b k h.prd &&& keepers b) f = G
  have hbare : G.bare = (atIssue s g b k).bare := hG ▸ (bare_putLanes ..).trans (bare_latched ..)
  have hGlanes : G.lanes = some (passOver s.clock g b k) := by rw [lanes_of_bare hbare, atIssue, lanes_issuing, lanes_setLanes]
  rw [doneLane_lone hGlanes (hsame.lone hl) hk hvalid']
  refine laneFrame_setGroup (fun r j hj hr => ?_) ?_ ?_
  · have hmask : (executing g b k h.prd &&& keepers b).getLsbD j = false ∨ r < h.dst.toNat ∨ h.dst.toNat + (if pair then 2 else 1) ≤ r := by
      rcases hr with hm | hr
      · exact .inl (by simp [hm])
      · exact .inr hr
    rw [v_setLanes, ← hG, v_putLanes hj hmask]
    simp only [Group.v, latched_vregs, atIssue, vregs_issuing, vregs_setLanes]
  · rw [lanes_setLanes, Option.map_some, at_set, if_pos ⟨rfl, lt_of_valid hvalid'⟩, Split.after, hsame.pc]
  · rw [still_setLanes, still_of_bare hbare, atIssue, still_issuing, still_setLanes]

/-- Settles O54: each word computes one value per executing lane. -/
theorem laneRegisterFrames : Obligations.LaneRegisterFrames := by
  intro s c sl k g b w v n m a1 a2 a3 v1 frame hl
  have hframe (i : Instr) (prd : BitVec 4) (d z : Nat) : LaneFrame (exec i s) s c sl k g b prd d z → frame i prd d z := id
  refine ⟨?_, ?_, ?_⟩
  all_goals
    simp only [List.forall_mem_cons, List.not_mem_nil, false_implies, implies_true, and_true]
    and_intros
    all_goals
      refine fun ht => hframe _ _ _ _ ?_
      dsimp only [exec, execIadd, execIsub, execImul, execImulh, execImin, execImax, execLand, execLor, execLxor, execSel, execIabs, execIneg,
        execLnot, execMov, execImad, execLaneid, execFadd, execFmul, execFfma, execFmin, execFmax, execDadd, execDmul, execDmin, execDmax,
        execIaddImm, execIsubImm, execImulImm, execIminImm, execImaxImm, execLandImm, execLorImm, execLxorImm, execMovi,
        li1, li2, li3, li2i, lf2, lf3]
      exact laneFrame_laneMap hl ht

end Sys2Proof.Machine
end

section
/-! O29: the conversions of a lane, the FMTR of a split, and the special values. -/

namespace Sys2Proof.Machine
open Bits

section
variable {s : State} {c sl k : Nat} {g : Group} {b : LaneBlock} {w : L3}

/-- LFMT takes the register of the lowest lane that acts (R225). -/
theorem execLfmt_of_cons {i : Nat} {l : List Nat} (ht : LaneTurn s c sl k g b 0 w.prd [srcA w.toLaneHead 1] [])
    (hl : lanesOf (executing g b k w.prd &&& keepers b) = i :: l) :
    let e := laneEnv s c sl k g b w.prd [srcA w.toLaneHead 1]
    execLfmt w s = .next (doneLane (updSplit (laneStart s e) c sl k (fun x => { x with fmtr := fmtrFix (e.g.v w.sa.toNat i) })) c sl k) := by
  unfold execLfmt
  refine laneRun_next ht ?_
  dsimp only [laneEnv]
  rw [hl]
/-- With no such lane it leaves FMTR. -/
theorem execLfmt_of_nil (ht : LaneTurn s c sl k g b 0 w.prd [srcA w.toLaneHead 1] [])
    (hl : lanesOf (executing g b k w.prd &&& keepers b) = []) :
    execLfmt w s = .next (doneLane (laneStart s (laneEnv s c sl k g b w.prd [srcA w.toLaneHead 1])) c sl k) := by
  unfold execLfmt
  refine laneRun_next ht ?_
  dsimp only [laneEnv]
  rw [hl]
end

/-- The issue of a word changes the table of groups alone, and no special value is read from there (Table 10-6). -/
theorem specValue_laneStart (s : State) (e : LaneEnv) : specValue (laneStart s e) e = specValue s e := rfl

/-- Settles O29: CVT writes and draws in one change of its group, LFMT looks at the first lane that acts, and the value that RDSPEC reads
is the same before and after its word issues. -/
theorem laneConversions : Obligations.LaneConversions := by
  intro s c sl k g b w a e e1 e0
  refine ⟨fun ht => ?cvt, fun i l ht hl => execLfmt_of_cons ht hl, fun ht hl => execLfmt_of_nil ht hl, fun ht => ?rdspec⟩
  case cvt =>
    change execCvt w s = _
    unfold execCvt
    exact laneRun_next ht rfl
  case rdspec =>
    change execRdspec w s = _
    unfold execRdspec
    rw [laneMap_turn ht, specValue_laneStart]

end Sys2Proof.Machine
end

section
/-! O18: SAPER and PPROBE write what they find, and TLBI drops translations and waits for the accesses that used them. -/

namespace Sys2Proof.Machine
open Bits

section
variable {s t : State} {c sl : Nat} {g : Group} {regs : List Nat}

/-- SAPER writes one register (R90). -/
theorem execSaper_turn {d a : BitVec 6} (h : ScalarTurn s c sl g false 0 [d.toNat, a.toNat]) :
    execSaper d a s = .next (wroteScalar s c sl 4 d (BitVec.ofNat 64 (apertureWord (partyOf s c sl g) (g.field a)))) := by
  unfold execSaper
  rw [scalarRun_turn h]
  simp only [endS, doneScalar_putS]

/-! ## The ends of a TLBI (R92) -/

/-- No access of the contexts it concerns is on its way once what the L1s hold of stores has been sent, so it does not park. -/
theorem tlbiWait_performed {who : Nat} (h : accessing (flushAll s).2 who = false) : tlbiWait s c sl who = .next (flushAll s).2 := by
  simp [tlbiWait, h]

/-- The contexts whose accesses a TLBI of a group waits for, as `concerns` reads them (R92). -/
def tlbiWho (s : State) (g : Group) (sset : Bool) : Nat := (s.nbhdOf g).ctx + if sset then 2 ^ 32 else 0

variable {sset : Bool} {f : Group → Nat → State → Option State}

/-- A TLBI that has nothing to drop is complete at once. -/
theorem tlbiRun_nothing (h : ScalarTurn s c sl g true 0 regs) (ha : g.arrived = none) (hf : f g (s.nbhdOf g).ctx s = none) :
    tlbiRun sset regs f s = .next (doneScalar s c sl 4) := by
  unfold tlbiRun
  rw [scalarRun_turn h]
  simp [ha, hf, endS]
/-- One that has just issued is complete after its drops. -/
theorem tlbiRun_dropped (h : ScalarTurn s c sl g true 0 regs) (ha : g.arrived = none) (hf : f g (s.nbhdOf g).ctx s = some t)
    (hw : accessing (flushAll t).2 (tlbiWho s g sset) = false) :
    tlbiRun sset regs f s = .next (doneScalar (flushAll t).2 c sl 4) := by
  have hnew : g.arrived ≠ some 1 := by simp [ha]
  unfold tlbiRun
  rw [scalarRun_turn h]
  simp only [if_neg hnew, hf]
  rw [← tlbiWho, tlbiWait_performed hw]
  rfl
/-- One that has waited has dropped its translations before, and drops none again. -/
theorem tlbiRun_waited (h : ScalarTurn s c sl g true 0 regs) (ha : g.arrived = some 1)
    (hw : accessing (flushAll s).2 (tlbiWho s g sset) = false) :
    tlbiRun sset regs f s = .next (doneScalar (flushAll s).2 c sl 4) := by
  unfold tlbiRun
  rw [scalarRun_turn h]
  simp only [if_pos ha]
  rw [← tlbiWho, tlbiWait_performed hw]
  rfl
end

/-- Settles O18: SAPER and PPROBE by what they write; TLBI by its three ends, with nothing to drop, after its drops, and after a wait. -/
theorem translationWords : Obligations.TranslationWords := by
  constructor
  · intro s c sl g d a k h va x
    have hfield : g.field a = va := rfl
    refine ⟨execSaper_turn (h.mono (by simp)), ?_⟩
    change (_ → execPprobe d a k s = _) ∧ (_ → execPprobe d a k s = _)
    rw [execPprobe, scalarRun_turn h]
    constructor
    · intro hlow
      simp only [hfield, if_neg (Nat.not_le.2 hlow), endS, beq_iff_eq]
      rfl
    · intro hhigh
      simp only [hfield, if_pos hhigh, endS]
  · intro s c sl g a b h ctx va n done ranged whole striped
    have hctx : ScalarTurn s c sl g true 0 [] := h.mono (by simp)
    have hsset : ScalarTurn s c sl g true 0 [a.toNat] := h.mono (by simp)
    refine ⟨fun ha hn => ?_, fun ha hn hw => ?_, fun ha hw => ?_, fun ha hw => ?_, fun ha hw => ?_⟩
    · change execTlbiRange a b s = _
      exact tlbiRun_nothing h ha (if_pos hn)
    · change execTlbiRange a b s = _
      exact tlbiRun_dropped h ha (if_neg hn) hw
    · change execTlbiCtx s = _
      exact tlbiRun_dropped hctx ha rfl hw
    · change execTlbiSset a s = _
      exact tlbiRun_dropped hsset ha rfl hw
    · change execTlbiCtx s = _
      exact tlbiRun_waited hctx ha hw

end Sys2Proof.Machine
end

section
/-! O21: words of keyed remote access, each by the premises under which it is complete or traps. -/

namespace Sys2Proof.Machine
open Bits

section
variable {s u : State} {c sl : Nat} {g : Group}

/-! ## RMPUT, RMGET and RMATOM -/

/-- A copy whose descriptor reads well, with its near side in one aperture and room in the engine, joins the open batch (R114). -/
theorem rmaRun_joins {a b : BitVec 6} {e : BitVec 1} {bs : List Byte} (kind : Nat) (h : ScalarTurn s c sl g false 4 [a.toNat, b.toNat])
    (hn : 1 ≤ (g.reg b).toNat) (hn' : (g.reg b).toNat ≤ 2 ^ 24)
    (hr : readRecord (scalarIssuer s c sl g) (g.reg a).toNat 32 32 s = .ok u bs) (hb : (rmaOf bs).bad = false)
    (ho : (scalarIssuer s c sl g).p.outside apScalar (rmaOf bs).laddr (g.reg b).toNat = none) (he : engineUsed u c e.toNat < 32) :
    rmaRun kind a b e s = .next (doneScalar
      (addCopy (if kind = 6 then holdChan u (chanKey (rmaOf bs).dev (rmaOf bs).key) (c * 48 + sl) else u) c sl
        (rmaCopy kind sl e.toNat (g.reg b).toNat g.spc (rmaOf bs))) c sl 4) := by
  have hlen : ¬((g.reg b).toNat = 0 ∨ 2 ^ 24 < (g.reg b).toNat) := by omega
  unfold rmaRun
  rw [scalarRun_turn h]
  simp only [field_reg, if_neg hlen, hr, hb, ho, if_neg (Nat.not_le.2 he), Bool.false_eq_true, if_false, endS]

variable {d a b : BitVec 6} {w : BitVec 1} {op : Nat} {r : Request}

/-- An RMATOM whose request is answered writes the old word (R115). -/
theorem rmatomRun_answered (h : ScalarTurn s c sl g false 0 [d.toNat, a.toNat, b.toNat]) (hr : rmatomOf s (scalarIssuer s c sl g) = some r)
    (hst : r.st = 1) :
    rmatomRun d a b w op s = .next (doneScalar (putS { s with requests := s.requests.filter (fun q => q.id != r.id) } c sl d
      (ofBytes (r.data.take (if w = 1 then 8 else 4)))) c sl 4) := by
  have hsent : r.st ≠ 0 := by omega
  unfold rmatomRun
  rw [scalarRun_turn h]
  simp only [hr, if_neg hsent, if_pos hst, endS]
/-- One whose request has failed traps with that failure (R115). -/
theorem rmatomRun_failed (h : ScalarTurn s c sl g false 0 [d.toNat, a.toNat, b.toNat]) (hr : rmatomOf s (scalarIssuer s c sl g) = some r)
    (hst : r.st = 2) :
    rmatomRun d a b w op s = .next (raise { s with requests := s.requests.filter (fun q => q.id != r.id) } c sl 0 0 true r.fail) := by
  have hsent : r.st ≠ 0 := by omega
  have hanswered : r.st ≠ 1 := by omega
  unfold rmatomRun
  rw [scalarRun_turn h]
  simp only [hr, if_neg hsent, if_neg hanswered, endS]

/-! ## RMFLUSH and FLUSHP -/

/-- RMFLUSH of a device that is not in the system traps before it waits (R116). -/
theorem execRmflush_absent (h : ScalarTurn s c sl g false 0 [a.toNat]) (ha : absent ((g.reg a).toNat % 16384) = true) :
    execRmflush a s = .next (raise s c sl 0 0 true { cause := 0x20, info := 2 }) := by
  unfold execRmflush
  rw [scalarRun_turn h]
  simp only [field_reg, ha, or_true, if_true, endS]
  rfl
/-- RMFLUSH of a peer to which nothing is on its way gives up the channels, and finds no failure to report (R107, R116). -/
theorem execRmflush_ended (h : ScalarTurn s c sl g false 0 [a.toNat]) (ha : absent ((g.reg a).toNat % 16384) = false)
    (hd : (g.reg a).toNat % 16384 ≠ s.devnum.toNat) (hp : rmaPending s c sl ((g.reg a).toNat % 16384) = false)
    (hf : ∀ f ∈ g.rmaFail, f.1 ≠ (g.reg a).toNat % 16384) :
    execRmflush a s = .next (doneScalar (endHolds s ((g.reg a).toNat % 16384) (c * 48 + sl)) c sl 4) := by
  have hnone : g.rmaFail.find? (fun f => f.1 == (g.reg a).toNat % 16384) = none := by simpa using hf
  unfold execRmflush
  rw [scalarRun_turn h]
  simp only [field_reg, hd, ha, hp, hnone, Bool.false_eq_true, or_self, if_false, endS]
/-- FLUSHP of a drained group is complete where no posted store of it to the device is on its way or has failed (R119). -/
theorem execFlushp_placed (h : ScalarTurn s c sl g false 0 [a.toNat]) (hd : g.drained = true)
    (hp : postedPending (sendContrib s c (some ((g.reg a).toNat % 16384))) c sl (some ((g.reg a).toNat % 16384)) = false)
    (ht : takePosted (sendContrib s c (some ((g.reg a).toNat % 16384))) c sl (some ((g.reg a).toNat % 16384)) = none) :
    execFlushp a s = .next (doneScalar (sendContrib s c (some ((g.reg a).toNat % 16384))) c sl 4) := by
  unfold execFlushp
  rw [scalarRun_turn h]
  simp only [field_reg, hd, hp, ht, Bool.not_true, Bool.false_eq_true, if_false, endS]

/-! ## KEYSET and KEYREV -/

section
variable {rights : BitVec 3} {p : Part}

/-- The range of a KEYSET passes its checks: aligned, of 64 bytes to 2^40, within the address space, and every page grants the rights (R117). -/
structure KeyRange (s : State) (sl : Nat) (g : Group) (va n : Nat) (rights : BitVec 3) : Prop where
  aligned : va % 64 = 0 ∧ n % 64 = 0
  size : 1 ≤ n ∧ n ≤ 2 ^ 40
  within : va + n ≤ 2 ^ 52
  granted : ∀ j < (va + n + 4095) / 4096 - va / 4096,
    keyFault s (s.nbhdOf g).ctx rights.toNat (sl == Config.agentSlot) (max va ((va / 4096 + j) * 4096)) = none

/-- Such a range is no illegal operand, and no page of it reports a fault. -/
theorem KeyRange.not_illegal {va n : Nat} (h : KeyRange s sl g va n rights) : ¬(va % 64 ≠ 0 ∨ n % 64 ≠ 0 ∨ n = 0 ∨ 2 ^ 40 < n) := by
  obtain ⟨hva, hn⟩ := h.aligned
  obtain ⟨hpos, hmax⟩ := h.size
  omega
theorem KeyRange.no_fault {va n : Nat} (h : KeyRange s sl g va n rights) :
    (List.range ((va + n + 4095) / 4096 - va / 4096)).findSome? (fun j =>
      keyFault s (s.nbhdOf g).ctx rights.toNat (sl == Config.agentSlot) (max va ((va / 4096 + j) * 4096))) = none :=
  List.findSome?_eq_none_iff.2 fun j hj => h.granted j (List.mem_range.1 hj)

variable (h : ScalarTurn s c sl g false 0 [d.toNat, a.toNat, b.toNat]) (hp : s.part? (s.nbhdOf g).part = some p)
  (hk : KeyRange s sl g (g.reg a).toNat (g.reg b).toNat rights)
include h hp hk

/-- KEYSET writes the lowest free entry with the next tag, and the key that names it (R105, R117). -/
theorem execKeyset_allocates {e : Nat} (hf : freeKey p = some e) :
    execKeyset d a b rights s = .next (doneScalar (putS (s.updPart (s.nbhdOf g).part (fun q =>
      { q with
        keyTag := (p.keyTag + 1) % 65536
        keys := q.keys.set e { tag := (p.keyTag + 1) % 65536, ctx := (s.nbhdOf g).ctx, vbase := (g.reg a).toNat, len := (g.reg b).toNat, rights := rights.toNat } }))
      c sl d ((p.keyTag + 1) % 65536 * 65536 + (s.nbhdOf g).part * 4096 + e)) c sl 4) := by
  unfold execKeyset
  rw [scalarRun_turn h]
  simp only [field_reg, if_neg hk.not_illegal, if_neg (Nat.not_lt.2 hk.within), hk.no_fault, hp, hf, endS]
/-- With no entry free it writes 0 (R117). -/
theorem execKeyset_full (hf : freeKey p = none) : execKeyset d a b rights s = .next (wroteScalar s c sl 4 d 0) := by
  unfold execKeyset
  rw [scalarRun_turn h]
  simp only [field_reg, if_neg hk.not_illegal, if_neg (Nat.not_lt.2 hk.within), hk.no_fault, hp, hf, endS]
  exact congrArg Host.Outcome.next (doneScalar_putS s c sl 4 d 0)
end

/-- KEYREV of a key of the context revokes its entry and closes its channels (R109, R118). -/
theorem execKeyrev_own {p : Part} {k : Key} (h : ScalarTurn s c sl g false 0 [a.toNat]) (hp : s.part? (s.nbhdOf g).part = some p)
    (hlow : (g.reg a).toNat < 2 ^ 32) (hk : p.keys.get? ((g.reg a).toNat % 4096) = some k) (htag : k.tag = (g.reg a).toNat / 65536)
    (hpart : (g.reg a).toNat / 4096 % 16 = (s.nbhdOf g).part) (hctx : k.ctx = (s.nbhdOf g).ctx) (hrev : k.revoked = false) :
    execKeyrev a s = .next (doneScalar
      { s.updPart (s.nbhdOf g).part (fun p => { p with keys := p.keys.set ((g.reg a).toNat % 4096) { k with revoked := true } }) with
        tchans := s.tchans.keep (fun t _ => t % 2 ^ 32 != (g.reg a).toNat) } c sl 4) := by
  have hown : k.tag = (g.reg a).toNat / 65536 ∧ (g.reg a).toNat / 4096 % 16 = (s.nbhdOf g).part ∧ k.ctx = (s.nbhdOf g).ctx ∧
      (!k.revoked) = true ∧ (g.reg a).toNat < 2 ^ 32 := ⟨htag, hpart, hctx, by simp [hrev], hlow⟩
  unfold execKeyrev
  rw [scalarRun_turn h]
  simp only [field_reg, Nat.mod_eq_of_lt hlow, hp, Option.bind_some, hk, if_pos hown, endS]
  rfl
end

/-- Settles O21: the copies, the RMATOM with its two ends, the flushes, and the keys. -/
theorem remoteWords : Obligations.RemoteWords := by
  refine ⟨?copies, ?atomics, ?flushes, ?keys⟩
  case copies =>
    intro s u c sl g a b e bs h i n x hn hn' hr hb ho he
    exact ⟨rmaRun_joins 6 h hn hn' hr hb ho he, rmaRun_joins 7 h hn hn' hr hb ho he⟩
  case atomics =>
    intro s c sl g d a b w op r h hr u
    simp only [List.forall_mem_cons, List.not_mem_nil, false_implies, implies_true, and_true]
    exact ⟨fun hst => ⟨rmatomRun_answered h hr hst, rmatomRun_answered h hr hst⟩,
      fun hst => ⟨rmatomRun_failed h hr hst, rmatomRun_failed h hr hst⟩⟩
  case flushes =>
    intro s c sl g a h dev sent
    refine ⟨fun hd hp hf => ?_, execFlushp_placed h⟩
    split
    next ha => exact execRmflush_absent h ha
    next ha => exact execRmflush_ended h (eq_false_of_ne_true ha) hd hp hf
  case keys =>
    intro s c sl g d a b r p e k h hp nb va n tag
    refine ⟨fun hva hn hpos hmax hin hg => ?_, execKeyrev_own (h.mono (by simp)) hp⟩
    have hk : KeyRange s sl g va n r := ⟨⟨hva, hn⟩, ⟨hpos, hmax⟩, hin, hg⟩
    exact ⟨execKeyset_allocates h hp hk, execKeyset_full h hp hk⟩

end Sys2Proof.Machine
end

section
/-! O47: the events of a link, and what a response, or none, does with a request. -/

namespace Sys2Proof.Machine
open Bits

/-! ## Links -/

section
variable {s : State} {l : Link} (hl : s.links.get? s.input.port = some l) (hu : l.up = true)
include hl hu

/-- A change of the link at the port of an event, where it is up. -/
theorem onLink_up {f : Link → Option Link} {l' : Link} (hf : f l = some l') :
    onLink f s = some { s with links := s.links.set s.input.port l' } := by
  simp only [onLink, hl, Option.bind_some, if_pos hu, hf, Option.map_some]
/-- XOFF and XON of a channel (R96). -/
theorem execXoff_up (hv : s.input.vc < 13) :
    exec .xoff s = .next { s with links := s.links.set s.input.port { l with xoff := setBit l.xoff s.input.vc true } } :=
  event_some (onLink_up hl hu (if_pos hv))
theorem execXon_up (hv : s.input.vc < 13) :
    exec .xon s = .next { s with links := s.links.set s.input.port { l with xoff := setBit l.xoff s.input.vc false } } :=
  event_some (onLink_up hl hu (if_pos hv))
theorem execPortXoff_up :
    exec .portXoff s = .next { s with links := s.links.set s.input.port { l with xoff := l.xoff ||| 0xFFF } } :=
  event_some (onLink_up hl hu rfl)

/-- The head packet of a channel whose timer has run out moves to ESC (R101). -/
theorem execProgressTimerExpiry_due {p : Packet} {rest : List Packet} (hq : takePacket s.input.vc l.queue = some (p, rest))
    (hv : s.input.vc < 12) (hd : l.since.getD s.input.vc 0 + 76800 ≤ s.clock) :
    let t : State := { s with links := s.links.set s.input.port { l with queue := rest, since := l.since.set s.input.vc s.clock } }
    exec .progressTimerExpiry s = .next (pushPacket t ((escapePort t p.dev).getD s.input.port) { p with vc := 12 }) := by
  have hdue : ¬((!l.up) = true ∨ 12 ≤ s.input.vc ∨ s.clock < l.since.getD s.input.vc 0 + progressClocks) := by
    simp only [hu, Bool.not_true, Bool.false_eq_true, false_or, progressClocks]
    omega
  change execProgressTimerExpiry s = _
  refine event_some ?_
  simp only [hl, Option.bind_some, hq, if_neg hdue]

/-- The link once a flit that passes its check has its place in the input buffer (R96, R110). -/
def flitHeld (s : State) (l : Link) : Link := Link.hold s.input.port (s.input.vc % 13) 1 { l with fails := 0 }
/-- What a flit does at a link that is up: it stays in the buffer inside a packet, its packet is taken out or passed on at its end, and one
that fails its check is sent again or takes the link down (R96 to R98, R110). -/
theorem execFlitReceive_up :
    exec .flitReceive s = .next (
      if s.input.ok = true then
        if s.input.op = 0 then { s with links := s.links.set s.input.port (flitHeld s l) }
        else if s.input.x % 16384 = s.devnum.toNat then { s with
          links := s.links.set s.input.port (Link.release s.input.port (s.input.vc % 13) (1 + s.input.len % 5) (flitHeld s l)) }
        else passOn { s with links := s.links.set s.input.port (flitHeld s l) }
          { vc := s.input.vc % 13, flits := 1 + s.input.len % 5, dev := s.input.x % 16384, ref := 0, kind := 9, inp := some (s.input.port, s.input.vc % 13) }
      else if l.fails = 16 then linkDown s s.input.port l
      else { s with links := s.links.set s.input.port { l with fails := l.fails + 1 } }) := by
  have hup : ¬(!l.up) = true := by simp [hu]
  change execFlitReceive s = _
  refine event_some ?_
  rw [hl, Option.bind_some, if_neg hup]
  by_cases hok : s.input.ok = true
  · rw [if_neg (by simp [hok]), if_pos hok]
    simp only [apply_ite some, flitHeld]
  · rw [if_pos (by simp [hok]), if_neg hok]
    simp only [apply_ite some]
end

/-! ## Responses and resends -/

section
variable {s : State} {r : Request}

/-- A response ends the request that it answers (R103). -/
theorem execAckReceive_answered (ha : answered s = some r) : exec .ackReceive s = .next (acknowledged (noteEntry s r) r s.input.bytes) := by
  change execAckReceive s = _
  exact event_some (by rw [ha, Option.map_some])
/-- RETRY sends it again (R104). -/
theorem execRetryReceive_answered (ha : answered s = some r) :
    exec .retryReceive s = .next (updRequest s r.id (fun r => { r with routed := false, left := false, since := s.clock })) := by
  change execRetryReceive s = _
  exact event_some (by rw [ha, Option.map_some, resend])
/-- A refusal that names no other cause is REMOTE_NACK with its subcode (R106). -/
theorem execNackReceive_answered (ha : answered s = some r) (hy : s.input.y % 256 = 0) (hk : r.kind ≠ 8) :
    exec .nackReceive s = .next (requestFails s r { cause := 0x20, info := BitVec.ofNat 64 (s.input.op % 256) }) := by
  change execNackReceive s = _
  refine event_some ?_
  simp only [ha, Option.map_some, hy, if_true, if_neg hk, Nat.add_zero]

/-- The resend timer of a request of these kinds runs out 200 µs after it was sent (R108). -/
theorem resend_due (h6 : r.kind ≠ 6) (h7 : r.kind ≠ 7) (hd : r.since + 240000 ≤ s.clock) :
    ¬(r.kind = 6 ∨ r.kind = 7 ∨ s.clock < r.since + resendClocks) := by
  simp only [h6, h7, false_or, resendClocks]
  omega

variable (hr : s.requests.find? (fun r => r.id == s.input.x && r.st == 0) = some r) (h6 : r.kind ≠ 6) (h7 : r.kind ≠ 7)
  (hd : r.since + 240000 ≤ s.clock)
include hr h6 h7 hd

/-- It is sent again three times, and then fails (R108). -/
theorem execResendTimerExpiry_again (hn : r.resends < 3) :
    exec .resendTimerExpiry s = .next (updRequest (resend s r.id) r.id (fun r => { r with resends := r.resends + 1 })) := by
  change execResendTimerExpiry s = _
  refine event_some ?_
  simp only [hr, Option.bind_some, if_neg (resend_due h6 h7 hd), if_pos hn]
theorem execResendTimerExpiry_fails (hn : 3 ≤ r.resends) : exec .resendTimerExpiry s = .next (requestFails s r { cause := 0x21 }) := by
  change execResendTimerExpiry s = _
  refine event_some ?_
  simp only [hr, Option.bind_some, if_neg (resend_due h6 h7 hd), if_neg (Nat.not_lt.2 hn)]
end

/-- Settles O47: the events of a link that is up, the tree, and the ends and resends of a request. -/
theorem linkEvents : Obligations.LinkEvents := by
  intro s l p rest r i onPort vc flits held
  refine ⟨fun hl hu => ?_, rfl, fun ha => ?_, fun hr h6 h7 hd => ?_⟩
  · refine ⟨fun hv => ⟨execXoff_up hl hu hv, execXon_up hl hu hv⟩, execPortXoff_up hl hu, execProgressTimerExpiry_due hl hu, ?_⟩
    rw [execFlitReceive_up hl hu]
    refine ⟨fun hok ho => ?_, fun hok ho hx => ?_, fun hok ho hx => ?_, fun hok hf => ?_, fun hok hf => ?_⟩
    · rw [if_pos hok, if_pos ho]; rfl
    · rw [if_pos hok, if_neg ho, if_pos hx]; rfl
    · rw [if_pos hok, if_neg ho, if_neg hx]; rfl
    · rw [if_neg (ne_true_of_eq_false hok), if_neg hf]
    · rw [if_neg (ne_true_of_eq_false hok), if_pos hf]
  · exact ⟨execAckReceive_answered ha, execRetryReceive_answered ha, execNackReceive_answered ha⟩
  · exact ⟨execResendTimerExpiry_again hr h6 h7 hd, execResendTimerExpiry_fails hr h6 h7 hd⟩

end Sys2Proof.Machine
end

section
/-! O48: requests of peers at their target, and keyed segments in their window. -/

namespace Sys2Proof.Machine
open Bits

/-! ## What an access of a peer does at its home -/

section
variable {s u : State} {part dev tag vc pa : Nat}

/-- A request that is not sent onward needs no FWD slot (R112). -/
theorem withSlot_here (h : s.input.op ≠ 1) (f : State → Option State) : withSlot s pa dev tag vc f = f s := by
  simp [withSlot, forwardSlot, h]
/-- A write that is performed leaves the place where it waited, and what follows it is answered (R104, R308). -/
theorem toldPeer_done (good : State → State) :
    toldPeer s part dev tag vc pa (.done u) good = some (good (leavePlaces u (.peer dev tag))) := rfl
theorem peerWrite_done {l : List (Nat × Byte)} (h : homeAll (fromPeer dev tag) (peerWho dev) (byLine l) s = .done u) (good : State → State) :
    peerWrite s part dev tag vc l good = some (good (leavePlaces u (.peer dev tag))) := by
  rw [peerWrite, h, toldPeer_done]

section
variable {pas : List Nat} (hw : ∀ a ∈ pas, homeWaits (fromPeer dev tag) s a false = none)
include hw

/-- A read that no home slice holds, and whose bytes pass their check, goes on; one whose check fails is answered so (R104, R111). -/
theorem peerRead_sound (he : errIn (leavePlaces s (.peer dev tag)) (pas.map memUnit).dedup = none) (good : State → Option State) :
    peerRead s dev tag vc pas good = good (countErrs (leavePlaces s (.peer dev tag)) (pas.map memUnit).dedup) := by
  simp only [peerRead, List.findSome?_eq_none_iff.2 hw, he]
theorem peerRead_failed {e : Nat} (he : errIn (leavePlaces s (.peer dev tag)) (pas.map memUnit).dedup = some e) (good : State → Option State) :
    peerRead s dev tag vc pas good = some (nack (leavePlaces s (.peer dev tag)) dev tag 0x18 e vc) := by
  simp only [peerRead, List.findSome?_eq_none_iff.2 hw, he]
end

/-- The state in which a peer's atomic finds the old value: its waiting place left, and the corrected bits of its units counted. -/
def atomStart (s : State) (dev tag pa n : Nat) : State :=
  countErrs (leavePlaces s (.peer dev tag)) ([pa, pa + n - 1].map memUnit).dedup
/-- The bytes that it writes there, if any. -/
def atomCells (s : State) (pa : Nat) (a : Acc) : List (Nat × Byte) :=
  ((atomNew a (Memory.le s.mem pa a.n)).map (fun v => cellsAt pa (bytesOf a.n v))).getD []

/-- An atomic that is performed writes the new value, if any, and the old one is answered (R86, R103). -/
theorem peerAtom_done {a : Acc} (hfirst : homeWaits (fromPeer dev tag) s pa false = none)
    (hlast : homeWaits (fromPeer dev tag) s (pa + a.n - 1) false = none)
    (he : errIn (leavePlaces s (.peer dev tag)) ([pa, pa + a.n - 1].map memUnit).dedup = none)
    (hd : homeAt (fromPeer dev tag) (peerWho dev) pa (atomCells (atomStart s dev tag pa a.n) pa a) (atomStart s dev tag pa a.n) = .done u)
    (good : State → List Byte → State) :
    peerAtom s part dev tag vc pa a good =
      some (good (leavePlaces u (.peer dev tag)) (bytesOf a.n (Memory.le (atomStart s dev tag pa a.n).mem pa a.n))) := by
  have hw : ∀ x ∈ [pa, pa + a.n - 1], homeWaits (fromPeer dev tag) s x false = none := by simp [hfirst, hlast]
  simp only [atomCells, atomStart] at hd ⊢
  simp only [peerAtom, peerRead_sound hw he, hd, toldPeer_done]
end

/-! ## Loads, stores and atomics of peers -/

section
variable {s u : State}

/-- An access outside the exported range is refused before anything else is looked at (R103). -/
theorem execRemoteLoadRequest_refused (hop : s.input.req.op ≠ 2)
    (hx : exported s s.input.part s.input.req.addr s.input.req.len = false) :
    exec .remoteLoadRequest s = .next (refuse s s.input.part s.input.req false) := by
  change execRemoteLoadRequest s = _
  refine event_some ?_
  simp only [if_neg hop, hx, Bool.not_false, if_true]
theorem execRemoteStoreArrival_refused (hx : exported s s.input.part s.input.req.addr s.input.req.len = false) :
    exec .remoteStoreArrival s = .next (refuse s s.input.part s.input.req true) := by
  change execRemoteStoreArrival s = _
  refine event_some ?_
  simp only [hx, Bool.not_false, if_true]

/-- A load within the exported range reads its bytes at their home (R103, R104). -/
theorem execRemoteLoadRequest_exported (hop : s.input.req.op ≠ 2)
    (hx : exported s s.input.part s.input.req.addr s.input.req.len = true) (hi : s.input.op ≠ 1) {t : State}
    (hr : peerRead s s.input.req.srcDev s.input.req.tag (rspOf s.input.vc) ((List.range s.input.req.len).map (s.input.req.addr + ·))
      (fun v => some (answerFar v s.input.req (rspOf s.input.vc) (Memory.read v.mem s.input.req.addr s.input.req.len))) = some t) :
    exec .remoteLoadRequest s = .next t := by
  change execRemoteLoadRequest s = _
  refine event_some ?_
  simp only [if_neg hop, hx, Bool.not_true, Bool.false_eq_true, if_false, withSlot_here hi, hr]
/-- A posted store that is performed is acknowledged, with the deposit of a release (R103, R130). -/
theorem execRemoteStoreArrival_done (hx : exported s s.input.part s.input.req.addr s.input.req.len = true) (hok : s.input.ok = true)
    (hi : s.input.op ≠ 1)
    (hd : homeAll (fromPeer s.input.req.srcDev s.input.req.tag) (peerWho s.input.req.srcDev) (byLine (storeCells s.input.req)) s = .done u) :
    let v := leavePlaces u (.peer s.input.req.srcDev s.input.req.tag)
    exec .remoteStoreArrival s = .next (answer (if s.input.req.rel then deposit v s.input.req.addr s.input.req.sig else v)
      s.input.req.srcDev 0 s.input.req.tag 0 [] (rspOf s.input.vc)) := by
  change execRemoteStoreArrival s = _
  refine event_some ?_
  simp only [hx, hok, Bool.not_true, Bool.false_eq_true, if_false, withSlot_here hi, peerWrite_done hd]
/-- An atomic within the exported range is performed at its home (R103). -/
theorem execRemoteAtomicRequest_exported {t : State}
    (hx : exported s s.input.part s.input.req.addr (carriedAtom s.input.req.op s.input.req.x s.input.req.y).n = true) (hi : s.input.op ≠ 1)
    (ha : peerAtom s s.input.part s.input.req.srcDev s.input.req.tag (rspOf s.input.vc) s.input.req.addr
      (carriedAtom s.input.req.op s.input.req.x s.input.req.y) (fun v old =>
        answerFar (if s.input.req.rel then deposit v s.input.req.addr s.input.req.sig else v) s.input.req (rspOf s.input.vc) old) = some t) :
    exec .remoteAtomicRequest s = .next t := by
  change execRemoteAtomicRequest s = _
  refine event_some ?_
  simp only [hx, Bool.not_true, Bool.false_eq_true, if_false, withSlot_here hi, ha]
end

/-! ## Segments and closes of a channel -/

/-- A segment that fails a check of Table 5-4 is answered with its subcode. -/
theorem segmentArrival_refused {s : State} {g : RmaSegment} {sub : Nat} (hr : segRefused s g = some sub) (sound : Bool) :
    segmentArrival s g sound = some (nack s g.srcDev g.tag 0x20 sub (if g.kind = 5 then 5 else 2)) := by
  simp only [segmentArrival, hr]

/-- A segment of RMPUT whose bytes are written is acknowledged (R106). -/
theorem segRun_put {s u : State} {g : RmaSegment} {part : Nat} {pas : List Nat} (hkind : g.kind = 3)
    (hd : homeAll (fromPeer g.srcDev g.tag) (peerWho g.srcDev) (byLine (pas.zip g.data)) s = .done u) (good : State → State) :
    segRun s g part pas good = some (answer (good (leavePlaces u (.peer g.srcDev g.tag))) g.srcDev 0 g.tag 0 [] 2) := by
  simp only [segRun, hkind, peerWrite_done hd]
/-- The channel of a segment at its target holds what the segment leaves of it (R107). -/
def withChan (s : State) (g : RmaSegment) (c : TChan) : State := { s with tchans := s.tchans.set (tchanKey g.srcDev g.key) c }

section
variable {s u : State} {g : RmaSegment} {part : Nat} {k : Key} {c c' : TChan} {sound : Bool} (hr : segRefused s g = none)
  (hk : keyOf s g.key = some (part, k)) (hkind : g.kind = 3) (hc : channelFor s g = some c) (hinc : c.inc = g.incarnation)
include hr hk hkind hc hinc

/-- A segment of RMPUT below the window is refused, and one that was placed before is acknowledged again (R107). -/
theorem segmentArrival_stale (hw : c.window g.seq = .stale) : segmentArrival s g sound = some (nack s g.srcDev g.tag 0x20 5 2) := by
  simp only [segmentArrival, hr, hk, if_pos hkind, hc, if_neg (not_not.2 hinc), hw]
theorem segmentArrival_twice (hw : c.window g.seq = .twice c') :
    segmentArrival s g sound = some (answer (withChan s g c') g.srcDev 0 g.tag 0 [] 2) := by
  simp only [segmentArrival, hr, hk, if_pos hkind, hc, if_neg (not_not.2 hinc), hw, withChan]
/-- A new one finds the window moved, and counts as placed once its bytes are written (R106, R107). -/
theorem segmentArrival_fresh {pas : List Nat} (hw : c.window g.seq = .fresh c') (hok : sound = true) (hi : s.input.op ≠ 1)
    (hp : segPlaces (withChan s g { c' with placed := c'.placed.filter (· != g.seq) }) k.ctx .write (k.vbase + g.roff) g.data.length = some pas)
    (hd : homeAll (fromPeer g.srcDev g.tag) (peerWho g.srcDev) (byLine (pas.zip g.data))
      (withChan s g { c' with placed := c'.placed.filter (· != g.seq) }) = .done u) :
    segmentArrival s g sound = some (answer (withChan (leavePlaces u (.peer g.srcDev g.tag)) g c') g.srcDev 0 g.tag 0 [] 2) := by
  have hright : segAccess g.kind = .write := by rw [hkind]; rfl
  have hi' : (withChan s g { c' with placed := c'.placed.filter (· != g.seq) }).input.op ≠ 1 := hi
  have hsize : segSize g = g.data.length := by simp [segSize, hkind]
  simp only [segmentArrival, hr, hk, if_pos hkind, hc, if_neg (not_not.2 hinc), hw, hok, Bool.not_true, Bool.false_eq_true, if_false, hright, hsize]
  rw [← withChan, hp]
  exact (withSlot_here hi' _).trans (segRun_put hkind hd _)
end

/-- A close of the channel's incarnation frees it (R107). -/
theorem closeArrival_frees {s : State} {g : RmaSegment} {c : TChan} (hc : s.tchans.get? (tchanKey g.srcDev g.key) = some c)
    (hinc : c.inc = g.incarnation) :
    closeArrival s g = some (answer { s with tchans := s.tchans.erase (tchanKey g.srcDev g.key) } g.srcDev 0 g.tag 0 [] 8) := by
  simp only [closeArrival, hc, Option.bind_some, if_pos hinc]

/-- The two events answer what the segment, or the close, leaves. -/
theorem execRmaSegmentArrival_some {s t : State} (h : segmentArrival s s.input.seg s.input.ok = some t) :
    exec .rmaSegmentArrival s = .next t := by
  change execRmaSegmentArrival s = _
  exact event_some h
theorem execRmaChannelClose_some {s t : State} (h : closeArrival s s.input.seg = some t) : exec .rmaChannelClose s = .next t := by
  change execRmaChannelClose s = _
  exact event_some h

/-- Settles O48: accesses outside the exported range, each access within it, and the segments and the close of a channel. -/
theorem targetEvents : Obligations.TargetEvents := by
  intro s u part k c c' pas sub i r g a tk vc placed us lu au me here t old
  refine ⟨execRemoteLoadRequest_refused, execRemoteStoreArrival_refused, ?load, execRemoteStoreArrival_done, ?atomic,
    fun hr => execRmaSegmentArrival_some (segmentArrival_refused hr _), ?put,
    fun hc hinc => execRmaChannelClose_some (closeArrival_frees hc hinc)⟩
  case load =>
    intro hop hx hw hi
    have hfree : ∀ x ∈ (List.range r.len).map (r.addr + ·), homeWaits (fromPeer r.srcDev r.tag) s x false = none := by
      simpa using hw
    exact ⟨fun he => execRemoteLoadRequest_exported hop hx hi (peerRead_sound hfree he _),
      fun e he => execRemoteLoadRequest_exported hop hx hi (peerRead_failed hfree he _)⟩
  case atomic =>
    intro hx hfirst hlast hi he hd
    exact execRemoteAtomicRequest_exported hx hi (peerAtom_done hfirst hlast he hd _)
  case put =>
    intro hr hk hkind hc hinc moved
    refine ⟨fun hw => execRmaSegmentArrival_some (segmentArrival_stale hr hk hkind hc hinc hw),
      fun hw => execRmaSegmentArrival_some (segmentArrival_twice hr hk hkind hc hinc hw),
      fun hw hok hi => ?_⟩
    intro v hp hd
    exact execRmaSegmentArrival_some (segmentArrival_fresh hr hk hkind hc hinc hw hok hi hp hd)

end Sys2Proof.Machine
end

section
/-! O34: a weak scalar access whose bytes translate, and which is performed, is complete. -/

namespace Sys2Proof.Machine
open Bits

/-- A scalar word whose body ends in a state is complete there. -/
theorem scalarRun_next {s t : State} {c sl : Nat} {g : Group} {priv : Bool} {deny len : Nat} {regs : List Nat}
    {body : Nat → Nat → Group → Res} (h : ScalarTurn s c sl g priv deny regs) (hb : body c sl g = .next t) :
    scalarRun priv deny len regs body s = .next (doneScalar t c sl len) := by
  rw [scalarRun_turn h, hb]
  rfl

section
variable {s u : State} {c sl : Nat} {g : Group} {a : Acc}

theorem scalarLoad_performed (hr : AccessReady s (scalarIssuer s c sl g) .read a.n apScalar [a])
    (hp : performed s (scalarIssuer s c sl g) .read [a] (loadAcc (scalarIssuer s c sl g) false) = some u) :
    scalarLoad a c sl g s = .next u :=
  weakAcc_scalar rfl hr hp
theorem scalarStore_performed (hr : AccessReady s (scalarIssuer s c sl g) .write a.n apScalar [a])
    (hp : performed s (scalarIssuer s c sl g) .write [a] (storeAcc (scalarIssuer s c sl g) false false) = some u) :
    scalarStore a c sl g s = .next u :=
  weakAcc_scalar rfl hr hp
theorem scalarAtomic_performed {x : SXMem} (hx : x.ord = 0) (hr : AccessReady s (scalarIssuer s c sl g) .atomic a.n apScalar [a])
    (hp : performed s (scalarIssuer s c sl g) .atomic [a] (atomAcc (scalarIssuer s c sl g)) = some u) :
    scalarAtomic x a c sl g s = .next u := by
  rw [scalarAtomic, if_pos hx]
  exact weakAcc_scalar rfl hr hp

variable {d base : BitVec 6} {i : BitVec 13} {x : SXMem}

theorem exec_sld_performed (ht : ScalarTurn s c sl g false 0 [d.toNat, base.toNat])
    (hr : AccessReady s (scalarIssuer s c sl g) .read 8 apScalar [loadOf g d base (i.signExtend 64) 8 false])
    (hp : performed s (scalarIssuer s c sl g) .read [loadOf g d base (i.signExtend 64) 8 false] (loadAcc (scalarIssuer s c sl g) false) = some u) :
    exec (.sld d base i) s = .next (doneScalar u c sl 4) := by
  rw [← sext_eq] at hr hp
  exact scalarRun_next ht (scalarLoad_performed hr hp)
theorem exec_sst_performed (ht : ScalarTurn s c sl g false 0 [d.toNat, base.toNat])
    (hr : AccessReady s (scalarIssuer s c sl g) .write 8 apScalar [storeOf g d base (i.signExtend 64) 8])
    (hp : performed s (scalarIssuer s c sl g) .write [storeOf g d base (i.signExtend 64) 8]
      (storeAcc (scalarIssuer s c sl g) false false) = some u) :
    exec (.sst d base i) s = .next (doneScalar u c sl 4) := by
  rw [← sext_eq] at hr hp
  exact scalarRun_next ht (scalarStore_performed hr hp)

/-- What the S-X forms of a weak access run (R144). -/
theorem execSldX_weak (hx : x.ord = 0) : execSldX d base x s = scalarRun false 0 8 [d.toNat, base.toNat]
    (fun c sl g => scalarLoad (loadOf g d base (x.off.signExtend 64) (2 ^ x.wid.toNat) (x.sgn == 1)) c sl g s) s := by
  simp only [execSldX, if_pos hx, sext_eq]
theorem execSstX_weak (hx : x.ord = 0) : execSstX d base x s = scalarRun false 0 8 [d.toNat, base.toNat]
    (fun c sl g => scalarStore (storeOf g d base (x.off.signExtend 64) (2 ^ x.wid.toNat)) c sl g s) s := by
  simp only [execSstX, if_pos hx, sext_eq]

end

/-- Settles O34: the word issues, and its access is performed by a weak load, a weak store or a weak atomic. -/
theorem scalarAccesses : Obligations.ScalarAccesses := by
  intro s u c sl g d a b n op i x ht hx p w off l t lx tx ax cx
  have hda : ScalarTurn s c sl g false 0 [d.toNat, a.toNat] := ht.mono (by simp)
  refine ⟨exec_sld_performed hda, exec_sst_performed hda, fun hr hp => ?sldX, fun hr hp => ?sstX, fun hr hp => ?satom, fun hr hp => ?scas⟩
  case sldX => exact (execSldX_weak hx).trans (scalarRun_next hda (scalarLoad_performed hr hp))
  case sstX => exact (execSstX_weak hx).trans (scalarRun_next hda (scalarStore_performed hr hp))
  case satom =>
    change execSatom d a b op x s = _
    unfold execSatom
    rw [sext_eq]
    exact scalarRun_next (ht.mono (by simp)) (scalarAtomic_performed hx hr hp)
  case scas =>
    change execScas d a b n x s = _
    unfold execScas
    rw [sext_eq]
    exact scalarRun_next ht (scalarAtomic_performed hx hr hp)

end Sys2Proof.Machine
end

section
/-! O22: FENCE of both streams, LINV and LWB. -/

namespace Sys2Proof.Machine
open Bits

/-- The state that a FENCE leaves after its release: the L1 purged, every bit of SIG set, and with P or H the partition purged (R135). -/
def fenced (u : State) (c sl obs : Nat) : State :=
  let v := fullSig (purgeL1 c u) c sl
  if hasPH obs then purgePartition (dieOf c) v else v

/-- A FENCE whose release is done, with no load of its group in flight, goes on where its invalidation is complete. -/
theorem fenceRun_released {s u : State} {i : Issuer} {obs : Nat} {mask : W32} (hr : releaseSteps s i.c i.sl obs = .ok u)
    (hl : ∀ l ∈ (u.core i.c).loads, l.slot ≠ i.sl) :
    fenceRun i obs mask s = if invalidating (fenced u i.c i.sl obs) i.c (hasPH obs)
      then finishWait i (fenced u i.c i.sl obs) (.invalidation i.c (hasPH obs)) else .next (fenced u i.c i.sl obs) := by
  have hnone : (u.core i.c).loads.any (fun l => l.slot == i.sl) = false := by simpa using hl
  simp only [fenceRun, hr, hnone, Bool.false_eq_true, if_false]
  rfl

section
variable {s u : State} {c sl : Nat} {g : Group} {o : BitVec 5}

/-- A FENCE that has not waited before runs its steps. -/
theorem exec_fence_new (h : ScalarTurn s c sl g false 0 []) (ha : g.arrived = none) :
    exec (.fence o) s = .next (endS c sl 4 (fenceRun (scalarIssuer s c sl g) o.toNat 0 s)) := by
  change execFence o s = _
  simp only [execFence, scalarRun_turn h, ha, reduceCtorEq, if_false]
theorem exec_fence_done (h : ScalarTurn s c sl g false 0 []) (ha : g.arrived = none) (hr : releaseSteps s c sl o.toNat = .ok u)
    (hl : ∀ l ∈ (u.core c).loads, l.slot ≠ sl) (hi : invalidating (fenced u c sl o.toNat) c (hasPH o.toNat) = false) :
    exec (.fence o) s = .next (doneScalar (fenced u c sl o.toNat) c sl 4) := by
  rw [exec_fence_new h ha, fenceRun_released (i := scalarIssuer s c sl g) hr hl, if_neg (by simpa [scalarIssuer] using hi)]
  rfl
theorem exec_fence_waits (h : ScalarTurn s c sl g false 0 []) (ha : g.arrived = none) (hr : releaseSteps s c sl o.toNat = .ok u)
    (hl : ∀ l ∈ (u.core c).loads, l.slot ≠ sl) (hi : invalidating (fenced u c sl o.toNat) c (hasPH o.toNat) = true) :
    exec (.fence o) s = .next (((fenced u c sl o.toNat).updGroup c sl (fun h => { h with arrived := some 1 })).updGroup c sl
      (fun h => { h with park := some ⟨11, .invalidation c (hasPH o.toNat)⟩ })) := by
  rw [exec_fence_new h ha, fenceRun_released (i := scalarIssuer s c sl g) hr hl, if_pos (by simpa [scalarIssuer] using hi)]
  rfl
end

section
variable {s u : State} {c sl k : Nat} {g : Group} {b : LaneBlock} {w : L3}

theorem exec_laneFence_idle (h : LaneTurn s c sl k g b 0 w.prd [] []) (ha : (laneEnv s c sl k g b w.prd []).acting = []) :
    exec (.laneFence w) s = .next (doneLane (laneStart s (laneEnv s c sl k g b w.prd [])) c sl k) := by
  change execLaneFence w s = _
  unfold execLaneFence
  exact laneRun_next h (by simp only [ha, List.isEmpty_nil, if_true])
theorem exec_laneFence_done (h : LaneTurn s c sl k g b 0 w.prd [] []) (ha : (laneEnv s c sl k g b w.prd []).acting ≠ [])
    (hr : releaseSteps (laneStart s (laneEnv s c sl k g b w.prd [])) c sl w.obs.toNat = .ok u)
    (hl : ∀ l ∈ (u.core c).loads, l.slot ≠ sl) (hi : invalidating (fenced u c sl w.obs.toNat) c (hasPH w.obs.toNat) = false) :
    exec (.laneFence w) s = .next (doneLane (fenced u c sl w.obs.toNat) c sl k) := by
  change execLaneFence w s = _
  unfold execLaneFence
  refine laneRun_next h ?_
  have hacts : (laneEnv s c sl k g b w.prd []).acting.isEmpty = false := by simpa using ha
  rw [hacts, if_neg Bool.false_ne_true]
  refine (fenceRun_released hr hl).trans (if_neg ?_)
  rw [Bool.not_eq_true]
  exact hi
end

section
variable {s : State} {c sl : Nat} {g : Group} {a b : BitVec 6} {drop : Bool}

/-- The lines that LINV or LWB names, written back one after another, and dropped by LINV (R145). -/
def swept (s : State) (c sl : Nat) (g : Group) (a b : BitVec 6) (drop : Bool) : Bool × State :=
  (linesOver s (partyOf s c sl g) (g.reg a).toNat (g.reg b).toNat).foldl (lineOp c drop) (true, s)

theorem lineRun_none (h : ScalarTurn s c sl g false 0 [a.toNat, b.toNat]) (hn : (g.reg b).toNat = 0) :
    lineRun drop a b s = .next (doneScalar s c sl 4) :=
  scalarRun_next h (by simp only [field_reg, hn, if_true])
theorem lineRun_swept (h : ScalarTurn s c sl g false 0 [a.toNat, b.toNat]) (ha : g.arrived = none) (h1 : 1 ≤ (g.reg b).toNat)
    (h32 : (g.reg b).toNat ≤ 2 ^ 32) (h52 : (g.reg a).toNat + (g.reg b).toNat ≤ 2 ^ 52) (hs : (swept s c sl g a b drop).1 = true)
    (hp : (linesOver s (partyOf s c sl g) (g.reg a).toNat (g.reg b).toNat).findSome? (unplaced (swept s c sl g a b drop).2 c) = none) :
    lineRun drop a b s = .next (doneScalar (swept s c sl g a b drop).2 c sl 4) := by
  refine scalarRun_next h ?_
  simp only [swept] at hs hp ⊢
  simp only [field_reg, ha, reduceCtorEq, if_false, if_neg (show ¬(g.reg b).toNat = 0 by omega), if_neg (Nat.not_lt.2 h32),
    if_neg (Nat.not_lt.2 h52), hs, hp, Bool.not_true, Bool.false_eq_true]
end

/-- Settles O22: FENCE by whether its invalidation is complete; LINV and LWB by the lines that they name. -/
theorem fenceWords : Obligations.FenceWords := by
  refine ⟨fun s u c sl g o h ha hr hl => ?_, fun s u c sl k g b w h => ?_, fun s c sl g a b h ha => ?_⟩
  · exact ⟨exec_fence_done h ha hr hl, exec_fence_waits h ha hr hl⟩
  · exact ⟨exec_laneFence_idle h, exec_laneFence_done h⟩
  · exact ⟨fun hn => ⟨lineRun_none h hn, lineRun_none h hn⟩, fun h1 h32 h52 =>
      ⟨lineRun_swept (drop := true) h ha h1 h32 h52, lineRun_swept (drop := false) h ha h1 h32 h52⟩⟩

end Sys2Proof.Machine
end

section
/-! O42: write-backs in place, fills that return, and remote lines whose age has expired. -/

namespace Sys2Proof.Machine
open Bits

theorem leavePlaces_input (s : State) (w : SliceParty) : (leavePlaces s w).input = s.input := by
  unfold leavePlaces
  split <;> rfl

section
variable {s : State} {f : Fill} {byte : Nat → Byte}

theorem exec_maskedWriteback_line {l : L1Line} (hl : (s.core s.input.core).l1.get? s.input.addr = some l) :
    exec .maskedWriteback s = .next
      (if s.input.ok then invalidateLine s.input.core s.input.addr s else writeBack s.input.core s.input.addr s).2 := by
  change execMaskedWriteback s = _
  exact event_some (by simp only [hl, Option.map_some])
theorem exec_remoteLineAgeExpiry_sent {y : RemoteLine} (hy : (s.die s.input.die).rlines.get? s.input.x = some y)
    (ho : s.input.ok = false) (hd : y.dirty ≠ 0) (ha : y.since + 16384 ≤ s.clock) :
    exec .remoteLineAgeExpiry s = .next (sendLine s s.input.die s.input.x) := by
  change execRemoteLineAgeExpiry s = _
  exact event_some (by simp only [hy, Option.bind_some, ho, Bool.false_eq_true, if_false, if_pos (And.intro hd ha)])

/-! ## A fill that returns to its core

Its outcome turns on whether its home holds it, and, where it does not, on the memory that its bytes come from. -/

/-- The state that a fill which returns leaves its places and its list in. -/
def fillTaken (s : State) (f : Fill) : State := leavePlaces { s with fills := s.fills.erase f } (.fill s.input.core f.line)

variable (hf : s.fills.find? (fun f => f.core == s.input.core && f.line == s.input.addr) = some f)
include hf

theorem exec_fillReturn_held {k : Nat} (hk : fillHeld s f = some k) : exec .fillReturn s = .next
    (if fillPlaced s f then s else joinPlace k (.fill s.input.core f.line) 0 s) := by
  change execFillReturn s = _
  by_cases hp : fillPlaced s f = true
  · rw [if_pos hp]
    exact event_none (by simp only [hf, Option.bind_some, hk, if_pos hp])
  · rw [if_neg hp]
    exact event_some (by simp only [hf, Option.bind_some, hk, if_neg hp])

variable (hk : fillHeld s f = none) (hb : fillBytes s f = some byte)
include hk hb

theorem exec_fillReturn_local (hl : f.line < 2 ^ 58) :
    let v := fillTaken s f
    let w := countErrs v (lineUnits v s.input.core f.line)
    let u := if f.noAlloc || (errIn w (lineUnits v s.input.core f.line)).isSome then w else fillLine w s.input.core f.line byte
    exec .fillReturn s = .next
      (feedLoads u s.input.core f.line (lineByte u s.input.core f.line) (lineBad v s.input.core f.line)) := by
  intro v w u
  change execFillReturn s = _
  exact event_some (by simp only [hf, Option.bind_some, hk, hb, Option.map_some, if_pos hl]; rfl)
theorem exec_fillReturn_peer (hl : 2 ^ 58 ≤ f.line) (ho : s.input.ok = true) :
    exec .fillReturn s = .next (feedLoads
      (if f.noAlloc then fillTaken s f else fillLine (fillTaken s f) s.input.core f.line byte) s.input.core f.line byte) := by
  change execFillReturn s = _
  exact event_some (by
    simp only [hf, Option.bind_some, hk, hb, Option.map_some, if_neg (Nat.not_lt.2 hl), leavePlaces_input, ho, if_true]
    rfl)
theorem exec_fillReturn_peer_lost (hl : 2 ^ 58 ≤ f.line) (ho : s.input.ok = false) :
    exec .fillReturn s = .next (failLoads (fillTaken s f) s.input.core
      (Load.without (integrity s.input.op 0) (fun b => b.line == f.line && b.got.isNone))) := by
  change execFillReturn s = _
  exact event_some (by
    simp only [hf, Option.bind_some, hk, hb, Option.map_some, if_neg (Nat.not_lt.2 hl), leavePlaces_input, ho, Bool.false_eq_true,
      if_false]
    rfl)

end

/-- Settles O42: the event's line or fill is there, and the input and the place of its home choose its end. -/
theorem cacheEvents : Obligations.CacheEvents := by
  intro s l f y byte c
  refine ⟨exec_maskedWriteback_line, fun hf => ⟨fun k hk => exec_fillReturn_held hf hk, fun hk hb => ⟨?_, ?_, ?_⟩⟩,
    exec_remoteLineAgeExpiry_sent⟩
  · exact exec_fillReturn_local hf hk hb
  · exact exec_fillReturn_peer hf hk hb
  · exact exec_fillReturn_peer_lost hf hk hb

end Sys2Proof.Machine
end

section
/-! O37: prefetches, granules of the scratchpads, and the spill stack. -/

namespace Sys2Proof.Machine
open Bits

section
variable {s : State} {c sl k : Nat} {g : Group} {b : LaneBlock} {w : L3}

/-! ## Granules (R162, R163) -/

/-- The granules that a lane of FEZ or FESET names: 16 bytes each, from its address on. -/
def granuleRange (w : L3) (e : LaneEnv) (i : Nat) : Acc :=
  { lane := i, va := e.ea w.toLaneHead 0 i, n := 16 * (e.g.v w.sb.toNat i).toNat, conv := .lane 0 0 0 0 }
/-- The first granule of a lane of FEQ. -/
def firstGranule (w : L3) (e : LaneEnv) (i : Nat) : Acc :=
  { lane := i, va := e.ea w.toLaneHead 0 i, n := 16, conv := .lane 0 0 0 0 }

theorem granuleRun_turn {fill : Bool}
    (h : LaneTurn s c sl k g b 2 w.prd [srcA w.toLaneHead 2, srcB w.toLaneHead 1] []) :
    let e := laneEnv s c sl k g b w.prd [srcA w.toLaneHead 2, srcB w.toLaneHead 1]
    let u := laneStart s e
    let l := e.acting.map (granuleRange w e)
    misaligned (laneIssuer u e) 16 l = none → outside (laneIssuer u e) apGranule l = none →
    granuleRun fill w s = .next (doneLane (l.foldl (fun s a => (granulesAt s ((laneIssuer u e).at a) a.va (a.n / 16)).foldl
      (if fill then fillGranule else emptyGranule) s) u) c sl k) := by
  intro e u l hm ho
  unfold granuleRun
  refine laneRun_next h ?_
  unfold l granuleRange at hm ho
  simp only [e, u] at hm ho
  simp only [hm, ho, Option.or_none]
  rfl
theorem execFeq_turn (h : LaneTurn s c sl k g b 2 w.prd [srcA w.toLaneHead 2] [(w.dst.toNat, 1)]) :
    let e := laneEnv s c sl k g b w.prd [srcA w.toLaneHead 2]
    let u := laneStart s e
    let l := e.acting.map (firstGranule w e)
    misaligned (laneIssuer u e) 16 l = none → outside (laneIssuer u e) apGranule l = none →
    execFeq w s = .next (doneLane (u.updGroup c sl (fun h => h.producing (e.exec &&& e.keep) [w.dst.toNat] (fun i =>
      [(w.dst.toNat, BitVec.ofNat 32 (granuleBits u { (laneIssuer u e).p with lane := i } (e.ea w.toLaneHead 0 i)))]))) c sl k) := by
  intro e u l hm ho
  unfold execFeq
  refine laneRun_next h ?_
  unfold l firstGranule at hm ho
  simp only [e, u] at hm ho
  simp only [hm, ho, Option.or_none]
  rfl

/-! ## The spill stack (R222, R223) -/

theorem never_laneEnv {srcs : List Src} (hw : w.prd ≠ 8) : (laneEnv s c sl k g b w.prd srcs).never = false := by
  simpa [laneEnv] using hw

theorem execPushm_turn {n : Nat} (hn : n = w.sb.toNat + 1 - w.sa.toNat) (h : LaneTurn s c sl k g b 0 w.prd [srcA w.toLaneHead n] [])
    (hw : w.prd ≠ 8) :
    let e := laneEnv s c sl k g b w.prd [srcA w.toLaneHead n]
    4 * n ≤ e.stack →
    execPushm w s = .next (doneLane (putStack e (e.stack - 4 * n) ((e.acting.flatMap (fun i => (List.range n).map (fun j => (i, j)))).foldl
      (pushWord e (e.stack - 4 * n) w.sa.toNat) (laneStart s e))) c sl k) := by
  intro e hs
  subst hn
  unfold execPushm
  refine laneRun_next h ?_
  simp only [never_laneEnv hw, Bool.false_eq_true, if_false]
  exact if_neg (Nat.not_lt.2 hs)

/-- The registers that a POPM writes, from what its lanes find on the stack: FULL at once in trap mode, where the values are written (R370). -/
def popped (e : LaneEnv) (reg n : Nat) (u : State) (h : Group) : Group :=
  let m := e.exec &&& e.keep
  let regs := (List.range n).map (· + reg)
  let words := popWords u e e.stack reg n
  if h.trapMode then regs.foldl (fun x r => x.markFull r m) ((lanesOf m).foldl (fun x i => x.putWords i (words i)) h)
  else h.producing m regs words
/-- The bytes that the stack holds for a group: of its slice, or of the trap spill area. -/
def stackTop (u : State) (e : LaneEnv) : Nat := if e.g.trapMode then (u.nbhdOf e.g).stage.trapspill / 32 else (u.nbhdOf e.g).stage.lslice

/-- Outside trap mode the words that are read are checked, and what is corrected is counted (R148). -/
theorem execPopm_turn {n : Nat} (hn : n = w.sb.toNat + 1 - w.sa.toNat) (h : LaneTurn s c sl k g b 0 w.prd [] [(w.sa.toNat, n)])
    (hw : w.prd ≠ 8) :
    let d := laneEnv s c sl k g b w.prd []
    let u := laneStart s d
    d.stack + 4 * n ≤ stackTop u d → (d.g.trapMode = false → popErr u d n = none) →
    execPopm w s = .next (doneLane (putStack d (d.stack + 4 * n)
      ((if d.g.trapMode then u else countErrs u (popUnits u d n (lanesOf (d.exec &&& d.keep)))).updGroup c sl (popped d w.sa.toNat n u))) c sl k) := by
  intro d u hs he
  subst hn
  have herr : (if d.g.trapMode then none else popErr u d (w.sb.toNat + 1 - w.sa.toNat)) = none := by
    split
    · rfl
    · next ht => exact he (by simpa using ht)
  unfold execPopm
  refine laneRun_next h ?_
  simp only [never_laneEnv hw, Bool.false_eq_true, if_false]
  refine (if_neg (Nat.not_lt.2 hs)).trans ?_
  simp only [d, u] at herr
  simp only [herr]
  rfl
end

/-- Settles O37: the word issues, and its checks pass on what its lanes name. -/
theorem prefetchAndSpill : Obligations.PrefetchAndSpill := by
  constructor
  · intro s c sl k g b w v a1 a2 v1 e1 e2 j s1 s2 i1 i2 l2 l1 all
    refine ⟨fun h => ?pref, fun h => ?prefImm, fun h hm ho => ⟨?fez, ?feset⟩, fun h hm ho => ?feq⟩
    case pref =>
      change execPref w s = _
      unfold execPref
      exact laneRun_next h rfl
    case prefImm =>
      change execPrefImm v s = _
      unfold execPrefImm
      refine laneRun_next h ?_
      rw [prefetch, memLI, sext_eq]
    case fez => exact granuleRun_turn (fill := false) h hm ho
    case feset => exact granuleRun_turn (fill := true) h hm ho
    case feq => exact execFeq_turn h hm ho
  · intro s c sl k g b w n e d
    refine ⟨fun h hw hs => execPushm_turn rfl h hw hs, fun h hw hs => ⟨fun ht => ?trap, fun ht he => ?program⟩⟩
    case trap =>
      refine (execPopm_turn rfl h hw hs (fun hf => ?_)).trans ?_
      · rw [ht] at hf
        cases hf
      · rw [if_pos ht]
        rfl
    case program =>
      refine (execPopm_turn rfl h hw hs (fun _ => he)).trans ?_
      rw [ht]
      rfl

end Sys2Proof.Machine
end

section
/-! O36: a strong access of either stream whose steps are done. -/

namespace Sys2Proof.Machine
open Bits

/-- Whether the invalidation of an acquire is still at work after a strong access. -/
def stillInvalidating (z : State) (c obs : Nat) (acq : Bool) : Bool := acq && invalidating z c (hasPH obs)

section
variable {s r v p t : State} {i : Issuer} {what obs align accept : Nat} {acq rel : Bool} {l : List Acc}

/-- An access whose steps are done goes through every check and every step of R133 and R134, and ends by its invalidation. -/
theorem strongRun_steps (h : StrongSteps s i what acq rel obs align accept l r v p t) :
    strongRun i what acq rel obs align accept l s =
      if stillInvalidating (strongEnd s i what acq rel obs l p t) i.c obs acq
      then finishWait i (strongEnd s i what acq rel obs l p t) (.invalidation i.c (hasPH obs))
      else finishAcc i { s := strongEnd s i what acq rel obs l p t } none := by
  obtain ⟨⟨hm, ho, hr, hs, ht, hh⟩, hne, hrel, hask, hfail, hread, hlanes⟩ := h
  have hsnap : (if what = 0 then none else snapFault s i.p.nb.ctx ((routes s i (strongKind what) l).1.flatMap (·.2))) = none := by
    split
    · rfl
    · next hw => exact hs.resolve_left (by
        cases what with
        | zero => exact absurd rfl hw
        | succ n => cases n <;> simp [strongKind])
  have hrel' : (if rel && !relDone (accessStart s i (routes s i (strongKind what) l).1) i
      then releaseSteps (accessStart s i (routes s i (strongKind what) l).1) i.c i.sl obs
      else .ok (accessStart s i (routes s i (strongKind what) l).1) : Rel) = .ok r := by
    split at hrel
    · next hc => rw [if_pos hc]; exact hrel
    · next hc => rw [if_neg hc, hrel]
  have hasked : (if what = 1 then ({ s := strongBegun i what rel (routes s i (strongKind what) l).1 r } : Prog)
      else (routes s i (strongKind what) l).1.foldl (stepLane (askLane i (what == 0)
        (if rel then some ((strongBegun i what rel (routes s i (strongKind what) l).1 r).core i.c).sig else none)))
        { s := strongBegun i what rel (routes s i (strongKind what) l).1 r }) = { s := v } := by
    split at hask
    · next hw => rw [if_pos hw, hask]
    · next hw => rw [if_neg hw]; exact stepLane_performAll _ hask
  have hread' : (if what = 0 then readsReady i ((routes s i (strongKind what) l).1.flatMap (·.2)) v else .done v : SRes) = .done p := by
    split at hread
    · next hw => rw [if_pos hw]; exact hread
    · next hw => rw [if_neg hw, hread]
  unfold strongRun
  simp only [hm, ho, Option.or_none, hr]
  rw [hsnap]
  simp only [List.isEmpty_iff, if_neg hne, ht, Bool.not_true, Bool.false_eq_true, if_false, hh]
  rw [hrel']
  dsimp only
  rw [← strongBegun, hasked]
  dsimp only
  rw [hfail]
  dsimp only
  rw [hread']
  dsimp only
  rw [stepLane_performAll _ hlanes]
  simp only [List.isEmpty_nil, Bool.and_true, Bool.true_and]
  rfl
/-- One of no lanes does nothing. -/
theorem strongRun_nil : strongRun i what acq rel obs align accept [] s = .next s := by
  have hsnap : (if what = 0 then none else snapFault s i.p.nb.ctx []) = none := ite_self _
  simp only [strongRun, misaligned, outside, List.filter_nil, List.filterMap_nil, Option.or_none, routes, List.foldr_nil, List.flatMap_nil]
  rw [hsnap]
  rfl

/-! ## The end of a scalar word -/

/-- A scalar word is complete, or waits for its invalidation and performs nothing more. -/
def ScalarStrongEnd (o : Out) (z : State) (c sl obs : Nat) (acq : Bool) : Prop :=
  (stillInvalidating z c obs acq = false → o = .next (doneScalar z c sl 8)) ∧
  (stillInvalidating z c obs acq = true → o = .next ((z.updGroup c sl (fun h => { h with arrived := some 1 })).updGroup c sl
    (fun h => { h with park := some ⟨11, .invalidation c (hasPH obs)⟩ })))

theorem scalarRun_strong {c sl : Nat} {g : Group} {regs : List Nat} {body : Nat → Nat → Group → Res}
    (ht : ScalarTurn s c sl g false 0 regs) (hb : body c sl g = strongRun (scalarIssuer s c sl g) what acq rel obs align accept l s)
    (h : StrongSteps s (scalarIssuer s c sl g) what acq rel obs align accept l r v p t) :
    ScalarStrongEnd (scalarRun false 0 8 regs body s) (strongEnd s (scalarIssuer s c sl g) what acq rel obs l p t) c sl obs acq := by
  rw [scalarRun_turn ht, hb, strongRun_steps h]
  change ScalarStrongEnd (.next (endS c sl 8 (if stillInvalidating _ c obs acq then _ else _))) _ c sl obs acq
  constructor
  · intro hw
    rw [hw]
    rfl
  · intro hw
    rw [hw]
    rfl

/-- A strong scalar access that its invalidation alone did not leave runs. -/
theorem scalarStrong_new {c sl : Nat} {g : Group} {x : SXMem} {a : Acc} (ha : g.arrived ≠ some 1) :
    scalarStrong what x a c sl g s =
      strongRun (scalarIssuer s c sl g) what (x.ord.getLsbD 0) (x.ord.getLsbD 1) x.obs.toNat a.n apScalar [a] s := if_neg ha

/-! ## The end of a lane word -/

/-- A lane word is complete, or waits for its invalidation and performs nothing more. -/
def LaneStrongEnd (o : Out) (z : State) (c sl k obs : Nat) (acq : Bool) : Prop :=
  (stillInvalidating z c obs acq = false → o = .next (doneAccess z c sl k)) ∧
  (stillInvalidating z c obs acq = true → o = .next (updSplit (updSplit z c sl k (fun y => { y with unfinished := some 0 })) c sl k
    (fun y => { y with park := some ⟨11, .invalidation c (hasPH obs)⟩ })))

/-- No lane of a split is unfinished after all were performed. -/
theorem unfinished_noneLeft (u : State) (c sl k : Nat) :
    (((updSplit u c sl k (fun x => { x with unfinished := some 0 })).group? c sl).bind
      (fun g => g.lanes.bind (fun b => (b.at k).unfinished))).getD 0 = 0 := by
  simp only [updSplit, State.group?, updGroup_groups, get?_modify]
  cases u.groups.get? (c * 48 + sl) with
  | none => rfl
  | some g =>
    simp only [Option.map_some, Option.bind_some, lanes_setLanes]
    cases g.lanes with
    | none => rfl
    | some b =>
      simp only [Option.map_some, Option.bind_some, at_set]
      split
      · rfl
      · next hk =>
        have hlen : b.splits.length ≤ k := by simpa using hk
        rw [LaneBlock.at, List.getElem?_eq_none hlen]
        rfl
/-- The destinations of a performed access are not held. -/
theorem holdDest_strongRun {e : LaneEnv} (h : StrongSteps s (laneIssuer s e) what acq rel obs align accept l r v p t) (l' : List Acc) :
    holdDest (laneIssuer s e) l' (strongRun (laneIssuer s e) what acq rel obs align accept l s) =
      strongRun (laneIssuer s e) what acq rel obs align accept l s := by
  rw [strongRun_steps h]
  split
  · have hleft := unfinished_noneLeft (strongEnd s (laneIssuer s e) what acq rel obs l p t) e.c e.sl e.k
    change Res.park (List.foldl _ _ (l'.filter (fun a => BitVec.getLsbD (Option.getD _ 0) a.lane))) 11 _ = Res.park _ 11 _
    rw [show (laneIssuer s e).c = e.c from rfl, show (laneIssuer s e).sl = e.sl from rfl, show (laneIssuer s e).k = e.k from rfl, hleft]
    simp
  · rfl

section
variable {c sl k deny : Nat} {g : Group} {b : LaneBlock} {prd : BitVec 4} {srcs : List Src} {dsts : List (Nat × Nat)}
  {body : LaneEnv → State → Res}

theorem laneRun_strong (ht : LaneTurn s c sl k g b deny prd srcs dsts) :
    let e := laneEnv s c sl k g b prd srcs
    let u := laneStart s e
    body e u = strongRun (laneIssuer u e) what acq rel obs align accept l u →
    StrongSteps u (laneIssuer u e) what acq rel obs align accept l r v p t →
    LaneStrongEnd (laneRun deny prd srcs dsts body s) (strongEnd u (laneIssuer u e) what acq rel obs l p t) c sl k obs acq := by
  intro e u hb h
  rw [laneRun_turn ht, hb, strongRun_steps h]
  change LaneStrongEnd (.next (endL c sl k g.trapMode (if stillInvalidating _ c obs acq then _ else _))) _ c sl k obs acq
  constructor
  · intro hw
    rw [hw]
    rfl
  · intro hw
    rw [hw]
    rfl
/-- A word whose destinations are held where its access waits. -/
theorem laneRun_strong_held (ht : LaneTurn s c sl k g b deny prd srcs dsts) :
    let e := laneEnv s c sl k g b prd srcs
    let u := laneStart s e
    body e u = holdDest (laneIssuer u e) l (strongRun (laneIssuer u e) what acq rel obs align accept l u) →
    (l = [] → laneRun deny prd srcs dsts body s = .next (doneLane u c sl k)) ∧
    (StrongSteps u (laneIssuer u e) what acq rel obs align accept l r v p t →
      LaneStrongEnd (laneRun deny prd srcs dsts body s) (strongEnd u (laneIssuer u e) what acq rel obs l p t) c sl k obs acq) := by
  intro e u hb
  constructor
  · intro hl
    subst hl
    exact laneRun_next ht (by rw [hb, strongRun_nil]; rfl)
  · intro h
    exact laneRun_strong ht (hb.trans (holdDest_strongRun h l)) h
end
end

/-- Settles O36: each word runs its strong access, which its steps carry to its end. -/
theorem strongAccesses : Obligations.StrongAccesses := by
  intro s r v q t c sl k g b d a d2 d3 op x w p n ax cx acq rel steps ends f wp m one two pair trio env la lc runs
  refine ⟨fun ht hx ha => ⟨fun h => ?sldX, fun h => ?sstX⟩, fun ht hx ha => ⟨fun h => ?satom, fun h => ?scas⟩,
    fun hw ht => ?atom, fun hw ht => ?cas, fun hw ht => ?ld, fun hw ht => ?st⟩
  case sldX =>
    change ScalarStrongEnd (execSldX d a x s) _ c sl x.obs.toNat acq
    unfold execSldX
    exact scalarRun_strong ht (by simp only [if_neg hx, sext_eq, scalarStrong_new ha]; rfl) h
  case sstX =>
    change ScalarStrongEnd (execSstX d a x s) _ c sl x.obs.toNat acq
    unfold execSstX
    exact scalarRun_strong ht (by simp only [if_neg hx, sext_eq, scalarStrong_new ha]; rfl) h
  case satom =>
    change ScalarStrongEnd (execSatom d a d2 op x s) _ c sl x.obs.toNat acq
    unfold execSatom
    exact scalarRun_strong (ht.mono (by simp)) (by simp only [scalarAtomic, if_neg hx, sext_eq, scalarStrong_new ha]; rfl) h
  case scas =>
    change ScalarStrongEnd (execScas d a d2 d3 x s) _ c sl x.obs.toNat acq
    unfold execScas
    exact scalarRun_strong ht (by simp only [scalarAtomic, if_neg hx, sext_eq, scalarStrong_new ha]; rfl) h
  case atom =>
    change (_ → execAtom w s = _) ∧ (_ → LaneStrongEnd (execAtom w s) _ c sl k w.obs.toNat _)
    unfold execAtom
    exact laneRun_strong_held ht (by simp only [laneAtomic, if_neg hw]; rfl)
  case cas =>
    change (_ → execCas w s = _) ∧ (_ → LaneStrongEnd (execCas w s) _ c sl k w.obs.toNat _)
    unfold execCas
    exact laneRun_strong_held ht (by simp only [laneAtomic, if_neg hw]; rfl)
  case ld =>
    change (_ → execLd w s = _) ∧ (_ → LaneStrongEnd (execLd w s) _ c sl k w.obs.toNat _)
    unfold execLd
    exact laneRun_strong_held ht (by simp only [if_neg hw]; rfl)
  case st =>
    change (_ → execSt w s = _) ∧ (_ → LaneStrongEnd (execSt w s) _ c sl k w.obs.toNat _)
    unfold execSt
    refine ⟨fun hl => laneRun_next ht ?_, laneRun_strong ht (if_neg hw)⟩
    rw [if_neg hw]
    exact (congrArg (fun l => strongRun _ 1 false true w.obs.toNat _ apLane l _) hl).trans strongRun_nil

end Sys2Proof.Machine
end

section
/-! O55: a store that finds its L1 full displaces a line, whose bytes the core's caches then no longer hold. -/

namespace Sys2Proof.Machine
open Bits

/-! ## The lines of an L1 -/

/-- The L1 of a core. -/
def State.l1 (s : State) (c : Nat) : NMap L1Line := (s.core c).l1

theorem core_updCore (s : State) (c d : Nat) (f : Core → Core) :
    (s.updCore c f).core d = if c = d then f (s.core c) else s.core d := by
  simp only [State.updCore, State.setCore, State.core, NMap.getD, NMap.get?_set]
  split <;> rfl
theorem l1_updCore (s : State) (c : Nat) (f : Core → Core) : (s.updCore c f).l1 c = (f (s.core c)).l1 := by
  rw [State.l1, core_updCore, if_pos rfl]
theorem l1_updCore_of_keeps {s : State} {d : Nat} {f : Core → Core} (hf : ∀ k, (f k).l1 = k.l1) (c : Nat) :
    (s.updCore d f).l1 c = s.l1 c := by
  rw [State.l1, core_updCore]
  split
  · next h => rw [hf, ← h]; rfl
  · rfl
theorem l1_updDie (s : State) (d : Nat) (f : Die → Die) (c : Nat) : (s.updDie d f).l1 c = s.l1 c := rfl
/-- A fold of steps that keep a projection of the state keeps it. -/
theorem foldl_keeps {α β : Type} {π : State → β} {f : State → α → State} (h : ∀ s x, π (f s x) = π s) (l : List α) (s : State) :
    π (l.foldl f s) = π s := by
  induction l generalizing s with
  | nil => rfl
  | cons x l ih => rw [List.foldl_cons, ih, h]

theorem l1_countErrs (s : State) (us : List Nat) (c : Nat) : (countErrs s us).l1 c = s.l1 c := by
  unfold countErrs l2Read updL2
  refine (foldl_keeps (π := fun s => s.l1 c) ?_ _ _).trans (foldl_keeps (π := fun s => s.l1 c) ?_ _ s)
  · exact fun _ _ => rfl
  · exact fun _ _ => rfl
theorem l1_bindLoads (s : State) (d : Nat) (mine : Load → Bool) (lines : List Nat) (c : Nat) : (bindLoads s d mine lines).l1 c = s.l1 c := by
  unfold bindLoads
  refine (l1_updCore_of_keeps ?_ c).trans ?_
  · exact fun _ => rfl
  · split
    · rfl
    · exact l1_countErrs ..
theorem l1_leaveQueue (s : State) (d sl tag c : Nat) : (leaveQueue s d sl tag).l1 c = s.l1 c := by
  unfold leaveQueue
  split
  · refine l1_updCore_of_keeps ?_ c
    exact fun _ => rfl
  · rfl
theorem l1_keepLeaf (p : Party) (s : State) (h : Hop) (c : Nat) : (keepLeaf p s h).l1 c = s.l1 c := by
  unfold keepLeaf
  split
  · rw [cacheLeaf, l1_updDie]
    refine l1_updCore_of_keeps ?_ c
    exact fun _ => rfl
  · rfl
theorem l1_keepLeaves (s : State) (p : Party) (l : List Hop) (c : Nat) : (keepLeaves s p l).l1 c = s.l1 c := by
  cases l with
  | nil => rfl
  | cons h l =>
    unfold keepLeaves
    rw [foldl_keeps (π := fun s => s.l1 c) (fun s x => l1_keepLeaf p s x c)]
    exact l1_keepLeaf p s h c
/-- What precedes the lanes of an access leaves every line of the L1. -/
theorem l1_accessStart (s : State) (i : Issuer) (l : List (Acc × List Hop)) (c : Nat) : (accessStart s i l).l1 c = s.l1 c := by
  unfold accessStart bindLane
  rw [foldl_keeps (π := fun s => s.l1 c) (fun s x => l1_bindLoads ..), foldl_keeps (π := fun s => s.l1 c) (fun s x => l1_keepLeaves ..)]
  exact l1_leaveQueue ..
theorem l1_addLines (s : State) (d bit : Nat) (l : List Nat) (c : Nat) : (addLines s d bit l).l1 c = s.l1 c := by
  unfold addLines addLine
  refine foldl_keeps (π := fun s => s.l1 c) (fun s x => l1_updCore_of_keeps ?_ c) l s
  exact fun _ => rfl
/-- A store into the L1 leaves the other lines. -/
theorem l1_l1Store_of_ne {s : State} {c m : Nat} {w : Who} {x : Nat × Byte} (h : x.1 / 64 ≠ m) :
    ((l1Store s c w x).l1 c).get? m = (s.l1 c).get? m := by
  rw [l1Store, l1_updCore]
  simp only [NMap.get?_set, if_neg h]
  rfl
theorem l1_stores_of_ne {c m : Nat} {w : State → Who} {l : List (Nat × Byte)} (h : ∀ x ∈ l, x.1 / 64 ≠ m) (s : State) :
    ((l.foldl (fun s x => l1Store s c (w s) x) s).l1 c).get? m = (s.l1 c).get? m := by
  induction l generalizing s with
  | nil => rfl
  | cons x l ih =>
    rw [List.foldl_cons, ih (fun y hy => h y (List.mem_cons_of_mem _ hy)), l1_l1Store_of_ne (h x List.mem_cons_self)]

/-! ## Room in a full L1 -/

theorem length_erase_lt {α : Type} {m : NMap α} {k : Nat} {v : α} (h : m.get? k = some v) : (m.erase k).length < m.length := by
  have hle (m : NMap α) : (m.erase k).length ≤ m.length := by
    induction m with
    | nil => exact Nat.le_refl _
    | cons x m ih =>
      obtain ⟨n, y⟩ := x
      by_cases hn : n = k <;> simp [NMap.erase, hn] <;> omega
  induction m with
  | nil => cases h
  | cons x m ih =>
    obtain ⟨n, y⟩ := x
    by_cases hn : n = k
    · simp only [NMap.erase, hn, if_true, List.length_cons]
      exact Nat.lt_succ_of_le (hle m)
    · rw [NMap.get?, if_neg hn] at h
      simp only [NMap.erase, hn, if_false, List.length_cons]
      exact Nat.succ_lt_succ (ih h)
theorem length_turned (key : Nat) (l : List Nat) : (turned key l).length = l.length := by
  simp only [turned, List.length_append, List.length_drop, List.length_take]
  omega
theorem mem_of_mem_turned {key m : Nat} {l : List Nat} (h : m ∈ turned key l) : m ∈ l := by
  rcases List.mem_append.1 h with h | h
  · exact List.mem_of_mem_drop h
  · exact List.mem_of_mem_take h
/-- A clean line leaves an L1 at once (R132). -/
theorem invalidateLine_clean {s : State} {c m : Nat} {v : L1Line} (h : (s.l1 c).get? m = some v) (hd : v.dirty = 0) :
    invalidateLine c m s = (true, s.updCore c (fun k => { k with l1 := k.l1.erase m })) := by
  rw [State.l1] at h
  have hw : writeBack c m s = (true, s) := by rw [writeBack, h]; exact if_pos hd
  simp only [invalidateLine, hw, if_true]
/-- In a full L1 of clean lines a line that it does not hold finds room where another leaves (R1, R122, R132). -/
theorem roomL1_displaces {s : State} {c line : Nat} (hfull : (s.l1 c).length = l1Lines) (hnew : (s.l1 c).get? line = none)
    (hclean : ∀ m ∈ (s.l1 c).keys, ∃ v, (s.l1 c).get? m = some v ∧ v.dirty = 0) :
    ∃ m ∈ (s.l1 c).keys, m ≠ line ∧ roomL1 c [line] 1 s = (true, s.updCore c (fun k => { k with l1 := k.l1.erase m })) := by
  have hleaves {m : Nat} (hm : m ∈ (s.l1 c).keys) :
      invalidateLine c m s = (true, s.updCore c (fun k => { k with l1 := k.l1.erase m })) := by
    obtain ⟨v, hv, hd⟩ := hclean m hm
    exact invalidateLine_clean hv hd
  have hkeys {m : Nat} (hm : m ∈ (s.l1 c).keys) : m ≠ line := by
    rintro rfl
    obtain ⟨v, hv, _⟩ := hclean m hm
    rw [hnew] at hv
    cases hv
  have hothers : (s.l1 c).keys.filter (fun l => !([line].contains l)) = (s.l1 c).keys :=
    List.filter_eq_self.2 fun m hm => by simpa using hkeys hm
  obtain ⟨m, rest, hturned⟩ : ∃ m rest, turned (s.tick * 2 ^ 60 + c * 2 ^ 40 + 0) (s.l1 c).keys = m :: rest := by
    refine List.exists_cons_of_length_pos ?_
    rw [length_turned, NMap.keys, List.length_map, hfull]
    decide
  have hm : m ∈ (s.l1 c).keys := mem_of_mem_turned (hturned ▸ List.mem_cons_self)
  have hlen : ((s.l1 c).erase m).length < l1Lines := by
    obtain ⟨v, hv, _⟩ := hclean m hm
    exact hfull ▸ length_erase_lt hv
  refine ⟨m, hm, hkeys hm, ?_⟩
  have hno : ¬(s.l1 c).length + ([line].filter (fun l => ((s.l1 c).get? l).isNone)).length ≤ l1Lines := by
    simp [hnew, hfull]
  have hyes : ((s.l1 c).erase m).length + ([line].filter (fun l => (((s.l1 c).erase m).get? l).isNone)).length ≤ l1Lines := by
    have := List.length_filter_le (fun l => (((s.l1 c).erase m).get? l).isNone) [line]
    simp only [List.length_singleton] at this
    omega
  have hdone : roomL1 c [line] 0 (s.updCore c (fun k => { k with l1 := k.l1.erase m })) =
      (true, s.updCore c (fun k => { k with l1 := k.l1.erase m })) := by
    rw [roomL1]
    refine if_pos ?_
    rw [core_updCore, if_pos rfl]
    exact hyes
  rw [roomL1]
  refine (if_neg hno).trans ?_
  rw [show (s.core c).l1 = s.l1 c from rfl, hothers, hturned, List.find?_cons_of_pos (by rw [hleaves hm])]
  dsimp only
  rw [hleaves hm]
  exact hdone

/-- A weak store to lines of this module alone, for which the L1 finds room, leaves the lines that it does not store to. -/
theorem storeAcc_lines {i : Issuer} {a : Acc} {hops : List Hop} {s t : State} (hpeer : peerCells (hops.zip a.data) = [])
    (hpad : spadCells (hops.zip a.data) = []) (hmine : (lineCells (hops.zip a.data)).isEmpty = false)
    (hroom : roomL1 i.c (lines64 (lineCells (hops.zip a.data))) (lines64 (lineCells (hops.zip a.data))).length s = (true, t)) :
    ∃ u, storeAcc i false false a hops s = .done u ∧
      ∀ m, (∀ x ∈ lineCells (hops.zip a.data), x.1 / 64 ≠ m) → (u.l1 i.c).get? m = (t.l1 i.c).get? m := by
  have hready : readyFar i (goesOut s i) (byPeer []) s = (none, s) := rfl
  simp only [storeAcc, hpeer, hpad, hmine, hready, hroom, Bool.false_eq_true, if_false, Bool.not_true]
  refine ⟨_, rfl, fun m hm => ?_⟩
  exact (congrArg (NMap.get? · m) (l1_addLines ..)).trans (l1_stores_of_ne hm t)

/-! ## A store that displaces a line -/

/-- A line of the L1 that is there whole and clean. -/
def wholeLine : L1Line := { data := 0, whole := true, dirty := 0 }
/-- A full L1: lines 1,024 to 3,071. -/
def fullL1 : NMap L1Line := (List.range l1Lines).map (fun j => (1024 + j, wholeLine))

theorem get?_map_const {α : Type} (f : Nat → Nat) (x : α) (l : List Nat) (m : Nat) :
    NMap.get? (l.map (fun j => (f j, x))) m = if m ∈ l.map f then some x else none := by
  induction l with
  | nil => rfl
  | cons j l ih =>
    by_cases h : f j = m
    · simp [NMap.get?, h]
    · simp [NMap.get?, h, ih, Ne.symm h]
theorem keys_fullL1 : fullL1.keys = (List.range l1Lines).map (1024 + ·) := by
  simp [fullL1, NMap.keys, Function.comp_def]
theorem get?_fullL1 (m : Nat) : fullL1.get? m = if m ∈ fullL1.keys then some wholeLine else none := by
  rw [keys_fullL1]
  exact get?_map_const ..

theorem length_fullL1 : fullL1.length = l1Lines := (List.length_map ..).trans List.length_range
theorem le_of_mem_fullL1 {m : Nat} (h : m ∈ fullL1.keys) : 1024 ≤ m := by
  rw [keys_fullL1, List.mem_map] at h
  obtain ⟨j, _, rfl⟩ := h
  exact Nat.le_add_right ..

/-- The program's group, with an address in S1. -/
def storingGroup : Group := { bootGroup false with sregs := [(1, 0x8000)] }
/-- The module that stands at SST S3, [S1 + 0], with the lines of its L1 given. -/
def storingWith (l : NMap L1Line) : State :=
  { placeWord State.reset 32 0x6C304000 with groups := [(47, storingGroup)], cores := [(0, { l1 := l })] }
theorem l1_storingWith (l : NMap L1Line) : (storingWith l).l1 0 = l := rfl
def crowded : State := storingWith fullL1
def crowdedIssuer : Issuer := scalarIssuer crowded 0 47 storingGroup
def crowdingStore : Acc := storeOf storingGroup 3 1 ((0 : BitVec 13).signExtend 64) 8
/-- The bytes of line 512, which it stores. -/
def crowdingHops : List Hop := (routes crowded crowdedIssuer .write [crowdingStore]).1.flatMap (·.2)

theorem crowded_turn : ScalarTurn crowded 0 47 storingGroup false 0 [(3 : BitVec 6).toNat, (1 : BitVec 6).toNat] := by decide +kernel
theorem crowded_ready : AccessReady crowded crowdedIssuer .write 8 apScalar [crowdingStore] := by decide +kernel
theorem crowded_routes : (routes crowded crowdedIssuer .write [crowdingStore]).1 = [(crowdingStore, crowdingHops)] := by decide +kernel
theorem crowded_cells : peerCells (crowdingHops.zip crowdingStore.data) = [] ∧ spadCells (crowdingHops.zip crowdingStore.data) = [] ∧
    (lineCells (crowdingHops.zip crowdingStore.data)).isEmpty = false ∧ lines64 (lineCells (crowdingHops.zip crowdingStore.data)) = [512] ∧
    (∀ x ∈ lineCells (crowdingHops.zip crowdingStore.data), x.1 / 64 = 512) ∧
    (storedCells crowded crowdedIssuer [crowdingStore]).all (fun z => decide (z.1.spot.key = some 512)) = true := by decide +kernel

/-- The store is performed, and a line of the full L1 is displaced. -/
theorem crowded_performed : ∃ u, performed crowded crowdedIssuer .write [crowdingStore] (storeAcc crowdedIssuer false false) = some u ∧
    ∃ m ∈ fullL1.keys, (u.l1 0).get? m = none := by
  obtain ⟨hpeer, hpad, hmine, hlines, hcells, _⟩ := crowded_cells
  have hcore : crowdedIssuer.c = 0 := rfl
  have hstart : (accessStart crowded crowdedIssuer [(crowdingStore, crowdingHops)]).l1 0 = fullL1 :=
    (l1_accessStart ..).trans (l1_storingWith fullL1)
  obtain ⟨m, hm, hne, hroom⟩ := roomL1_displaces (s := accessStart crowded crowdedIssuer [(crowdingStore, crowdingHops)]) (c := 0)
    (line := 512) (by rw [hstart, length_fullL1])
    (by rw [hstart, get?_fullL1, if_neg (fun h => absurd (le_of_mem_fullL1 h) (by decide))])
    (fun m hm => ⟨wholeLine, by rw [hstart] at hm ⊢; rw [get?_fullL1, if_pos hm], rfl⟩)
  rw [hstart] at hm
  obtain ⟨u, hu, hl1⟩ := storeAcc_lines (i := crowdedIssuer) (a := crowdingStore) hpeer hpad hmine (hlines ▸ hroom)
  refine ⟨u, ?_, m, hm, ?_⟩
  · rw [performed, crowded_routes, performAll, hu]
    rfl
  · have hothers : ∀ x ∈ lineCells (crowdingHops.zip crowdingStore.data), x.1 / 64 ≠ m := fun x hx => by
      rw [hcells x hx]
      exact Ne.symm hne
    rw [hcore] at hl1
    rw [hl1 m hothers, l1_updCore, get?_erase, if_pos rfl]

/-- A byte of a local line reads through a core's L1 as long as it holds the line whole, and not at all without the line (R122). -/
theorem byteNow_whole {s : State} {c pa : Nat} {v : L1Line} (h : (s.l1 c).get? (pa / 64) = some v) (hv : v.whole = true) :
    byteNow s c false (.line pa) = some (byteAt v.data (pa % 64)) := by
  rw [State.l1] at h
  simp [byteNow, h, hv]
theorem byteNow_missing {s : State} {c pa : Nat} (h : (s.l1 c).get? (pa / 64) = none) : byteNow s c false (.line pa) = none := by
  rw [State.l1] at h
  simp [byteNow, h]
theorem sameByte_line_of_key_ne {x : Spot} {pa : Nat} (h : x.key ≠ some (pa / 64)) : sameByte x (.line pa) = false := by
  have hkey : (x.key == (Spot.line pa).key) = false := by simpa [Spot.key] using h
  cases x <;> simp [sameByte, hkey]
/-- The bytes of line 512 are no peer's, and lie below 2^64. -/
theorem local_of_key {x : Spot} (h : x.key = some 512) (dev pa : Nat) : x ≠ .peer dev pa ∧ (x = .line pa → pa < 2 ^ 64) := by
  constructor
  · rintro rfl
    simp only [Spot.key, peerKey, Option.some.injEq] at h
    omega
  · rintro rfl
    simp only [Spot.key, Option.some.injEq] at h
    omega

/-- Refutes O55: an SST of a module whose L1 is full of other lines. The store needs a line there and one of them leaves, so that a byte of that
line, which the store does not write, no longer reads through the core's caches. -/
theorem not_accessFrames : ¬ Obligations.AccessFrames := by
  intro h
  obtain ⟨u, hu, m, hm, hgone⟩ := crowded_performed
  obtain ⟨_, _, _, _, _, hkeys⟩ := crowded_cells
  have hkey : ∀ z ∈ storedCells crowded crowdedIssuer [crowdingStore], z.1.spot.key = some 512 := by simpa using hkeys
  obtain ⟨hscalar, _⟩ := h crowded u 0 47 0 storingGroup default 3 1 0 default default
  obtain ⟨hsst, _⟩ := hscalar crowded_turn
  obtain ⟨v, hv, hframe, _⟩ := hsst crowdingStore rfl crowded_ready hu (fun z hz => local_of_key (hkey z hz))
  obtain rfl : v = doneScalar u 0 47 4 := by
    rw [exec_sst_performed crowded_turn crowded_ready hu] at hv
    exact (Host.Outcome.next.inj hv).symm
  have hline : 64 * m / 64 = m := by omega
  have hbefore : byteNow crowded 0 false (.line (64 * m)) = some (byteAt wholeLine.data (64 * m % 64)) :=
    byteNow_whole (by rw [hline, crowded, l1_storingWith, get?_fullL1, if_pos hm]) rfl
  have hafter : byteNow (doneScalar u 0 47 4) 0 false (.line (64 * m)) = none := byteNow_missing (by rw [hline]; exact hgone)
  have hother : ∀ z ∈ storedCells crowded crowdedIssuer [crowdingStore], sameByte z.1.spot (.line (64 * m)) = false := fun z hz => by
    refine sameByte_line_of_key_ne ?_
    rw [hkey z hz, hline]
    intro he
    cases he
    exact absurd (le_of_mem_fullL1 hm) (by decide)
  have hsame : byteNow (doneScalar u 0 47 4) 0 false (.line (64 * m)) = byteNow crowded 0 false (.line (64 * m)) := hframe _ hother
  rw [hafter, hbefore] at hsame
  cases hsame

end Sys2Proof.Machine
end

section
/-! O10: CPY and CPYG enter their engine's queue and the open batch. -/

namespace Sys2Proof.Machine
open Bits

/-! ## Records and spans -/

theorem ofBytes_lt (l : List Byte) : ofBytes l < 256 ^ l.length := by
  induction l with
  | nil => exact Nat.one_pos
  | cons x l ih =>
    have hx := x.isLt
    rw [ofBytes, List.length_cons, Nat.pow_succ]
    omega
/-- A 64-bit field of a record is the number that its bytes hold. -/
theorem toNat_wordAt (bs : List Byte) (o : Nat) : (wordAt bs o).toNat = leAt bs o 8 := by
  have hlen : ((bs.drop o).take 8).length ≤ 8 := List.length_take_le ..
  have hlt : leAt bs o 8 < 2 ^ 64 :=
    calc leAt bs o 8 < 256 ^ ((bs.drop o).take 8).length := ofBytes_lt _
      _ ≤ 256 ^ 8 := Nat.pow_le_pow_right (by decide) hlen
      _ = 2 ^ 64 := rfl
  rw [wordAt, BitVec.toNat_ofNat, Nat.mod_eq_of_lt hlt]
/-- One row spans its own bytes, whatever the strides (R170). -/
theorem spanOutside_row (p : Party) (accept : Nat) (base : W64) (n : Nat) (st1 st2 : W64) :
    spanOutside p accept base n 1 1 st1 st2 = p.outside accept base.toNat n := by
  have hbase : ofInt 64 (base.toNat : Int) = base.toNat := by
    have hlt := base.isLt
    rw [ofInt]
    omega
  simp [spanOutside, hbase]

/-! ## CPY (R170) -/

/-- What the shape operand of a CPY of m + 1 dimensions names: the bytes of a row and the counts of the two outer dimensions, all in their ranges. -/
structure CpyShape (m : BitVec 2) (x rowb n1 n2 : Nat) : Prop where
  row : (if m.toNat + 1 = 1 then x else x % 2 ^ 24) = rowb
  inner : (if m.toNat + 1 = 1 then 1 else x / 2 ^ 24 % 2 ^ 20) = n1
  outer : (if m.toNat + 1 = 3 then x / 2 ^ 44 else 1) = n2
  inRange : ¬(if m.toNat + 1 = 1 then x = 0 ∨ 2 ^ 32 < x else rowb = 0 ∨ n1 = 0 ∨ n2 = 0 ∨ (m.toNat + 1 = 2 ∧ x / 2 ^ 44 ≠ 0))

theorem cpyShape_row {x : Nat} (h1 : 1 ≤ x) (h32 : x ≤ 2 ^ 32) : CpyShape 0 x x 1 1 :=
  ⟨rfl, rfl, rfl, fun h => (show ¬(x = 0 ∨ 2 ^ 32 < x) by omega) h⟩
theorem cpyShape_plane {x : Nat} (h44 : x < 2 ^ 44) (hr : 1 ≤ x % 2 ^ 24) (h1 : 1 ≤ x / 2 ^ 24 % 2 ^ 20) :
    CpyShape 1 x (x % 2 ^ 24) (x / 2 ^ 24 % 2 ^ 20) 1 :=
  ⟨rfl, rfl, rfl, fun h => (show ¬(x % 2 ^ 24 = 0 ∨ x / 2 ^ 24 % 2 ^ 20 = 0 ∨ 1 = 0 ∨ (2 = 2 ∧ x / 2 ^ 44 ≠ 0)) by omega) h⟩
theorem cpyShape_box {x : Nat} (hr : 1 ≤ x % 2 ^ 24) (h1 : 1 ≤ x / 2 ^ 24 % 2 ^ 20) (h2 : 1 ≤ x / 2 ^ 44) :
    CpyShape 2 x (x % 2 ^ 24) (x / 2 ^ 24 % 2 ^ 20) (x / 2 ^ 44) :=
  ⟨rfl, rfl, rfl, fun h => (show ¬(x % 2 ^ 24 = 0 ∨ x / 2 ^ 24 % 2 ^ 20 = 0 ∨ x / 2 ^ 44 = 0 ∨ (3 = 2 ∧ x / 2 ^ 44 ≠ 0)) by omega) h⟩

/-- The copy of a CPY with the bases and strides of its record. -/
def boxCopy (eng sl : Nat) (bs : List Byte) (rowb n1 n2 : Nat) (pc : W64) : Copy :=
  { id := 0, eng, slot := sl, batch := 0, kind := 1,
    src := wordAt bs 0, dst := wordAt bs 8, sst1 := wordAt bs 16, dst1 := wordAt bs 24, sst2 := wordAt bs 32, dst2 := wordAt bs 40,
    rowb, n1, n2, pc }


section
variable {s u : State} {c sl : Nat} {g : Group} {a b : BitVec 6} {e x : BitVec 1} {bs : List Byte}
  (h : ScalarTurn s c sl g false 4 [a.toNat, b.toNat]) (he : engineUsed u c e.toNat < 32)
include h he

/-- A CPY of a shape in its ranges, whose record reads well and whose sides each lie in one aperture, joins the open batch (R170, R173). -/
theorem execCpy_joins {m : BitVec 2} {rowb n1 n2 : Nat} (hm : CpyShape m (g.reg b).toNat rowb n1 n2)
    (hr : readRecord (scalarIssuer s c sl g) (g.reg a).toNat (16 * (m.toNat + 1)) 16 s = .ok u bs)
    (hsrc : spanOutside (scalarIssuer s c sl g).p apScalar (wordAt bs 0) rowb n1 n2 (wordAt bs 16) (wordAt bs 32) = none)
    (hdst : spanOutside (scalarIssuer s c sl g).p apScalar (wordAt bs 8) rowb n1 n2 (wordAt bs 24) (wordAt bs 40) = none) :
    execCpy a b e m s = .next (doneScalar (addCopy u c sl (boxCopy e.toNat sl bs rowb n1 n2 g.spc)) c sl 4) := by
  obtain ⟨hrow, hinner, houter, hrange⟩ := hm
  unfold execCpy
  refine scalarRun_next h ?_
  simp only [field_reg, hrow, hinner, houter, if_neg hrange, hr, hsrc, hdst, Option.or_none, if_neg (Nat.not_le.2 he)]
  rfl

/-! ## CPYG (R171) -/

/-- A CPYG whose record reads well, with its row, its count and its index list in their ranges and both sides in one aperture, joins the open
batch (R171, R173). -/
theorem execCpyg_joins (hr : readRecord (scalarIssuer s c sl g) (g.reg a).toNat 32 16 s = .ok u bs)
    (hrange : ¬(leAt bs 16 4 = 0 ∨ 4096 < leAt bs 16 4 ∨ leAt bs 20 4 = 0 ∨ 2 ^ 20 < leAt bs 20 4 ∨ leAt bs 28 4 ≠ 0))
    (halign : (g.reg b).toNat % (if x = 1 then 8 else 4) = 0)
    (hidx : (scalarIssuer s c sl g).p.outside apScalar (g.reg b).toNat ((if x = 1 then 8 else 4) * leAt bs 20 4) = none)
    (hdst : (scalarIssuer s c sl g).p.outside apScalar (wordAt bs 8).toNat (leAt bs 16 4 * leAt bs 20 4) = none) :
    execCpyg a b e x s = .next (doneScalar (addCopy u c sl
      { id := 0, eng := e.toNat, slot := sl, batch := 0, kind := 2,
        src := wordAt bs 0, dst := wordAt bs 8, dst1 := BitVec.ofNat 64 (leAt bs 16 4), rowb := leAt bs 16 4, n1 := leAt bs 20 4, index := g.reg b,
        iwid := if x = 1 then 8 else 4, iscale := leAt bs 24 4, pc := g.spc }) c sl 4) := by
  unfold execCpyg
  refine scalarRun_next h ?_
  simp only [field_reg, hr, if_neg hrange, halign, ne_eq, not_true_eq_false, if_false, hidx, hdst, Option.or_none, if_neg (Nat.not_le.2 he),
    BitVec.ofNat_toNat, BitVec.setWidth_eq]

end

/-- Settles O10: a CPY of one, two or three dimensions by the shape of its operand, and a CPYG by its record. -/
theorem copyWords : Obligations.CopyWords := by
  constructor
  · intro s u c sl g a b e bs h i n he box boxed
    refine ⟨fun hr h1 h32 hsrc hdst => ?_, fun hr h44 hbox => ?_, fun hr hbox => ?_⟩
    · refine execCpy_joins h he (cpyShape_row h1 h32) hr ?_ ?_
      · rw [spanOutside_row, toNat_wordAt]
        exact hsrc
      · rw [spanOutside_row, toNat_wordAt]
        exact hdst
    · obtain ⟨hrow, h1, _, hsrc, hdst⟩ := hbox
      exact execCpy_joins h he (cpyShape_plane h44 hrow h1) hr hsrc hdst
    · obtain ⟨hrow, h1, h2, hsrc, hdst⟩ := hbox
      exact execCpy_joins h he (cpyShape_box hrow h1 h2) hr hsrc hdst
  · intro s u c sl g a b e x bs h i iwid elemb count hr he h1 h4096 hc1 hc20 hzero halign hidx hdst
    exact execCpyg_joins h he hr (by omega) halign hidx hdst

end Sys2Proof.Machine
end

section
/-! O11: copy batches are sealed, waited for and polled; OSTAT reads a stream's status; OMAP takes a map. -/

namespace Sys2Proof.Machine
open Bits

section
variable {s u : State} {c sl : Nat} {g : Group} {d a : BitVec 6}

/-! ## Batches (R173, R175) -/

/-- The group after it has sealed its open batch. -/
def sealBatch (n : Nat) (h : Group) : Group :=
  { h with bn := n, batches := tidy (h.batches.map (fun x => if x.num = n then { x with sealed := true } else x)) }

theorem execCseal_seals (h : ScalarTurn s c sl g false 0 [d.toNat]) (hd : g.drained = true)
    (hold : ∀ x ∈ g.batches, x.num = sealedLong (nextBatch g.bn) → x.sealed = true → x.left = 0) :
    execCseal d s = .next (doneScalar (putS (s.updGroup c sl (sealBatch (nextBatch g.bn))) c sl d (nextBatch g.bn)) c sl 4) := by
  have hnone : g.batches.any (fun x => x.num == sealedLong (nextBatch g.bn) && x.sealed && x.left != 0) = false := by
    simp only [List.any_eq_false, Bool.and_eq_true, beq_iff_eq, bne_iff_ne]
    rintro x hx ⟨⟨hn, hs⟩, hl⟩
    exact hl (hold x hx hn hs)
  unfold execCseal
  refine scalarRun_next h ?_
  simp only [hd, hnone, Bool.not_true, Bool.false_eq_true, if_false]
  rfl
theorem execCwait_complete (h : ScalarTurn s c sl g false 0 [a.toNat])
    (hw : ∀ x ∈ g.batches, covers g ((g.reg a).toNat % 2 ^ 32) x = true → x.left = 0 ∧ x.fail = none) :
    execCwait a s = .next (doneScalar s c sl 4) := by
  have hdone : batchesDone g ((g.reg a).toNat % 2 ^ 32) = true := by
    simp only [batchesDone, List.all_eq_true, Bool.or_eq_true, Bool.not_eq_true', beq_iff_eq]
    intro x hx
    cases hc : covers g ((g.reg a).toNat % 2 ^ 32) x with
    | false => exact .inl rfl
    | true => exact .inr (hw x hx hc).1
  have hgood : g.batches.find? (fun x => covers g ((g.reg a).toNat % 2 ^ 32) x && x.fail.isSome) = none := by
    simp only [List.find?_eq_none, Bool.and_eq_true]
    rintro x hx ⟨hc, hf⟩
    rw [(hw x hx hc).2] at hf
    cases hf
  unfold execCwait
  refine scalarRun_next h ?_
  simp only [field_reg, hdone, hgood, Bool.not_true, Bool.false_eq_true, if_false]

/-! ## Statuses (R176, R186) -/

/-- A scalar word whose body is a write of one register is complete with it. -/
theorem scalarRun_putS {v : Nat} {len : Nat} {regs : List Nat} {body : Nat → Nat → Group → Res} (h : ScalarTurn s c sl g false 0 regs)
    (hb : body c sl g = .next (putS s c sl d v)) :
    scalarRun false 0 len regs body s = .next (wroteScalar s c sl len d (BitVec.ofNat 64 v)) := by
  rw [scalarRun_next h hb, doneScalar_putS]

/-! ## OMAP (R180, R182) -/

theorem execOmap_takes {k : BitVec 4} {bs : List Byte} (h : ScalarTurn s c sl g false 4 [a.toNat]) (hseq : (s.blockOf g).seq.isSome = true)
    (hr : readRecord (scalarIssuer s c sl g) (g.reg a).toNat 32 32 s = .ok u bs)
    (hm : (omapOf (pack 256 bs)).bad (scalarIssuer s c sl g).p = false) (hf : feeding (u.blockOf g) k.toNat = false) :
    execOmap a k s = .next (doneScalar (u.updBlock g.block (fun b => b.takeMap k.toNat (pack 256 bs))) c sl 4) := by
  have hhas : (s.blockOf g).seq.isNone = false := by simpa using hseq
  unfold execOmap
  refine scalarRun_next h ?_
  simp only [field_reg, hhas, hr, hm, hf, Bool.false_eq_true, if_false]

end

/-- Settles O11: the batch words by the batches that they find, the statuses as they stand, and OMAP by its record. -/
theorem batchAndMapWords : Obligations.BatchAndMapWords := by
  constructor
  · intro s c sl g d a k h n
    have hd : ScalarTurn s c sl g false 0 [d.toNat] := h.mono (by simp)
    have ha : ScalarTurn s c sl g false 0 [a.toNat] := h.mono (by simp)
    exact ⟨execCseal_seals hd, execCwait_complete ha, scalarRun_putS h rfl, scalarRun_putS hd rfl⟩
  · intro s u c sl g a k bs h hseq hr hm hf
    exact execOmap_takes h hseq hr hm hf

end Sys2Proof.Machine
end

section
/-! O38: LCPY, the tile words of lanes, and the enqueues of lanes. -/

namespace Sys2Proof.Machine
open Bits

/-! ## What a lane word finds and leaves -/

/-- A lane word's group is in the mode of the group that issues. -/
theorem trapMode_laneEnv (s : State) (c sl k : Nat) (g : Group) (b : LaneBlock) (prd : BitVec 4) (srcs : List Src) :
    (laneEnv s c sl k g b prd srcs).g.trapMode = g.trapMode :=
  calc (latched (executing g b k prd) srcs (atIssue s g b k)).trapMode
    _ = (atIssue s g b k).trapMode := congrArg (·.trapMode) (bare_latched ..)
    _ = g.trapMode := (issuing_trapMode ..).trans (setLanes_trapMode ..)
/-- A lane word ends as its body does. -/
theorem laneRun_ends {s : State} {c sl k : Nat} {g : Group} {b : LaneBlock} {deny : Nat} {prd : BitVec 4} {srcs : List Src}
    {dsts : List (Nat × Nat)} {body : LaneEnv → State → Res} {r : Res} (h : LaneTurn s c sl k g b deny prd srcs dsts)
    (hb : body (laneEnv s c sl k g b prd srcs) (laneStart s (laneEnv s c sl k g b prd srcs)) = r) :
    laneRun deny prd srcs dsts body s = .next (endL c sl k g.trapMode r) := by
  rw [laneRun_turn h, hb]

/-! ## LCPY (R172) -/

/-- The copy of a lane: its number, both addresses and the count. -/
def laneCopyArgs (w : L3) (e : LaneEnv) (i : Nat) : Nat × Nat × Nat × Nat :=
  (i, e.g.vn true w.sa.toNat i, e.g.vn true w.sb.toNat i, (e.g.v w.sc.toNat i).toNat)

theorem execLcpy_adds {s : State} {c sl k : Nat} {g : Group} {b : LaneBlock} {w : L3}
    (h : LaneTurn s c sl k g b 4 w.prd [srcA w.toLaneHead 2, srcB w.toLaneHead 2, srcC w 1] []) :
    let e := laneEnv s c sl k g b w.prd [srcA w.toLaneHead 2, srcB w.toLaneHead 2, srcC w 1]
    let i := laneIssuer (laneStart s e) e
    let l := e.acting.map (laneCopyArgs w e)
    (∀ x ∈ l, x.2.2.2 ≤ 65536 ∧ ({ i.p with lane := x.1 } : Party).outside apLane x.2.1 x.2.2.2 = none ∧
      ({ i.p with lane := x.1 } : Party).outside apLane x.2.2.1 x.2.2.2 = none) →
    ((laneStart s e).core c).copies.length + l.length ≤ 64 →
    execLcpy w s = .next (doneLane ((l.filter (fun x => x.2.2.2 != 0)).foldl (addLaneCopy i) (laneStart s e)) c sl k) := by
  intro e i l hl hroom
  have hlong : l.filter (fun x => decide (65536 < x.2.2.2)) = [] := by
    simp only [List.filter_eq_nil_iff, decide_eq_true_eq]
    intro x hx
    exact Nat.not_lt.2 (hl x hx).1
  have hbad : l.filterMap (fun x => ((({ i.p with lane := x.1 } : Party).outside apLane x.2.1 x.2.2.2).or
      (({ i.p with lane := x.1 } : Party).outside apLane x.2.2.1 x.2.2.2)).map (fun v => (x, v))) = [] := by
    rw [List.filterMap_eq_nil_iff]
    intro x hx
    obtain ⟨_, hsrc, hdst⟩ := hl x hx
    rw [hsrc, hdst]
    rfl
  unfold execLcpy
  refine laneRun_next h ?_
  unfold l laneCopyArgs at hlong hbad
  simp only [e, i] at hlong hbad
  simp only [hlong, hbad]
  exact if_neg (Nat.not_lt.2 hroom)

/-! ## Operations of a tile (R192) -/

/-- An end with its trap, if it is one, replaced. -/
def Res.onTrap (f : State → TrapInfo → Res) : Res → Res
  | .trap s t => f s t
  | r => r

section
variable {s : State} {nb : Nat} {early : Bool} {o x : TileOp} {first accepted : TileOp → State → Res}

theorem tileRun_unsent (h : tileOf s nb o.strm o.tag = none) : tileRun nb early o first accepted s = first o s := by
  simp only [tileRun, h]
theorem tileRun_accepted (h : tileOf s nb o.strm o.tag = some x) (hst : x.st = 2) :
    tileRun nb early o first accepted s = accepted x s := by
  simp [tileRun, h, hst]
theorem tileRun_refused (h : tileOf s nb o.strm o.tag = some x) (hst : x.st = 3) :
    tileRun nb early o first accepted s = .trap (dropTileOp s nb x.id) x.trap := by
  simp [tileRun, h, hst]
end

section
variable {s : State} {c sl k : Nat} {g : Group} {b : LaneBlock} {w : L3} {e : LaneEnv} {x : TileOp}

/-- The neighbourhood whose tile file a lane word names. -/
def tileNb (s : State) (e : LaneEnv) : Nat := ((laneStart s e).blockOf e.g).nb
/-- The tag of its operation: a word of trap mode has one of its own (R367). -/
def tileTag (e : LaneEnv) : Nat := if e.g.trapMode then 1 else 0
theorem tileTag_laneEnv (srcs : List Src) : tileTag (laneEnv s c sl k g b w.prd srcs) = if g.trapMode then 1 else 0 := by
  rw [tileTag, trapMode_laneEnv]

/-! ## TDEFV (R208) -/

/-- The rows of the executing lanes that a TDEFV reads. -/
def defineSrcs (s : State) (w : L3) : List Src := [srcA w.toLaneHead (rowRegsOf w.toLaneHead (laneWord s (w.aux.toNat % 4)))]
/-- The definition that it sends. -/
def defineOp (w : L3) (e : LaneEnv) (t : Nat) : TileOp :=
  { id := 0, strm := .split e.c e.sl e.k, tag := tileTag e, kind := 1, word := t,
    value := lanesValue w.toLaneHead (modeNoRsr w.rm e.sp.fmtr) (e.sp.fmtr.getLsbD 14) e t }
/-- What it does once its tile word has passed its checks. -/
def defineTile (w : L3) (e : LaneEnv) (t nb : Nat) (u : State) : Res :=
  (tileRun nb false (defineOp w e t)
    (fun o s => sendAndWait nb o (updSplit s e.c e.sl e.k (fun x => { x with unfinished := some (e.exec &&& e.keep) })))
    (fun x s => .next (dropTileOp s nb x.id)) u).onTrap (fun s t => .trap s { t with mask := e.exec &&& e.keep })

section
variable (he : laneEnv s c sl k g b w.prd (defineSrcs s w) = e)
  (hregs : w.sa.toNat + rowRegsOf w.toLaneHead (laneWord s (w.aux.toNat % 4)) ≤ laneVregs s)
  (hshape : shapeBad (laneWord s (w.aux.toNat % 4)) = false) (h : LaneTurn s c sl k g b 2 w.prd (defineSrcs s w) [])
include he hregs hshape h

theorem execTdefv_idle (hm : e.exec &&& e.keep = 0) : execTdefv w s = .next (doneLane (laneStart s e) c sl k) := by
  subst he
  simp only [execTdefv, decide_eq_true_eq, if_neg (Nat.not_lt.2 hregs), hshape, Bool.or_false]
  exact laneRun_next h (if_pos hm)

section
variable (hm : e.exec &&& e.keep ≠ 0) (hrows : tileRows (laneWord s (w.aux.toNat % 4)) ≤ 32)
  (hpair : tilePair (tileFmt (laneWord s (w.aux.toNat % 4))) w.mfmt.toNat w.fmt.toNat = true)
include hm hrows hpair

theorem execTdefv_defines :
    execTdefv w s = .next (endL c sl k g.trapMode (defineTile w e (laneWord s (w.aux.toNat % 4)) (tileNb s e) (laneStart s e))) := by
  subst he
  simp only [execTdefv, decide_eq_true_eq, if_neg (Nat.not_lt.2 hregs), hshape, Bool.or_false]
  refine laneRun_ends h ((if_neg hm).trans ?_)
  simp only [if_neg (Nat.not_lt.2 hrows), Bool.false_or, decide_eq_true_eq, hpair, Bool.not_true, Bool.false_eq_true, if_false]
  rfl
theorem execTdefv_unsent (hx : tileOf (laneStart s e) (tileNb s e) (.split e.c e.sl e.k) (tileTag e) = none) :
    execTdefv w s = .next (endL c sl k g.trapMode (sendAndWait (tileNb s e) (defineOp w e (laneWord s (w.aux.toNat % 4)))
      (updSplit (laneStart s e) e.c e.sl e.k (fun x => { x with unfinished := some (e.exec &&& e.keep) })))) := by
  rw [execTdefv_defines he hregs hshape h hm hrows hpair, defineTile, tileRun_unsent hx]
  rfl
theorem execTdefv_accepted (hx : tileOf (laneStart s e) (tileNb s e) (.split e.c e.sl e.k) (tileTag e) = some x) (hst : x.st = 2) :
    execTdefv w s = .next (doneLane (dropTileOp (laneStart s e) (tileNb s e) x.id) c sl k) := by
  rw [execTdefv_defines he hregs hshape h hm hrows hpair, defineTile, tileRun_accepted hx hst]
  rfl
theorem execTdefv_refused (hx : tileOf (laneStart s e) (tileNb s e) (.split e.c e.sl e.k) (tileTag e) = some x) (hst : x.st = 3) :
    execTdefv w s = .next (raise (dropTileOp (laneStart s e) (tileNb s e) x.id) c sl 1 k g.trapMode { x.trap with mask := e.exec &&& e.keep }) := by
  rw [execTdefv_defines he hregs hshape h hm hrows hpair, defineTile, tileRun_refused hx hst]
  rfl
end
end

/-! ## TRD (R209) -/

/-- The registers that a TRD writes. -/
def readRegs (w : L3) : List Nat := if isPair w.fmt then [w.dst.toNat, w.dst.toNat + 1] else [w.dst.toNat]
/-- The row and the column of each lane. -/
def readSrcs (w : L3) : List Src := [srcA w.toLaneHead 1, srcB w.toLaneHead 1]
/-- The read that it sends. -/
def readOp (w : L3) (e : LaneEnv) (t : Nat) : TileOp :=
  { id := 0, strm := .split e.c e.sl e.k, tag := tileTag e, kind := 0, word := t, n := e.acting.length, dst := w.dst.toNat,
    pitch := (readRegs w).length, fmts := (w.fmt.toNat, w.mfmt.toNat),
    cells := e.acting.map (fun i => (i, (e.g.v w.sa.toNat i).toNat, (e.g.v w.sb.toNat i).toNat)) }
/-- Its registers marked in its executing lanes: EMPTY as it is sent, FULL again where it is refused. -/
def marked (mark : Group → Nat → W32 → Group) (w : L3) (e : LaneEnv) (u : State) : State :=
  u.updGroup e.c e.sl (fun g => (readRegs w).foldl (fun g r => mark g r (e.exec &&& e.keep)) g)
/-- A read that is served, with its data on their way. -/
def servedRead (w : L3) (x : TileOp) : TileOp :=
  { x with st := 4, data := x.cells.map (fun y =>
      { lane := y.1, regs := regWords (isPair w.fmt) w.dst.toNat (trdValue w.toLaneHead x.shape x.value y.2.1 y.2.2) }) }
/-- What it does for lanes that execute. -/
def readTileOp (w : L3) (e : LaneEnv) (t nb : Nat) (u : State) : Res :=
  (tileRun nb false (readOp w e t)
    (fun o s => sendAndWait nb o (updSplit (marked Group.markEmpty w e s) e.c e.sl e.k (fun x => { x with unfinished := some (e.exec &&& e.keep) })))
    (fun x s => .next (setTileOp s nb (servedRead w x))) u).onTrap
    (fun s t => .trap (marked Group.markFull w e s) { t with mask := if t.mask = 0 then e.exec &&& e.keep else t.mask })

section
variable (he : laneEnv s c sl k g b w.prd (readSrcs w) = e)
  (h : LaneTurn s c sl k g b 2 w.prd (readSrcs w) [(w.dst.toNat, (readRegs w).length)])
include he h

theorem execTrd_idle (hm : e.exec &&& e.keep = 0) : execTrd w s = .next (doneLane (laneStart s e) c sl k) := by
  subst he
  unfold execTrd
  exact laneRun_next h (if_pos hm)

section
variable (hm : e.exec &&& e.keep ≠ 0)
include hm

theorem execTrd_reads :
    execTrd w s = .next (endL c sl k g.trapMode (readTileOp w e (laneWord s (w.aux.toNat % 4)) (tileNb s e) (laneStart s e))) := by
  subst he
  unfold execTrd
  exact laneRun_ends h (if_neg hm)
theorem execTrd_unsent (hx : tileOf (laneStart s e) (tileNb s e) (.split e.c e.sl e.k) (tileTag e) = none) :
    execTrd w s = .next (endL c sl k g.trapMode (sendAndWait (tileNb s e) (readOp w e (laneWord s (w.aux.toNat % 4)))
      (updSplit (marked Group.markEmpty w e (laneStart s e)) e.c e.sl e.k (fun x => { x with unfinished := some (e.exec &&& e.keep) })))) := by
  rw [execTrd_reads he h hm, readTileOp, tileRun_unsent hx]
  rfl
theorem execTrd_refused (hx : tileOf (laneStart s e) (tileNb s e) (.split e.c e.sl e.k) (tileTag e) = some x) (hst : x.st = 3) :
    execTrd w s = .next (raise (marked Group.markFull w e (dropTileOp (laneStart s e) (tileNb s e) x.id)) c sl 1 k g.trapMode
      { x.trap with mask := if x.trap.mask = 0 then e.exec &&& e.keep else x.trap.mask }) := by
  rw [execTrd_reads he h hm, readTileOp, tileRun_refused hx hst]
  rfl
theorem execTrd_served (hx : tileOf (laneStart s e) (tileNb s e) (.split e.c e.sl e.k) (tileTag e) = some x) (hst : x.st = 2) :
    execTrd w s = .next (doneLane (setTileOp (laneStart s e) (tileNb s e) (servedRead w x)) c sl k) := by
  rw [execTrd_reads he h hm, readTileOp, tileRun_accepted hx hst]
  rfl
end
end
end

/-! ## ENQ and ENQD (R345 to R347) -/

section
variable {u v : State} {e : LaneEnv} {w : L3} {lanes : List (Nat × Option Nat)}

/-- The lanes of one queue make one run. -/
theorem byQueue_same {l : List Nat} (q : Nat) (hl : l ≠ []) : byQueue (l.map (fun i => (i, q))) = [(q, l)] := by
  have hq : (l.map (fun i => (i, q))).map (·.2) = List.replicate l.length q := by simp [Function.comp_def]
  have hdedup : (List.replicate l.length q).dedup = [q] := List.replicate_dedup (by simpa using hl)
  have hmine : ((l.map (fun i => (i, q))).filter (fun x => x.2 == q)).map (·.1) = l := by simp [List.filter_map, Function.comp_def]
  simp only [byQueue, hq, hdedup, List.map_cons, List.map_nil, hmine]

/-- The runs of a split taken off those on their way. -/
def runsEnded (e : LaneEnv) (u : State) : State := { u with runs := u.runs.filter (fun x => !(x.strm == some e.runner)) }
/-- Where the runs of a split are all appended, they end and its word is complete. -/
theorem enqueue_appended (hr : ∃ x ∈ u.runs, x.strm = some e.runner) (hd : ∀ x ∈ u.runs, x.strm = some e.runner → x.done = true) :
    enqueue w e lanes u = .next (runsEnded e u) := by
  have hmine : u.runs.any (fun x => x.strm == some e.runner) = true := by simpa using hr
  have hwaits : u.runs.filter (fun x => x.strm == some e.runner && !x.done) = [] := by
    simp only [List.filter_eq_nil_iff, Bool.and_eq_true, beq_iff_eq, Bool.not_eq_true']
    rintro x hx ⟨hs, hn⟩
    rw [hd x hx hs] at hn
    cases hn
  simp only [enqueue, hmine, hwaits, if_true, runsEnded]

/-- The state v is the one from which the runs of a word leave: after the steps of its release, if it is one. -/
def Begun (w : L3) (e : LaneEnv) (u v : State) : Prop :=
  if w.ord = 2 then releaseSteps u e.c e.sl w.obs.toNat = .ok v else v = u
/-- What a word with a release sends along: the signature of its core, whose bit of the group it then clears (R349). -/
def sentSig (w : L3) (e : LaneEnv) (v : State) : BitVec 512 := if w.ord = 2 then (v.core e.c).sig else 0
def sigSent (w : L3) (e : LaneEnv) (v : State) : State := if w.ord = 2 then releaseBit v e.c e.sl else v
/-- The partition of the queues that a lane word names. -/
def queuePart (u : State) (e : LaneEnv) : Nat := (u.nbhdOf e.g).part
/-- The run of the lanes of a queue, sent. -/
def sendLanes (w : L3) (e : LaneEnv) (part : Nat) (sg : BitVec 512) (v : State) (x : Nat × List Nat) : State :=
  sendRun v { id := 0, part, queue := x.1, recs := x.2.map (recordOf e.g w.sa.toNat), strm := some e.runner, cmd := none,
              rel := if w.ord = 2 then some e.c else none, sig := sg, whos := x.2.map (fun i => ((laneIssuer v e).who i).later v) }

section
variable (hnew : ∀ x ∈ u.runs, x.strm ≠ some e.runner)
include hnew

theorem any_runs_eq_false : u.runs.any (fun x => x.strm == some e.runner) = false := by simpa using hnew
theorem enqueue_nil : enqueue w e [] u = .next u := by
  simp only [enqueue, any_runs_eq_false hnew, Bool.false_eq_true, if_false, List.isEmpty_nil, if_true]
/-- An index that names no queue traps before any append. -/
theorem enqueue_noQueue (hl : ∃ l ∈ lanes, l.2 = none) :
    enqueue w e lanes u = .trap u { cause := 0x48, info := 1, mask := e.exec &&& e.keep } := by
  have hsome : lanes.isEmpty = false := by
    obtain ⟨l, hl, _⟩ := hl
    simpa using List.ne_nil_of_mem hl
  have hnone : lanes.any (fun l => l.2.isNone) = true := by simpa using hl
  simp only [enqueue, any_runs_eq_false hnew, hsome, hnone, Bool.false_eq_true, if_false, if_true]
/-- Lanes that all name a queue send a run for each queue, and the word parks until they are appended. -/
theorem enqueue_sends {l : List (Nat × Nat)} (hl : l ≠ []) (hv : Begun w e u v) :
    enqueue w e (l.map (fun x => (x.1, some x.2))) u =
      .park (updSplit ((byQueue l).foldl (sendLanes w e (queuePart u e) (sentSig w e v)) (sigSent w e v)) e.c e.sl e.k
          (fun x => { x with unfinished := some (e.exec &&& e.keep) }))
        11 (.queue (queuePart u e) (((byQueue l).head?.map (·.1)).getD 0)) := by
  have hsome : (l.map (fun x => (x.1, some x.2))).isEmpty = false := by simpa using hl
  have hqueues : (l.map (fun x => (x.1, some x.2))).any (fun x => x.2.isNone) = false := by simp
  have hback : (l.map (fun x => (x.1, some x.2))).map (fun x => (x.1, x.2.getD 0)) = l := by simp [Function.comp_def]
  have hrel : (if w.ord = 2 then releaseSteps u e.c e.sl w.obs.toNat else .ok u : Rel) = .ok v := by
    unfold Begun at hv
    split at hv
    · next ho => rw [if_pos ho, hv]
    · next ho => rw [if_neg ho, hv]
  simp only [enqueue, any_runs_eq_false hnew, hsome, hqueues, hback, Bool.false_eq_true, if_false, beq_iff_eq, hrel]
  rfl
end
end

section
variable {s v : State} {c sl k : Nat} {g : Group} {b : LaneBlock} {w : L3} {e : LaneEnv}

/-- The runs of a split name it alike, whatever its word reads. -/
theorem runner_laneEnv (srcs srcs' : List Src) : (laneEnv s c sl k g b w.prd srcs).runner = (laneEnv s c sl k g b w.prd srcs').runner := by
  rw [LaneEnv.runner, LaneEnv.runner, trapMode_laneEnv, trapMode_laneEnv]
  rfl
/-- The split of a word that has sent its runs waits for the first of its queues. -/
def queueParked (part : Nat) (e : LaneEnv) (v : State) (q : Nat) : State :=
  updSplit (updSplit v e.c e.sl e.k (fun x => { x with unfinished := some (e.exec &&& e.keep) })) e.c e.sl e.k
    (fun x => { x with park := some ⟨11, .queue part q⟩ })

section
variable (he : laneEnv s c sl k g b w.prd [srcA w.toLaneHead 16] = e) (h : LaneTurn s c sl k g b 2 w.prd [srcA w.toLaneHead 16] [])
include he h

theorem execEnq_eq : execEnq w s = .next (endL c sl k g.trapMode (enqueue w e
    (e.acting.map (fun i => (i, outQueue (laneStart s e) e (e.w (w.aux.toNat % 4) % 8)))) (laneStart s e))) := by
  subst he
  exact laneRun_turn h _
theorem execEnq_appended (hr : ∃ x ∈ (laneStart s e).runs, x.strm = some e.runner)
    (hd : ∀ x ∈ (laneStart s e).runs, x.strm = some e.runner → x.done = true) :
    execEnq w s = .next (doneLane (runsEnded e (laneStart s e)) c sl k) := by
  rw [execEnq_eq he h, enqueue_appended hr hd]
  rfl
theorem execEnq_sends {q : Nat} (ha : e.acting ≠ []) (hnew : ∀ x ∈ (laneStart s e).runs, x.strm ≠ some e.runner)
    (hq : outQueue (laneStart s e) e (e.w (w.aux.toNat % 4) % 8) = some q) (hv : Begun w e (laneStart s e) v) :
    execEnq w s = .next (queueParked (queuePart (laneStart s e) e) e
      (sendLanes w e (queuePart (laneStart s e) e) (sentSig w e v) (sigSent w e v) (q, e.acting)) q) := by
  have hlanes : e.acting.map (fun i => (i, outQueue (laneStart s e) e (e.w (w.aux.toNat % 4) % 8))) =
      (e.acting.map (fun i => (i, q))).map (fun x => (x.1, some x.2)) := by simp [hq]
  rw [execEnq_eq he h, hlanes, enqueue_sends hnew (by simpa using ha) hv, byQueue_same q ha, ← he]
  rfl
theorem execEnq_noQueue (ha : e.acting ≠ []) (hnew : ∀ x ∈ (laneStart s e).runs, x.strm ≠ some e.runner)
    (hq : outQueue (laneStart s e) e (e.w (w.aux.toNat % 4) % 8) = none) :
    execEnq w s = .next (raise (laneStart s e) c sl 1 k g.trapMode { cause := 0x48, info := 1, mask := e.exec &&& e.keep }) := by
  rw [execEnq_eq he h, enqueue_noQueue hnew (by simpa [hq] using List.exists_mem_of_ne_nil _ ha)]
  rfl
end

/-- The index that a lane of an ENQD names, and the lanes whose index is enabled (R346). -/
def enqdIndex (w : L3) (e : LaneEnv) (i : Nat) : Nat := (e.g.v w.sb.toNat i).toNat % 8
def enqdLanes (w : L3) (e : LaneEnv) : List Nat :=
  e.acting.filter (fun i => (BitVec.ofNat 8 (e.w (w.aux.toNat % 4))).getLsbD (enqdIndex w e i))
/-- An index is below 8, so that bit of W[n] decides. -/
theorem enqdLanes_eq : enqdLanes w e = e.acting.filter (fun i => bit (e.w (w.aux.toNat % 4)) (enqdIndex w e i)) :=
  List.filter_congr fun i _ => by
    have hlt : enqdIndex w e i < 8 := Nat.mod_lt _ (by decide)
    simp only [BitVec.getLsbD_ofNat, hlt, decide_true, Bool.true_and, bit]

section
variable (he : laneEnv s c sl k g b w.prd [srcA w.toLaneHead 16, srcB w.toLaneHead 1] = e)
  (h : LaneTurn s c sl k g b 2 w.prd [srcA w.toLaneHead 16, srcB w.toLaneHead 1] [])
include he h

theorem execEnqd_eq : execEnqd w s = .next (endL c sl k g.trapMode (enqueue w e
    ((enqdLanes w e).map (fun i => (i, outQueue (laneStart s e) e (enqdIndex w e i)))) (laneStart s e))) := by
  subst he
  rw [enqdLanes_eq]
  exact laneRun_turn h _
theorem execEnqd_appended (hr : ∃ x ∈ (laneStart s e).runs, x.strm = some e.runner)
    (hd : ∀ x ∈ (laneStart s e).runs, x.strm = some e.runner → x.done = true) :
    execEnqd w s = .next (doneLane (runsEnded e (laneStart s e)) c sl k) := by
  rw [execEnqd_eq he h, enqueue_appended hr hd]
  rfl

variable (hnew : ∀ x ∈ (laneStart s e).runs, x.strm ≠ some e.runner)
include hnew

theorem execEnqd_idle (ha : enqdLanes w e = []) : execEnqd w s = .next (doneLane (laneStart s e) c sl k) := by
  rw [execEnqd_eq he h, ha, List.map_nil, enqueue_nil hnew]
  rfl
theorem execEnqd_sends {q : Nat → Nat} (ha : enqdLanes w e ≠ [])
    (hq : ∀ i ∈ enqdLanes w e, outQueue (laneStart s e) e (enqdIndex w e i) = some (q i)) (hv : Begun w e (laneStart s e) v) :
    execEnqd w s = .next (queueParked (queuePart (laneStart s e) e) e
      ((byQueue ((enqdLanes w e).map (fun i => (i, q i)))).foldl (sendLanes w e (queuePart (laneStart s e) e) (sentSig w e v)) (sigSent w e v))
      (((byQueue ((enqdLanes w e).map (fun i => (i, q i)))).head?.map (·.1)).getD 0)) := by
  have hlanes : (enqdLanes w e).map (fun i => (i, outQueue (laneStart s e) e (enqdIndex w e i))) =
      ((enqdLanes w e).map (fun i => (i, q i))).map (fun x => (x.1, some x.2)) := by
    rw [List.map_map]
    exact List.map_congr_left fun i hi => by rw [hq i hi]; rfl
  rw [execEnqd_eq he h, hlanes, enqueue_sends hnew (by simpa using ha) hv, ← he]
  rfl
theorem execEnqd_noQueue (hq : ∃ i ∈ enqdLanes w e, outQueue (laneStart s e) e (enqdIndex w e i) = none) :
    execEnqd w s = .next (raise (laneStart s e) c sl 1 k g.trapMode { cause := 0x48, info := 1, mask := e.exec &&& e.keep }) := by
  rw [execEnqd_eq he h, enqueue_noQueue hnew (by simpa using hq)]
  rfl
end
end

/-- Settles O38: LCPY by its lanes; TDEFV and TRD by the operation that they find; ENQ and ENQD by the runs of their split. -/
theorem laneMoves : Obligations.LaneMoves := by
  refine ⟨?copies, ?tiles, ?queues⟩
  case copies =>
    intro s c sl k g b w a h
    exact execLcpy_adds h
  case tiles =>
    intro s c sl k g b w x tag t n a e pair r d regs at' waits nbOf
    have htag (srcs : List Src) : tag = tileTag (laneEnv s c sl k g b w.prd srcs) := (tileTag_laneEnv srcs).symm
    constructor
    · intro hregs hshape h
      rw [htag a]
      exact ⟨execTdefv_idle rfl hregs hshape h, execTdefv_accepted rfl hregs hshape h, execTdefv_unsent rfl hregs hshape h,
        execTdefv_refused rfl hregs hshape h⟩
    · intro h
      rw [htag r]
      exact ⟨execTrd_unsent rfl h, execTrd_refused rfl h, execTrd_idle rfl h, execTrd_served rfl h⟩
  case queues =>
    intro s c sl k g b w a a2 told quiet sig begun send away parks noQueue
    refine ⟨?enq, ?enqd, fun hr => ⟨?enqAgain, ?enqdAgain⟩⟩
    case enq =>
      intro h e j ha hnew
      exact ⟨fun q v hq hv => execEnq_sends rfl h ha hnew hq hv, execEnq_noQueue rfl h ha hnew⟩
    case enqd =>
      intro h e j on hnew
      exact ⟨execEnqd_idle rfl h hnew, fun q v ha hq hv => execEnqd_sends rfl h hnew ha hq hv, execEnqd_noQueue rfl h hnew⟩
    case enqAgain =>
      intro h hd
      exact execEnq_appended rfl h hr hd
    case enqdAgain =>
      intro h hd
      rw [runner_laneEnv a a2] at hr
      exact execEnqd_appended rfl h hr hd

end Sys2Proof.Machine
end

section
/-! O45: the steps of the copy engines, of the operand fetcher and of the matrix units. -/

namespace Sys2Proof.Machine
open Bits

/-! ## Copies (R164 to R168, R174, R175) -/

section
variable {s : State} {x : Copy} (hx : copyOf s s.input.core s.input.x = some x) (hnew : x.started = false)
  (hfirst : ∀ z ∈ (s.core s.input.core).copies.takeWhile (fun z => z.id != x.id), z.eng = x.eng → holdsUp s s.input.core z = false)

include hx hnew hfirst

theorem exec_copyStart_at_once (hk : x.kind ≠ 4) :
    exec .copyStart s = .next (updCopy s s.input.core x.id (fun z => { z with started := true })) := by
  change execCopyStart s = _
  refine event_eq_next ?_
  simpa [hx, hnew, hk] using hfirst

variable {o : TileOp} (hk : x.kind = 4) (ho : tileOpOf s s.input.core x = some o)
include hk ho

theorem exec_copyStart_served (hst : o.st = 2) :
    exec .copyStart s = .next (updCopy s s.input.core x.id (fun z => startTile (copyParty s s.input.core x) z o)) := by
  change execCopyStart s = _
  refine event_eq_next ?_
  simpa [hx, hnew, hk, ho, hst] using hfirst
theorem exec_copyStart_refused (hst : o.st = 3) :
    exec .copyStart s = .next (updCopy s s.input.core x.id (fun z => { z with started := true, fail := some o.trap })) := by
  change execCopyStart s = _
  refine event_eq_next ?_
  simpa [hx, hnew, hk, ho, hst] using hfirst
end

section
variable {s u v : State} {x : Copy}

/-- A unit of a row copy whose bytes are read, whose places are checked and whose write is taken (R165, R166). -/
theorem moveUnit_rows {c : Nat} {bs : List Byte} {hops : List Hop} (hk : x.kind = 1)
    (hr : engineRead s c x ((x.from' + x.off) % 2 ^ 64) (x.unit s) (x.ahead (x.unit s)) = .bytes u bs)
    (hp : sidePlaces s (copyParty s c x) .write ((x.to + x.off) % 2 ^ 64) (x.unit s) (x.ahead (x.unit s)) = .ok hops)
    (hw : engineWrite (keepLeaves u (copyParty s c x) hops) c x hops bs = .ok v) :
    moveUnit s c x = updCopy v c x.id (fun z => z.advance (x.unit s)) := by
  have hwrites : x.writes = true := by simp [Copy.writes, hk]
  have hbytes : unitBytes s c x (x.unit s) = .bytes u bs := by simp only [unitBytes, hk, hr]
  simp only [moveUnit, hbytes, hwrites, if_true, hp, hk, hw]
  rfl
variable (hx : copyOf s s.input.core s.input.x = some x)
include hx

theorem exec_copyUnitWrite_rows (hstart : x.started = true) (hheld : x.held = none) (hfail : x.fail = none) (hmoved : x.moved = false)
    (hk : x.kind = 1) : exec .copyUnitWrite s = .next (moveUnit s s.input.core x) := by
  change execCopyUnitWrite s = _
  refine event_eq_next ?_
  simp only [hx, Option.bind_some, hstart, hheld, hfail, hmoved, hk, Option.isSome_none, Bool.not_true, Bool.or_self, Bool.false_eq_true, if_false]
  rfl
theorem exec_copyComplete_leaves (hstart : x.started = true) (hwait : x.waiting = 0) (hsent : unsent s x = false)
    (hend : x.moved = true ∨ x.fail.isSome = true) (hk : x.kind ≠ 4) :
    exec .copyComplete s = .next ((({ s with
      requests := s.requests.filter (fun r => !(r.core == s.input.core && r.slot == 49 && r.split == x.id && (r.strong || r.kind == 4))) } : State).updCore
        s.input.core (fun k => { k with copies := k.copies.filter (fun z => z.id != x.id) })).updGroup s.input.core x.slot
          (fun g => g.copyEnds x.batch x.fail)) := by
  have hover : (x.moved || x.fail.isSome) = true := by simpa using hend
  change execCopyComplete s = _
  refine event_eq_next ?_
  simp only [hx, Option.bind_some, hstart, hwait, hsent, hover, if_neg hk, bne_self_eq_false, Bool.not_true, Bool.or_self, Bool.false_eq_true, if_false]
end

/-! ## The fetcher and the units (R182, R259, R261) -/

section
variable {s : State} {y : Block} {q : Seq}
  (hb : s.block? (s.input.core * 8 + s.input.idx % 8) = some y) (hq : y.seq = some q)
include hb hq

theorem exec_fetcherDeliver_fed (hf : (y.streams.getD (s.input.x % 8) {}).feed ≠ []) :
    exec .fetcherDeliver s = .next (drainNow (deliverSome s (s.input.core * 8 + s.input.idx % 8) (s.input.x % 8) s.input.len)
      (s.input.core * 8 + s.input.idx % 8)) := by
  have hfed : (y.streams.getD (s.input.x % 8) {}).feed.isEmpty = false := by simpa using hf
  change execFetcherDeliver s = _
  refine event_eq_next ?_
  simp only [hb, Option.bind_some, hq, hfed, Option.isSome_some, Bool.not_false, Bool.and_self, if_true]
theorem exec_matrixUnitComplete_first {f : Flight} {fs : List Flight} (hs : q.stopped = false) (hfl : q.flights = f :: fs)
    (hc : f.complete = true) (hu : f.unit = s.input.unit) :
    exec .matrixUnitComplete s = .next (pendNow (drainNow (updSeq s (s.input.core * 8 + s.input.idx % 8) (fun z => { z with flights := fs }))
      (s.input.core * 8 + s.input.idx % 8)) (s.input.core * 8 + s.input.idx % 8)) := by
  change execMatrixUnitComplete s = _
  refine event_eq_next ?_
  simp only [hb, Option.bind_some, hq, hs, hfl, hc, hu, beq_self_eq_true, Bool.and_self, if_true]
end

/-- Settles O45: a copy's start, unit and end by where it stands, and the two events of a block with a sequencer. -/
theorem engineEvents : Obligations.EngineEvents := by
  intro s u v x bs hops y q f fs c b k
  constructor
  · intro hx
    refine ⟨fun hnew hfirst => ⟨?atOnce, fun o hk ho => ⟨?served, ?refused⟩⟩, ?unit, ?leaves⟩
    case atOnce => exact exec_copyStart_at_once hx hnew hfirst
    case served => exact exec_copyStart_served hx hnew hfirst hk ho
    case refused => exact exec_copyStart_refused hx hnew hfirst hk ho
    case unit =>
      intro hstart hheld hfail hmoved hk hr hp hw
      rw [exec_copyUnitWrite_rows hx hstart hheld hfail hmoved hk, moveUnit_rows hk hr hp hw]
    case leaves => exact exec_copyComplete_leaves hx
  · intro hb hq
    exact ⟨exec_fetcherDeliver_fed hb hq, exec_matrixUnitComplete_first hb hq⟩

end Sys2Proof.Machine
end

section
/-! O12: the scalar tile words, by what the home has answered to their operation. -/

namespace Sys2Proof.Machine
open Bits

/-- A read that is parked at its home is accepted for a word that does not wait for its value (R191, R205). -/
theorem tileRun_parkedRead {s : State} {nb : Nat} {o x : TileOp} {first accepted : TileOp → State → Res}
    (h : tileOf s nb o.strm o.tag = some x) (hst : x.st = 1) : tileRun nb true o first accepted s = accepted x s := by
  simp [tileRun, h, hst]

section
variable {s : State} {c sl : Nat} {g : Group} {x : TileOp}

/-- The tag of a scalar word's operation: a word of trap mode has one of its own (R367), and TRDS one beside it. -/
def scalarTag (g : Group) : Nat := if g.trapMode then 1 else 0
theorem readTag_eq (g : Group) : (if g.trapMode = true then 3 else 2) = scalarTag g + 2 := by
  unfold scalarTag
  split <;> rfl
/-- The name and the shape that a scalar word gives, and the pitch beside them. -/
def scalarWord (g : Group) (a : BitVec 6) : Nat := (g.reg a).toNat % 2 ^ 32
def scalarPitch (g : Group) (a : BitVec 6) : Nat := (g.reg a).toNat / 2 ^ 32

/-- A scalar word that waits for its home once its operation is sent (R192). -/
def sentScalar (s : State) (nb c sl : Nat) (o : TileOp) : State :=
  (sendTileOp s nb o).updGroup c sl (fun h => { h with park := some ⟨5, .tile nb (o.word % 4096)⟩ })
theorem endS_sendAndWait (nb : Nat) (o : TileOp) : endS c sl 4 (sendAndWait nb o s) = sentScalar s nb c sl o := rfl

/-- A scalar word whose operation its home has refused takes the trap of the refusal (R191). -/
theorem scalarRun_tileRefused {regs : List Nat} {body : Nat → Nat → Group → Res} {nb : Nat} {early : Bool} {o : TileOp}
    {first accepted : TileOp → State → Res} (h : ScalarTurn s c sl g false 0 regs) (hb : body c sl g = tileRun nb early o first accepted s)
    (hx : tileOf s nb o.strm o.tag = some x) (hst : x.st = 3) :
    scalarRun false 0 4 regs body s = .next (raise (dropTileOp s nb x.id) c sl 0 0 true x.trap) := by
  rw [scalarRun_turn h, hb, tileRun_refused hx hst]
  rfl

variable {d a b : BitVec 6}

/-! ## TDEF (R204) -/

section
variable (h : ScalarTurn s c sl g false 0 [a.toNat, b.toNat])
include h

theorem execTdef_sends (hroom : (s.core c).copies.length < 64) (hx : tileOf s (s.blockOf g).nb (.scalar c sl) (scalarTag g) = none)
    (hshape : shapeBad (scalarWord g a) = false)
    (hrows : rowsOutside (scalarIssuer s c sl g).p apScalar (scalarWord g a) (g.reg b).toNat (scalarPitch g a) = none) :
    execTdef a b s = .next (sentScalar s (s.blockOf g).nb c sl
      { id := 0, strm := .scalar c sl, tag := scalarTag g, kind := 1, word := scalarWord g a }) := by
  unfold scalarWord at hshape
  unfold scalarWord scalarPitch at hrows
  unfold execTdef
  rw [scalarRun_turn h, tileRun_unsent hx]
  simp only [field_reg, hshape, Bool.false_eq_true, if_false, hrows, if_neg (Nat.not_le.2 hroom), endS_sendAndWait]
  rfl
theorem execTdef_accepted (hroom : (s.core c).copies.length < 64)
    (hx : tileOf s (s.blockOf g).nb (.scalar c sl) (scalarTag g) = some x) (hst : x.st = 2) :
    execTdef a b s = .next (doneScalar (addCopy (dropTileOp s (s.blockOf g).nb x.id) c sl
      { id := 0, eng := freeEngine s c, slot := sl, batch := 0, kind := 3, src := g.reg b, dst := 0,
        sst1 := BitVec.ofNat 64 (if scalarPitch g a = 0 then rowBytes (scalarWord g a) else scalarPitch g a), rowb := rowBytes (scalarWord g a),
        n1 := tileRows (scalarWord g a), tile := scalarWord g a, waiting := 1, pc := g.spc }) c sl 4) := by
  unfold execTdef
  rw [scalarRun_turn h, tileRun_accepted hx hst]
  simp only [if_neg (Nat.not_le.2 hroom), field_reg, BitVec.ofNat_toNat, BitVec.setWidth_eq]
  rfl
theorem execTdef_refused (hx : tileOf s (s.blockOf g).nb (.scalar c sl) (scalarTag g) = some x) (hst : x.st = 3) :
    execTdef a b s = .next (raise (dropTileOp s (s.blockOf g).nb x.id) c sl 0 0 true x.trap) :=
  scalarRun_tileRefused h rfl hx hst

/-! ## TRDS (R205) -/

theorem execTrds_sends (hroom : (s.core c).copies.length < 64) (hx : tileOf s (s.blockOf g).nb (.scalar c sl) (scalarTag g + 2) = none)
    (hdst : (scalarIssuer s c sl g).p.outside apGranule (g.reg b).toNat 1 = none) :
    execTrds a b s = .next (sentScalar s (s.blockOf g).nb c sl
      { id := 0, strm := .scalar c sl, tag := scalarTag g + 2, kind := 0, word := scalarWord g a, dst := (g.reg b).toNat,
        pitch := scalarPitch g a }) := by
  unfold execTrds
  rw [scalarRun_turn h]
  simp only [readTag_eq, field_reg]
  rw [tileRun_unsent hx]
  simp only [hdst, if_neg (Nat.not_le.2 hroom), endS_sendAndWait]
  rfl
theorem execTrds_accepted (hroom : (s.core c).copies.length < 64)
    (hx : tileOf s (s.blockOf g).nb (.scalar c sl) (scalarTag g + 2) = some x) (hst : x.st = 1 ∨ x.st = 2) :
    execTrds a b s = .next (doneScalar (setTileOp (addCopy s c sl
      { id := 0, eng := freeEngine s c, slot := sl, batch := 0, kind := 4, src := 0, dst := g.reg b,
        dst1 := BitVec.ofNat 64 (scalarPitch g a), rowb := 1, tile := scalarWord g a, pc := g.spc }) (s.blockOf g).nb
      { x with copy := some s.nextId }) c sl 4) := by
  unfold execTrds
  rw [scalarRun_turn h]
  simp only [readTag_eq, field_reg, BitVec.ofNat_toNat, BitVec.setWidth_eq]
  rw [hst.elim (tileRun_parkedRead hx) (tileRun_accepted hx), if_neg (Nat.not_le.2 hroom)]
  rfl
theorem execTrds_refused (hx : tileOf s (s.blockOf g).nb (.scalar c sl) (scalarTag g + 2) = some x) (hst : x.st = 3) :
    execTrds a b s = .next (raise (dropTileOp s (s.blockOf g).nb x.id) c sl 0 0 true x.trap) := by
  rw [← readTag_eq] at hx
  exact scalarRun_tileRefused h rfl hx hst
end

/-! ## TKILL and TQRY (R206, R207) -/

section
variable (h : ScalarTurn s c sl g false 0 [a.toNat])
include h

theorem execTkill_sends (hx : tileOf s (s.blockOf g).nb (.scalar c sl) (scalarTag g) = none) :
    execTkill a s = .next (sentScalar s (s.blockOf g).nb c sl
      { id := 0, strm := .scalar c sl, tag := scalarTag g, kind := 2, word := scalarWord g a }) := by
  unfold execTkill
  rw [scalarRun_turn h, tileRun_unsent hx]
  rfl
theorem execTkill_accepted (hx : tileOf s (s.blockOf g).nb (.scalar c sl) (scalarTag g) = some x) (hst : x.st = 2) :
    execTkill a s = .next (doneScalar (dropTileOp s (s.blockOf g).nb x.id) c sl 4) := by
  unfold execTkill
  rw [scalarRun_turn h, tileRun_accepted hx hst]
  rfl
theorem execTkill_refused (hx : tileOf s (s.blockOf g).nb (.scalar c sl) (scalarTag g) = some x) (hst : x.st = 3) :
    execTkill a s = .next (raise (dropTileOp s (s.blockOf g).nb x.id) c sl 0 0 true x.trap) :=
  scalarRun_tileRefused h rfl hx hst
end

theorem execTqry_writes (h : ScalarTurn s c sl g false 0 [d.toNat, a.toNat]) :
    execTqry d a s = .next (wroteScalar s c sl 4 d (BitVec.ofNat 64 (tileQuery (s.nbhdOf g) ((g.reg a).toNat % 4096)))) :=
  scalarRun_putS h rfl
end

/-- Settles O12: each word by its operation, which it finds accepted, refused or not yet sent. -/
theorem tileScalarWords : Obligations.TileScalarWords := by
  refine ⟨?answered, ?kill, ?copies⟩
  case answered =>
    intro s c sl g d a b x h nb tag w pitch
    exact ⟨execTdef_accepted (h.mono (by simp)), execTrds_accepted (h.mono (by simp)), execTkill_accepted (h.mono (by simp)),
      execTqry_writes (h.mono (by simp))⟩
  case kill =>
    intro s c sl g a x h nb w tag
    exact ⟨execTkill_sends h, execTkill_refused h⟩
  case copies =>
    intro s c sl g a b x h nb w pitch tag i parks refused
    exact ⟨execTdef_sends h, execTdef_refused h, execTrds_sends h, execTrds_refused h⟩

end Sys2Proof.Machine
end

section
/-! O44: the events of a tile file, each by where its name or its operation stands. -/

namespace Sys2Proof.Machine
open Bits

/-- A kill is due where every counted read of the name came after it. -/
theorem killDue_eq_true {n : Nbhd} {name : Nat} {t : TileName} (hst : t.st = 2) (hkill : t.kill = true)
    (hreads : ∀ p ∈ n.ops, p.kind = 0 → p.counted = true → p.word % 4096 = name → p.late = true) : killDue n name t = true := by
  have hnone : n.ops.any (fun o => o.kind == 0 && o.counted && !o.late && o.word % 4096 == name) = false := by
    simp only [Bool.eq_false_iff, ne_eq, List.any_eq_true, Bool.and_eq_true, beq_iff_eq, Bool.not_eq_true']
    rintro ⟨p, hp, ⟨⟨hkind, hcounted⟩, hbefore⟩, hname⟩
    exact hbefore (hreads p hp hkind hcounted hname)
  simp only [killDue, hst, hkill, hnone, beq_self_eq_true, Bool.not_false, Bool.and_self]

section
variable {s : State} {n : Nbhd} (hn : s.nbhd? s.input.idx = some n)
include hn

/-! ## Operations at their home (R190, R191, R197) -/

section
variable {o : TileOp} (ho : n.ops.find? (fun o => o.id == s.input.x) = some o)
include ho

theorem opOf_eq_some : opOf s s.input.idx s.input.x = some (n, o) := by
  simp only [opOf, hn, Option.bind_some, ho, Option.map_some]
/-- An operation before which its stream has none on that name that is not yet judged. -/
theorem execTileOpAccept_first (hst : o.st = 0)
    (hfirst : ∀ p ∈ n.ops.takeWhile (fun p => p.id != o.id), p.strm = o.strm → p.word % 4096 = o.word % 4096 → p.st ≠ 0) :
    exec .tileOpAccept s = .next (judged (s.updNbhd s.input.idx (fun n' =>
      { (judge s n o).1 with ops := n'.ops.filter (fun p => p.id != o.id) ++ [(judge s n o).2] })) s.input.idx) := by
  have hdue : ¬(o.st ≠ 0 ∨ (n.ops.takeWhile (fun p => p.id != o.id)).any
      (fun p => p.strm == o.strm && p.word % 4096 == o.word % 4096 && p.st == 0) = true) := by
    simp only [hst, ne_eq, not_true_eq_false, false_or, List.any_eq_true, Bool.and_eq_true, beq_iff_eq]
    rintro ⟨p, hp, ⟨hstrm, hname⟩, hunjudged⟩
    exact hfirst p hp hstrm hname hunjudged
  change execTileOpAccept s = _
  refine event_eq_next ?_
  rw [opOf_eq_some hn ho, Option.bind_some]
  exact if_neg hdue
theorem execTileReadComplete_served {c sl k : Nat} (hst : o.st = 4) (hstrm : o.strm = .split c sl k) :
    exec .tileReadComplete s = .next ((dropTileOp s s.input.idx o.id).updGroup c sl (fun g => o.data.foldl Group.produce g)) := by
  change execTileReadComplete s = _
  refine event_eq_next ?_
  simp only [opOf_eq_some hn ho, Option.bind_some, hst, hstrm]
end

/-! ## Definitions (R194, R195) -/

section
variable {t : TileName} (ht : n.tiles.getD (s.input.x % 4096) {} = t) (hst : t.st = 1)
include ht hst

/-- A definition by lanes brings its bytes with it. -/
theorem execTileDefined_value (hv : t.value ≠ []) :
    exec .tileDefined s = .next (changeName s s.input.idx (s.input.x % 4096) (fun x => { x with st := 2, place := placeFor s n t })) := by
  have hbytes : (!t.value.isEmpty) = true := by simpa using hv
  change execTileDefined s = _
  refine event_eq_next ?_
  simp only [hn, Option.bind_some, ht, if_neg (not_not_intro hst), if_pos hbytes]

variable {y : Nat × Copy} (hy : defCopy s s.input.idx (s.input.x % 4096) = some y)
include hy

/-- One by TDEF takes the bytes that its copy has moved. -/
theorem execTileDefined_copied (hv : t.value = []) (hmoved : y.2.moved = true) (hfail : y.2.fail = none) :
    exec .tileDefined s = .next (updCopy (changeName s s.input.idx (s.input.x % 4096) (fun x =>
      { x with st := 2, value := y.2.data, place := placeFor s n t })) y.1 y.2.id (fun z => { z with waiting := 0 })) := by
  change execTileDefined s = _
  refine event_eq_next ?_
  simp only [hn, Option.bind_some, ht, if_neg (not_not_intro hst), hv, List.isEmpty_nil, Bool.not_true, Bool.false_eq_true, if_false, hy,
    hmoved, hfail, Option.isNone_none, Bool.and_self, if_true]
theorem execTileDefineFail_failed (hfail : y.2.fail ≠ none) :
    exec .tileDefineFail s = .next (updCopy (changeName s s.input.idx (s.input.x % 4096) (fun x => { x with st := 0, word := 0 })) y.1 y.2.id
      (fun z => { z with waiting := 0 })) := by
  change execTileDefineFail s = _
  refine event_eq_next ?_
  simp only [hn, Option.bind_some, ht, if_neg (not_not_intro hst), hy, if_pos (Option.isSome_iff_ne_none.2 hfail)]
end

/-! ## Kills and moves (R198, R200) -/

section
variable {t : TileName} (ht : n.tiles.getD (s.input.x % 4096) {} = t)
include ht

theorem execTileKillEffect_due (hdue : killDue n (s.input.x % 4096) t = true) :
    exec .tileKillEffect s = .next (killName s s.input.idx (s.input.x % 4096)) := by
  change execTileKillEffect s = _
  refine event_eq_next ?_
  simp only [hn, Option.bind_some, ht, if_pos hdue]
/-- L2 and the backing area have room for every DEFINED value (R193, R200). -/
theorem execTilePlacementMove_roomy (hst : t.st = 2) (hop : s.input.op = 3 ∨ s.input.op = 4) :
    exec .tilePlacementMove s = .next (s.updNbhd s.input.idx (fun m =>
      { m with tiles := m.tiles.set (s.input.x % 4096) { t with place := s.input.op, core := s.input.core } })) := by
  change execTilePlacementMove s = _
  refine event_eq_next ?_
  rw [hn, Option.bind_some, ht]
  refine if_pos ⟨hst, ?_⟩
  obtain hop | hop := hop <;> simp only [hop]
end

/-! ## Deadlock (R201) -/

theorem execTileDeadlock_stuck (hclocks : 16384 ≤ n.stuckFor) (hstuck : tileStuck s s.input.idx n = true)
    (hrun : nbStopped s s.input.idx = false) :
    exec .tileDeadlock s = .next (judged (s.updNbhd s.input.idx (fun m => { m with stuckFor := 0, ops := m.ops.map (fun o =>
      if partyAwaits s s.input.idx o then { o with st := 3, counted := false, trap := deadlockTrap o.word } else o) })) s.input.idx) := by
  have hdue : 16384 ≤ n.stuckFor ∧ tileStuck s s.input.idx n = true ∧ (!nbStopped s s.input.idx) = true := ⟨hclocks, hstuck, by simp [hrun]⟩
  change execTileDeadlock s = _
  refine event_eq_next ?_
  rw [hn, Option.bind_some]
  exact if_pos hdue
end

/-- Settles O44: the premises of each clause make its event due. -/
theorem tileEvents : Obligations.TileEvents := by
  refine ⟨?_, ?_⟩
  · intro s n o y c sl k hn nb name t
    refine ⟨execTileOpAccept_first hn, execTileDefined_value hn rfl, ?copied, ?failed, ?served, ?kill, execTilePlacementMove_roomy hn rfl⟩
    case copied => exact fun hst hv hy => execTileDefined_copied hn rfl hst hy hv
    case failed => exact fun hst hy => execTileDefineFail_failed hn rfl hst hy
    case served => exact fun ho hst => execTileReadComplete_served hn ho hst
    case kill => exact fun hst hkill hreads => execTileKillEffect_due hn rfl (killDue_eq_true hst hkill hreads)
  · intro s n hn
    exact execTileDeadlock_stuck hn

end Sys2Proof.Machine
end

section
/-! O53: a scalar word that writes one register writes it, moves its group on, and leaves everything else. -/

namespace Sys2Proof.Machine
open Bits

/-! ## Rules of the table of groups and of the scalar registers -/

theorem get?_modify_of_ne {α : Type} (f : α → α) (m : NMap α) {k j : Nat} (hj : j ≠ k) : (NMap.modify f m k).get? j = m.get? j := by
  induction m with
  | nil => rfl
  | cons x m ih =>
    obtain ⟨n, v⟩ := x
    by_cases h : n = k
    · simp [NMap.modify, NMap.get?, h, hj.symm]
    · simp [NMap.modify, NMap.get?, h, ih]
@[simp] theorem group?_updGroup (s : State) (c sl : Nat) (f : Group → Group) : (s.updGroup c sl f).group? c sl = (s.group? c sl).map f :=
  get?_modify ..
/-- The group of a complete word that wrote a register. -/
theorem group?_wroteScalar {s : State} {c sl : Nat} {g : Group} (hg : s.group? c sl = some g) (len : Nat) (d : BitVec 6) (v : W64) :
    (wroteScalar s c sl len d v).group? c sl =
      some { g.setS (g.sname d.toNat) v with spc := g.spc + BitVec.ofNat 64 len, park := none, arrived := none } := by
  rw [wroteScalar, group?_updGroup, hg, Option.map_some]
/-- A write of a scalar register leaves the others. -/
theorem s_setS_of_ne {g : Group} {k r : Nat} (v : W64) (hr : r ≠ k) : (g.setS k v).s r = g.s r := by
  unfold Group.setS Group.s
  by_cases hk : k < 64 <;> by_cases hr64 : r < 64
  · simp [hk, hr64, NMap.getD, NMap.get?_set, hr.symm]
  · simp [hk, hr64]
  · simp [hk, hr64]
  · have hne : ¬k - 64 = r - 64 := by omega
    simp [hk, hr64, NMap.getD, NMap.get?_set, hne]
/-- A group with one scalar register written is the group but for its tables of scalar registers. -/
theorem setS_restored (g : Group) (k : Nat) (v : W64) : { g.setS k v with sregs := g.sregs, ts := g.ts } = g := by
  unfold Group.setS
  split <;> rfl

/-! ## The frame of a word that writes one register -/

/-- A state is another in which the group g of a slot has a new PC, has left its wait, and may hold another value in register d; nothing
else differs (R214). -/
def ScalarFrame (s : State) (c sl : Nat) (g : Group) (d : BitVec 6) (t : State) : Prop :=
  (∀ e, Memory.get t.mem e = Memory.get s.mem e ∧ Memory.get t.chip e = Memory.get s.chip e ∧ Memory.get t.spad e = Memory.get s.spad e) ∧
  { t with groups := s.groups } = s ∧ (∀ k, k ≠ c * 48 + sl → t.groups.get? k = s.groups.get? k) ∧
  ∃ h, t.group? c sl = some h ∧ (∀ r, r ≠ g.sname d.toNat → h.s r = g.s r) ∧
    { h with sregs := g.sregs, ts := g.ts, spc := g.spc, park := g.park, arrived := g.arrived } = g

theorem scalarFrame_wroteScalar {s : State} {c sl : Nat} {g : Group} (hg : s.group? c sl = some g) (len : Nat) (d : BitVec 6) (v : W64) :
    ScalarFrame s c sl g d (wroteScalar s c sl len d v) := by
  have hfields := congrArg (fun x : Group => { x with spc := g.spc, park := g.park, arrived := g.arrived })
    (setS_restored g (g.sname d.toNat) v)
  exact ⟨fun _ => ⟨rfl, rfl, rfl⟩, rfl, fun k hk => get?_modify_of_ne _ _ hk, _, group?_wroteScalar hg .., fun r hr => s_setS_of_ne v hr, hfields⟩
/-- Every word whose whole meaning is one value, computed from its group and put in a register, has that frame. -/
theorem scalarFrame_scalarPure {s t : State} {c sl : Nat} {g : Group} {d : BitVec 6} {regs srcs : List Nat} {len : Nat} {f : Group → W64}
    (h : ScalarTurn s c sl g false 0 regs) (hs : ∀ r ∈ d.toNat :: srcs, r ∈ regs) (ht : scalarPure len d.toNat srcs f s = .next t) :
    ScalarFrame s c sl g d t := by
  have ⟨_, hg, _⟩ := h
  rw [scalarPure_turn h hs] at ht
  cases ht
  exact scalarFrame_wroteScalar hg len d (f g)

/-- Settles O53: the whole meaning of each word is one value put in its register (scalarPure). -/
theorem scalarRegisterFrames : Obligations.ScalarRegisterFrames := by
  intro s t c sl g d a b n f i l y x j h
  change ∀ q ∈ _, exec q s = .next t → ScalarFrame s c sl g d t
  simp only [List.forall_mem_cons, List.not_mem_nil, false_implies, implies_true, and_true]
  and_intros
  all_goals exact fun ht => scalarFrame_scalarPure h (by simp) ht

end Sys2Proof.Machine
end

section
/-! O6: SFMT sets the value that LISSUE captures, with the reserved bits of the FMTR dropped and its reserved codes replaced. -/

namespace Sys2Proof.Machine
open Bits

/-! ## The FMTR as a write of it leaves it (Table 3-10, R74) -/

/-- An FMTR by its formats, its SCM, its RM and its SATS, with the reserved bits 0. -/
def fmtrOf (formats : BitVec 12) (scm : BitVec 2) (rm : BitVec 3) (sats : BitVec 1) : W32 := formats ++ scm ++ rm ++ sats ++ 0#14
/-- An SCM and an RM as a write stores them. -/
def scmStored (x : BitVec 2) : BitVec 2 := if x = 3 then 0 else x
def rmStored (x : BitVec 3) : BitVec 3 := if x.toNat ∈ [0, 6, 7] then 1 else x

theorem toNat_scmStored : ∀ x : BitVec 2, (scmStored x).toNat = if x.toNat = 3 then 0 else x.toNat := by decide
theorem toNat_rmStored : ∀ x : BitVec 3, (rmStored x).toNat = if x.toNat = 0 ∨ 5 < x.toNat then 1 else x.toNat := by decide
/-- Two parts of a word joined are a sum. -/
theorem toNat_append_eq_add {m n : Nat} (x : BitVec m) (y : BitVec n) : (x ++ y).toNat = x.toNat * 2 ^ n + y.toNat := by
  rw [BitVec.toNat_append, ← Nat.shiftLeft_add_eq_or_of_lt y.isLt, Nat.shiftLeft_eq]
theorem toNat_fmtrOf (formats : BitVec 12) (scm : BitVec 2) (rm : BitVec 3) (sats : BitVec 1) : (fmtrOf formats scm rm sats).toNat =
    formats.toNat * 2 ^ 20 + scm.toNat * 2 ^ 18 + rm.toNat * 2 ^ 15 + sats.toNat * 2 ^ 14 := by
  simp only [fmtrOf, toNat_append_eq_add, BitVec.toNat_ofNat]
  omega
theorem fmtrFix_eq (v : W32) : fmtrFix v =
    fmtrOf (v.extractLsb' 20 12) (scmStored (v.extractLsb' 18 2)) (rmStored (v.extractLsb' 15 3)) (v.extractLsb' 14 1) := by
  rw [← BitVec.setWidth_eq (fmtrOf ..), ← BitVec.ofNat_toNat, toNat_fmtrOf, toNat_scmStored, toNat_rmStored]
  simp only [BitVec.extractLsb'_toNat]
  rfl
theorem fields_fmtrOf (formats : BitVec 12) (scm : BitVec 2) (rm : BitVec 3) (sats : BitVec 1) :
    (fmtrOf formats scm rm sats).extractLsb' 20 12 = formats ∧ (fmtrOf formats scm rm sats).extractLsb' 14 1 = sats ∧
    (fmtrOf formats scm rm sats).extractLsb' 0 14 = 0 ∧ (fmtrOf formats scm rm sats).extractLsb' 18 2 = scm ∧
    (fmtrOf formats scm rm sats).extractLsb' 15 3 = rm :=
  ⟨field_above (field_above (field_above field_top)), field_above field_low, field_low, field_above (field_above (field_above field_low)),
    field_above (field_above field_low)⟩

/-! ## SFMT and LISSUE -/

section
variable {s : State} {c sl : Nat} {g : Group} {a w1 w2 w3 : BitVec 6}

/-- The group of a word that changed it and is complete. -/
theorem group?_doneScalar_updGroup (hg : s.group? c sl = some g) (f : Group → Group) (len : Nat) :
    (doneScalar (s.updGroup c sl f) c sl len).group? c sl =
      some { f g with spc := (f g).spc + BitVec.ofNat 64 len, park := none, arrived := none } := by
  simp only [doneScalar, doneS, group?_updGroup, hg, Option.map_some]
theorem execSfmt_sets (h : ScalarTurn s c sl g false 0 [a.toNat]) : execSfmt a s = .next (doneScalar (s.updGroup c sl (fun x =>
    { x with sfmt := fmtrFix ((g.reg a).setWidth 32) })) c sl 4) := by
  refine scalarRun_next h ?_
  rw [field_reg, BitVec.ofNat_toNat]
theorem execLissue_queues {t : BitVec 32} (h : ScalarTurn s c sl g false 0 [a.toNat, w1.toNat, w2.toNat, w3.toNat])
    (hm : g.trapMode = false) (hq : g.dq.length < 16) :
    execLissue a w1 w2 w3 t s = .next (doneScalar ((orderLoads s c sl true).updGroup c sl (fun x =>
      { x with dq := x.dq ++ [{ target := t, ws := [g.reg a, g.reg w1, g.reg w2, g.reg w3], fmtr := x.sfmt }] })) c sl 8) := by
  refine scalarRun_next h ?_
  simp only [hm, Bool.false_eq_true, if_false, if_neg (Nat.not_le.2 hq)]
  rfl
end

/-- Settles O6: SFMT and LISSUE by what each writes in the group, and the FMTR that is stored by its fields. -/
theorem capturedFormats : Obligations.CapturedFormats := by
  refine ⟨fun s c sl g a w1 w2 w3 t h => ?_, fun v => ?_⟩
  · have ⟨_, hg, _⟩ := h
    have hg' : (orderLoads s c sl true).group? c sl = some g := hg
    refine ⟨?sets, fun hm hq => ?captures⟩
    case sets =>
      exact ⟨_, _, execSfmt_sets (h.mono (by simp)), group?_doneScalar_updGroup hg .., rfl, rfl, rfl⟩
    case captures =>
      exact ⟨_, _, _, execLissue_queues h hm hq, group?_doneScalar_updGroup hg' .., rfl, rfl⟩
  · rw [fmtrFix_eq]
    exact fields_fmtrOf ..

end Sys2Proof.Machine
end

section
/-! The integer operations of the arithmetic units as operators on words, at every width (R240, R242, R252). -/

namespace Sys2Proof.Machine
open Bits

/-! An operation of the arithmetic units works on patterns, as natural numbers below 2^w; the statements work on words of w bits. The
operation computes an operator on words where the two agree at every width. -/

/-- An operation of one operand, of two, and of an operand and a count computes an operator on words. -/
def Computes1 (op : Nat → Nat → Nat) (F : (w : Nat) → BitVec w → BitVec w) : Prop :=
  ∀ w, 0 < w → ∀ x : BitVec w, op w x.toNat = (F w x).toNat
def Computes2 (op : Nat → Bool → Nat → Nat → Nat) (F : (w : Nat) → Bool → BitVec w → BitVec w → BitVec w) : Prop :=
  ∀ w, 0 < w → ∀ sgn (x y : BitVec w), op w sgn x.toNat y.toNat = (F w sgn x y).toNat
def ComputesShift (op : Nat → Nat → Nat → Nat) (F : (w : Nat) → Nat → BitVec w → BitVec w) : Prop :=
  ∀ w, 0 < w → ∀ (x : BitVec w) n, op w x.toNat n = (F w n x).toNat

section
variable {w : Nat}

/-! ## Patterns read as integers -/

theorem bit_toNat (x : BitVec w) (k : Nat) : bit x.toNat k = x.getLsbD k := rfl
theorem toInt_toNat (x : BitVec w) : toInt w x.toNat = x.toInt := by
  rw [toInt, BitVec.toInt_eq_msb_cond, BitVec.msb_eq_getLsbD_last]
  simp only [BitVec.getLsbD]
  split <;> simp
theorem ofInt_eq_toNat (w : Nat) (i : Int) : ofInt w i = (BitVec.ofInt w i).toNat := (BitVec.toNat_ofInt i).symm

/-- A pattern as the integer that a signed, or an unsigned, comparison reads. -/
def intOf (sgn : Bool) (x : BitVec w) : Int := if sgn then x.toInt else x.toNat
theorem intOf_inj {sgn : Bool} {x y : BitVec w} : intOf sgn x = intOf sgn y ↔ x = y := by
  cases sgn
  · exact Int.ofNat_inj.trans BitVec.toNat_inj
  · exact BitVec.toInt_inj
/-- A comparison of words is one of the integers that they are read as. -/
theorem below_eq_decide (sgn : Bool) (x y : BitVec w) : below sgn x y = decide (intOf sgn x < intOf sgn y) := by
  cases sgn
  · exact decide_eq_decide.2 Int.ofNat_lt.symm
  · rfl
theorem not_below_eq_decide (sgn : Bool) (x y : BitVec w) : (!below sgn x y) = decide (intOf sgn y ≤ intOf sgn x) := by
  rw [below_eq_decide, ← decide_not, decide_eq_decide, Int.not_lt]
/-- The conditions of Table 11-4 on patterns and on words. -/
theorem icond_eq_holdsInt (c : BitVec 5) (sgn : Bool) (x y : BitVec w) :
    Flags.icond c.toNat sgn w x.toNat y.toNat = holdsInt c sgn x y := by
  have hread (z : BitVec w) : (if sgn then toInt w z.toNat else (z.toNat : Int)) = intOf sgn z := by rw [toInt_toNat]; rfl
  unfold Flags.icond holdsInt
  simp only [hread]
  generalize c.toNat = n
  rcases n with _ | _ | _ | _ | _ | n
  · exact decide_eq_decide.2 intOf_inj
  · exact (decide_not ..).trans (congrArg _ (decide_eq_decide.2 intOf_inj))
  · exact (below_eq_decide ..).symm
  · exact (not_below_eq_decide ..).symm
  · exact (below_eq_decide ..).symm
  · exact (not_below_eq_decide ..).symm
theorem icond_lt (sgn : Bool) (x y : BitVec w) : Flags.icond 2 sgn w x.toNat y.toNat = below sgn x y := icond_eq_holdsInt 2 sgn x y

/-! ## One operand -/

theorem computes1_id : Computes1 (fun _ x => x) (fun _ x => x) := fun _ _ _ => rfl
theorem computes1_ineg : Computes1 Alu.ineg (fun _ x => -x) := by
  intro w _ x
  simp [Alu.ineg, BitVec.toNat_neg]
theorem computes1_bnot : Computes1 Alu.bnot (fun _ x => ~~~x) := by
  intro w _ x
  simp [Alu.bnot, Nat.mod_eq_of_lt x.isLt]
theorem computes1_iabs : Computes1 Alu.iabs (fun _ => magnitude) := by
  intro w _ x
  change Alu.iabs w x.toNat = (magnitude x).toNat
  rw [Alu.iabs, bit_toNat, magnitude, ← BitVec.msb_eq_getLsbD_last]
  split
  · rw [BitVec.toNat_neg]
  · rfl
theorem computes1_popc : Computes1 Alu.popc (fun _ => onesIn) := by
  intro w _ x
  have hle : (List.range w).countP x.getLsbD ≤ w := by simpa using List.countP_le_length (l := List.range w) (p := x.getLsbD)
  change _ = (onesIn x).toNat
  rw [onesIn, BitVec.toNat_ofNat, Nat.mod_eq_of_lt (hle.trans_lt w.lt_two_pow_self), List.countP_eq_length_filter]
  rfl

/-- The clear bits above the highest set one, counted down from bit w − 1. -/
theorem length_takeWhile_clear : ∀ (w m : Nat), m < 2 ^ w →
    ((List.range w).reverse.takeWhile (fun i => !m.testBit i)).length = if m = 0 then w else w - 1 - m.log2
  | 0, m, h => by simp_all
  | w + 1, m, h => by
    rw [List.range_succ, List.reverse_append, List.reverse_singleton, List.singleton_append, List.takeWhile_cons]
    by_cases hm : m < 2 ^ w
    · simp only [Nat.testBit_lt_two_pow hm, Bool.not_false, if_true, List.length_cons, length_takeWhile_clear w m hm]
      split
      · rfl
      · next h0 => have := (Nat.log2_lt h0).2 hm; omega
    · have h0 : m ≠ 0 := by have := Nat.two_pow_pos w; omega
      have hb : m.testBit w = true := Nat.testBit_of_two_pow_le_and_two_pow_add_one_gt (Nat.not_lt.1 hm) h
      have hlog : m.log2 = w := (Nat.log2_eq_iff h0).2 ⟨Nat.not_lt.1 hm, h⟩
      simp [hb, h0, hlog]
theorem computes1_clz : Computes1 Alu.clz (fun _ => zerosAbove) := by
  intro w _ x
  have hlen := length_takeWhile_clear w x.toNat x.isLt
  have hle : ((List.range w).reverse.takeWhile (fun i => !x.getLsbD i)).length ≤ w := by
    simpa using (List.takeWhile_sublist (fun i => !x.getLsbD i) (l := (List.range w).reverse)).length_le
  change _ = (zerosAbove x).toNat
  rw [zerosAbove, BitVec.toNat_ofNat, Nat.mod_eq_of_lt (hle.trans_lt w.lt_two_pow_self), Alu.clz, Nat.mod_eq_of_lt x.isLt]
  exact hlen.symm

/-- A reversal in one more bit puts every bit one place higher. -/
theorem brevGo_succ (a w : Nat) : ∀ i ≤ w, Alu.brevGo a (w + 1) i = 2 * Alu.brevGo a w i
  | 0, _ => rfl
  | i + 1, h => by
    have hp : 2 ^ (w + 1 - 1 - i) = 2 * 2 ^ (w - 1 - i) := by rw [← Nat.pow_succ']; congr 1; omega
    rw [Alu.brevGo, Alu.brevGo, brevGo_succ a w i (by omega), hp]
    split <;> omega
/-- A reversal of the low i bits depends on these alone. -/
theorem brevGo_congr {a b : Nat} (w : Nat) : ∀ i, (∀ j < i, bit a j = bit b j) → Alu.brevGo a w i = Alu.brevGo b w i
  | 0, _ => rfl
  | i + 1, h => by rw [Alu.brevGo, Alu.brevGo, h i i.lt_succ_self, brevGo_congr w i fun j hj => h j (hj.trans i.lt_succ_self)]
theorem brev_eq_reverse : ∀ {w : Nat} (x : BitVec w), Alu.brev w x.toNat = x.reverse.toNat
  | 0, x => by rw [Subsingleton.elim x.reverse 0]; rfl
  | w + 1, x => by
    have hlow : Alu.brevGo x.toNat w w = Alu.brevGo (x.setWidth w).toNat w w :=
      brevGo_congr w w fun j hj => by rw [bit_toNat, bit_toNat, BitVec.getLsbD_setWidth, decide_eq_true hj, Bool.true_and]
    have ih : Alu.brevGo (x.setWidth w).toNat w w = (x.setWidth w).reverse.toNat := brev_eq_reverse _
    rw [Alu.brev, Alu.brevGo, brevGo_succ _ _ _ le_rfl, hlow, ih, BitVec.reverse, BitVec.toNat_concat, bit_toNat,
      BitVec.msb_eq_getLsbD_last]
    simp only [Nat.add_sub_cancel, Nat.sub_self, Nat.pow_zero]
    cases x.getLsbD w <;> simp <;> omega
theorem computes1_brev : Computes1 Alu.brev (fun _ x => x.reverse) := fun _ _ x => brev_eq_reverse x

/-! ## Two operands -/

theorem computes2_iadd : Computes2 (fun w _ => Alu.iadd w) (fun _ _ => (· + ·)) := fun _ _ _ x y => (BitVec.toNat_add x y).symm
theorem computes2_isub : Computes2 (fun w _ => Alu.isub w) (fun _ _ => (· - ·)) := by
  intro w _ sgn x y
  have := y.isLt
  simp only [Alu.isub, BitVec.toNat_sub, Nat.mod_eq_of_lt this]
  congr 1; omega
theorem computes2_imul : Computes2 (fun w _ => Alu.imul w) (fun _ _ => (· * ·)) := fun _ _ _ x y => (BitVec.toNat_mul x y).symm
theorem computes2_imulh : Computes2 Alu.imulh (fun _ => highHalf) := by
  intro w _ sgn x y
  cases sgn
  · exact (BitVec.toNat_ofNat ..).symm
  · simp only [Alu.imulh, highHalf, if_true, toInt_toNat, ofInt_eq_toNat]
theorem computes2_imin : Computes2 (fun w sgn => Alu.iminmax w sgn false) (fun _ => lesser) := by
  intro w _ sgn x y
  simp only [Alu.iminmax, icond_lt, lesser]
  cases below sgn x y <;> rfl
theorem computes2_imax : Computes2 (fun w sgn => Alu.iminmax w sgn true) (fun _ => greater) := by
  intro w _ sgn x y
  simp only [Alu.iminmax, icond_lt, greater]
  cases below sgn x y <;> rfl
theorem computes2_band : Computes2 (fun _ _ => Alu.band) (fun _ _ => (· &&& ·)) := fun _ _ _ x y => (BitVec.toNat_and x y).symm
theorem computes2_bor : Computes2 (fun _ _ => Alu.bor) (fun _ _ => (· ||| ·)) := fun _ _ _ x y => (BitVec.toNat_or x y).symm
theorem computes2_bxor : Computes2 (fun _ _ => Alu.bxor) (fun _ _ => (· ^^^ ·)) := fun _ _ _ x y => (BitVec.toNat_xor x y).symm
theorem computes2_carry : Computes2 (fun w _ x y => if Flags.carry w x y 0 then 1 else 0) (fun _ _ => carryOut) := by
  intro w hw sgn x y
  have h1 : 1 % 2 ^ w = 1 := Nat.mod_eq_of_lt (Nat.one_lt_two_pow hw.ne')
  by_cases hc : 2 ^ w ≤ x.toNat + y.toNat <;> simp [Flags.carry, carryOut, hc, h1]

/-! ## Shifts, whose count may reach the width -/

theorem computesShift_shl : ComputesShift Alu.shl (fun _ n x => x <<< n) := by
  intro w _ x n
  rw [Alu.shl, BitVec.toNat_shiftLeft, Nat.shiftLeft_eq]
  split
  · next h => exact (Nat.mod_eq_zero_of_dvd ((Nat.pow_dvd_pow 2 h).mul_left _)).symm
  · rfl
theorem computesShift_shr : ComputesShift Alu.shr (fun _ n x => x >>> n) := by
  intro w _ x n
  rw [Alu.shr, BitVec.toNat_ushiftRight, Nat.shiftRight_eq_div_pow]
  split
  · next h => exact (Nat.div_eq_of_lt (x.isLt.trans_le (Nat.pow_le_pow_right Nat.two_pos h))).symm
  · rfl
/-- A number of n bits and a sign, shifted right by n or more, leaves its sign. -/
theorem ediv_two_pow_of_le {z : Int} {n c : Nat} (hlo : -2 ^ n ≤ z) (hhi : z < 2 ^ n) (hc : n ≤ c) : z / 2 ^ c = if z < 0 then -1 else 0 := by
  have hp : (2 : Int) ^ n ≤ 2 ^ c := pow_le_pow_right₀ (by decide) hc
  split
  · next h => rw [Int.ediv_eq_iff_of_pos (by positivity)]; omega
  · next h => exact Int.ediv_eq_zero_of_lt (by omega) (by omega)
/-- The units shift by min(c, w), which leaves the same sign bits as a shift by c. -/
theorem computesShift_sra : ComputesShift Alu.sra (fun _ n x => x.sshiftRight n) := by
  intro w _ x n
  have hpos : (0 : Int) < 2 ^ w := by positivity
  have hlo : -(2 : Int) ^ w ≤ x.toInt := by have := BitVec.le_two_mul_toInt (x := x); omega
  have hhi : x.toInt < (2 : Int) ^ w := by have := BitVec.two_mul_toInt_lt (x := x); omega
  have hdiv : x.toInt / 2 ^ min n w = x.toInt / 2 ^ n := by
    rcases Nat.le_total n w with h | h
    · rw [Nat.min_eq_left h]
    · rw [Nat.min_eq_right h, ediv_two_pow_of_le hlo hhi le_rfl, ediv_two_pow_of_le hlo hhi h]
  change _ = (x.sshiftRight n).toNat
  rw [Alu.sra, toInt_toNat, hdiv, ofInt_eq_toNat, BitVec.sshiftRight, Int.shiftRight_eq_div_pow]
  norm_cast
end

end Sys2Proof.Machine
end

section
/-! O1: the scalar integer words, each by the operator on words that its operation computes. -/

namespace Sys2Proof.Machine
open Bits

section
variable {s : State} {c sl : Nat} {g : Group} {d a b : BitVec 6} {f : BitVec 3}

/-- A result of 64 bits, and one of 32, as its register takes it (R252). -/
theorem sRes_wide (hf : f.toNat < 2) (v : W64) : sRes f v.toNat = v := by
  have h2 : f ≠ 2 := by rintro rfl; exact absurd hf (by decide)
  rw [sRes, if_neg h2, BitVec.ofNat_toNat, BitVec.setWidth_eq]
theorem sRes_narrow (v : W32) : sRes f v.toNat = widen32 f v := by
  rw [sRes, widen32, sext_eq, BitVec.ofNat_toNat]

/-- A word of two sources, and of one, writes what its operation computes at the width of its type. -/
theorem sBin_turn (f : BitVec 3) {op : Nat → Bool → Nat → Nat → Nat} {F : (w : Nat) → Bool → BitVec w → BitVec w → BitVec w}
    (hop : Computes2 op F) (h : ScalarTurn s c sl g false 0 [d.toNat, a.toNat, b.toNat]) :
    sBin op d a b f s =
      .next (wroteScalar s c sl 4 d (byWidth2 f (F 64 (signedType f)) (F 32 (signedType f)) (g.reg a) (g.reg b))) := by
  rw [sBin, scalarPure_turn h (by simp)]
  congr 2
  change sRes f (op (sW f) (signedType f) (g.field a % 2 ^ sW f) (g.field b % 2 ^ sW f)) = _
  rw [field_reg, field_reg, byWidth2]
  split
  · next hf => rw [sW, if_pos hf, Nat.mod_eq_of_lt (g.reg a).isLt, Nat.mod_eq_of_lt (g.reg b).isLt, hop 64 (by decide), sRes_wide hf]
  · next hf => rw [sW, if_neg hf, ← BitVec.toNat_setWidth, ← BitVec.toNat_setWidth, hop 32 (by decide), sRes_narrow]
theorem sUn_turn (f : BitVec 3) {op : Nat → Nat → Nat} {F : (w : Nat) → BitVec w → BitVec w} (hop : Computes1 op F)
    (h : ScalarTurn s c sl g false 0 [d.toNat, a.toNat]) :
    sUn op d a f s = .next (wroteScalar s c sl 4 d (byWidth1 f (F 64) (F 32) (g.reg a))) := by
  rw [sUn, scalarPure_turn h (by simp)]
  congr 2
  rw [field_reg, byWidth1]
  split
  · next hf => rw [sW, if_pos hf, Nat.mod_eq_of_lt (g.reg a).isLt, hop 64 (by decide), sRes_wide hf]
  · next hf => rw [sW, if_neg hf, ← BitVec.toNat_setWidth, hop 32 (by decide), sRes_narrow]
/-- An unsigned value is its own magnitude (R252). -/
theorem computes1_sabs (f : BitVec 3) :
    Computes1 (fun w x => if sSgn f then Alu.iabs w x else x) (fun _ x => if signedType f then magnitude x else x) := by
  intro w hw x
  change (if signedType f then Alu.iabs w x.toNat else x.toNat) = (if signedType f then magnitude x else x).toNat
  split
  · exact computes1_iabs w hw x
  · rfl
/-- A shift by bits 7:0 of its second operand. -/
theorem computes2_count {op : Nat → Nat → Nat → Nat} {F : (w : Nat) → Nat → BitVec w → BitVec w} (hop : ComputesShift op F) :
    Computes2 (fun w _ x y => op w x (y % 256)) (fun w _ x y => F w (y.toNat % 256) x) := fun w hw _ x y => hop w hw x (y.toNat % 256)
end

/-- Settles O1: each word by the operator that its operation computes. -/
theorem scalarIntegerWords : Obligations.ScalarIntegerWords := by
  refine ⟨fun s c sl g d a b f h => ?_, fun s c sl g d a f h => ?_⟩
  · exact ⟨(sBin_turn f computes2_iadd h :), (sBin_turn f computes2_isub h :), (sBin_turn f computes2_imul h :),
      (sBin_turn f computes2_imulh h :), (sBin_turn f computes2_imin h :), (sBin_turn f computes2_imax h :),
      (sBin_turn f computes2_carry h :), (sBin_turn f computes2_band h :), (sBin_turn f computes2_bor h :),
      (sBin_turn f computes2_bxor h :), (sBin_turn f (computes2_count computesShift_shl) h :),
      (sBin_turn f (computes2_count computesShift_shr) h :), (sBin_turn f (computes2_count computesShift_sra) h :)⟩
  · exact ⟨(sUn_turn f (computes1_sabs f) h :), (sUn_turn f computes1_ineg h :), (sUn_turn f computes1_bnot h :),
      (sUn_turn f computes1_popc h :), (sUn_turn f computes1_clz h :), (sUn_turn f computes1_brev h :), (sUn_turn f computes1_id h :)⟩

end Sys2Proof.Machine
end

section
/-! O2: SCMP, and the SUB values of its cell that are refused. -/

namespace Sys2Proof.Machine
open Bits

/-- A condition at the width of a scalar type (R253). -/
theorem icond_scalar (cnd : BitVec 5) (f : BitVec 3) (x y : W64) :
    Flags.icond cnd.toNat (sSgn f) (sW f) (x.toNat % 2 ^ sW f) (y.toNat % 2 ^ sW f) =
      if f.toNat < 2 then holdsInt cnd (signedType f) x y else holdsInt cnd (signedType f) (x.setWidth 32) (y.setWidth 32) := by
  change Flags.icond cnd.toNat (signedType f) (sW f) _ _ = _
  split
  · next hf => rw [sW, if_pos hf, Nat.mod_eq_of_lt x.isLt, Nat.mod_eq_of_lt y.isLt, icond_eq_holdsInt]
  · next hf => rw [sW, if_neg hf, ← BitVec.toNat_setWidth, ← BitVec.toNat_setWidth, icond_eq_holdsInt]
/-- A word that its cell splits is decoded where its fields pass the checks, refused by the check that they fail, and refused by its cell
where that has no instruction for it (R33). -/
theorem decodeScalar_ok {w imm : W32} {i : Instr} (hr : rawScalar w imm = .ok i) (hw : Encoding.fault 256 i = none) :
    decodeScalar w imm = .ok i := by
  rw [decodeScalar, hr, checked_wellFormed hw]
theorem decodeScalar_fault {w imm : W32} {i : Instr} {e : Nat} (hr : rawScalar w imm = .ok i) (hw : Encoding.fault 256 i = some e) :
    decodeScalar w imm = .error e := by
  rw [decodeScalar, hr]
  simp only [checked, hw]
theorem decodeScalar_error {w imm : W32} {e : Nat} (hr : rawScalar w imm = .error e) : decodeScalar w imm = .error e := by
  rw [decodeScalar, hr]
  rfl
theorem rawScalar_scmp (d a b : BitVec 6) (sub : BitVec 5) (f : BitVec 3) (imm : W32) :
    rawScalar (wordSR 0x01#6 d a b sub f) imm = if sub.toNat > 5 then .error 2 else .ok (.scmp d a b sub f) := by
  rw [rawScalar]
  simp only [fields_wordSR]
  rfl
theorem fault_scmp {d a b : BitVec 6} {sub : BitVec 5} {f : BitVec 3} (hs : sub.toNat ≤ 5) (hf : f.toNat < 5) :
    Encoding.fault 256 (.scmp d a b sub f) = none := by
  have hs' : ¬sub.toNat > 5 := Nat.not_lt.2 hs
  have hf' : ¬f.toNat > 4 := by omega
  change (if sub.toNat > 5 then some 2 else if f.toNat > 4 then some 4 else none) = none
  rw [if_neg hs', if_neg hf']

/-- Settles O2: the condition by the integers that its operands are read as, the cell by its check on SUB, and the trap by the turn. -/
theorem scalarCompare : Obligations.ScalarCompare := by
  refine ⟨fun s c sl g d a b cnd f h _ => ?_, fun d a b sub f imm => ?_, ?_⟩
  · change execScmp d a b cnd f s = _
    unfold execScmp
    rw [scalarPure_turn h (by simp)]
    simp only [field_reg, icond_scalar]
  · exact ⟨fun hs hf => decodeScalar_ok ((rawScalar_scmp d a b sub f imm).trans (if_neg (Nat.not_lt.2 hs))) (fault_scmp hs hf),
      fun hs => decodeScalar_error ((rawScalar_scmp d a b sub f imm).trans (if_pos hs))⟩
  · intro s t c sl g bits len hturn hg hc hsl hstop htrap hpark hhold hf
    have hstep : step s = onNext advance (runScalar c sl s) := by simp [step, runTurn, hturn, hc, hsl]
    rw [hstep, runScalar_word hg hstop htrap hpark hhold hf]
    rfl

end Sys2Proof.Machine
end

section
/-! O3: the scalar words with an immediate, and the checks on their fields. -/

namespace Sys2Proof.Machine
open Bits

/-! ## Results -/

section
variable {s : State} {c sl : Nat} {g : Group} {d a b e : BitVec 6}

/-- A word with an immediate of 13 bits, and a shift by a count of 6 bits, write what their operations compute at 64 bits (R255). -/
theorem sImm_turn (i : BitVec 13) {op : Nat → Bool → Nat → Nat → Nat} {F : (w : Nat) → Bool → BitVec w → BitVec w → BitVec w}
    (hop : Computes2 op F) (h : ScalarTurn s c sl g false 0 [d.toNat, a.toNat]) :
    sImm (op 64 false) d a i s = .next (wroteScalar s c sl 4 d (F 64 false (g.reg a) (i.signExtend 64))) := by
  rw [sImm, scalarPure_turn h (by simp), field_reg, hop 64 (by decide), sext_eq, BitVec.ofNat_toNat, BitVec.setWidth_eq]
theorem sShift_turn (n : BitVec 6) {op : Nat → Nat → Nat → Nat} {F : (w : Nat) → Nat → BitVec w → BitVec w} (hop : ComputesShift op F)
    (h : ScalarTurn s c sl g false 0 [d.toNat, a.toNat]) :
    sShift op d a n s = .next (wroteScalar s c sl 4 d (F 64 n.toNat (g.reg a))) := by
  rw [sShift, scalarPure_turn h (by simp), field_reg, hop 64 (by decide), BitVec.ofNat_toNat, BitVec.setWidth_eq]

/-- Bits cleared, and bits moved up, as operators on words. -/
theorem ofNat_andNot {w : Nat} (x y : Nat) : BitVec.ofNat w (andNot x y) = BitVec.ofNat w x &&& ~~~BitVec.ofNat w y := by
  refine BitVec.eq_of_getLsbD_eq fun i hi => ?_
  simp only [BitVec.getLsbD_ofNat, BitVec.getLsbD_and, BitVec.getLsbD_not, hi, andNot, Nat.testBit_xor, Nat.testBit_and]
  cases x.testBit i <;> cases y.testBit i <;> rfl
theorem ofNat_mul_two_pow {w : Nat} (x n : Nat) : BitVec.ofNat w (x * 2 ^ n) = BitVec.ofNat w x <<< n := by
  apply BitVec.eq_of_toNat_eq
  simp [Nat.shiftLeft_eq]
theorem execSbfi_inserts (l : BitVec 7) (n : BitVec 6) (h : ScalarTurn s c sl g false 0 [d.toNat, a.toNat]) :
    execSbfi d a l n s = .next (wroteScalar s c sl 4 d
      ((g.reg d &&& ~~~(BitVec.ofNat 64 (2 ^ l.toNat - 1) <<< n.toNat)) ||| (BitVec.ofNat 64 ((g.reg a).toNat % 2 ^ l.toNat) <<< n.toNat))) := by
  rw [execSbfi, scalarPure_turn h (by simp)]
  simp only [field_reg, BitVec.ofNat_or, ofNat_andNot, ofNat_mul_two_pow, BitVec.ofNat_toNat, BitVec.setWidth_eq]
theorem execSlih_joins (j : W32) (h : ScalarTurn s c sl g false 0 [d.toNat]) :
    execSlih d j s = .next (wroteScalar s c sl 8 d (j ++ (g.reg d).setWidth 32)) := by
  rw [execSlih, scalarPure_turn h (by simp), field_reg, ← BitVec.toNat_setWidth, ← toNat_append_eq_add, BitVec.ofNat_toNat]
  congr 2
theorem execSlea_adds (n : BitVec 6) (j : W32) (h : ScalarTurn s c sl g false 0 [d.toNat, a.toNat, b.toNat]) :
    execSlea d a b n j s = .next (wroteScalar s c sl 8 d (g.reg a + g.reg b <<< n.toNat + j.signExtend 64)) := by
  rw [execSlea, scalarPure_turn h (by simp)]
  simp only [field_reg, sext_eq, BitVec.ofNat_toNat, BitVec.setWidth_eq]
theorem execSsel_chooses (h : ScalarTurn s c sl g false 0 [d.toNat, a.toNat, b.toNat, e.toNat]) :
    execSsel d a b e s = .next (wroteScalar s c sl 8 d (if g.reg e = 0 then g.reg b else g.reg a)) := by
  rw [execSsel, scalarPure_turn h (by simp)]
  simp only [field_reg, ne_eq, reg_zero, ite_not]
  congr 2
  split <;> simp
end

/-! ## The decoder -/

/-- A guard as a condition on the fields that pass it. -/
theorem guard_eq_ite {bad : Bool} {p : Prop} [Decidable p] (hb : bad = false ↔ p) (sub : Nat) (k : Except Nat Instr) :
    guard bad sub k = if p then k else .error sub := by
  cases bad <;> simp_all [guard]
theorem isSX_wordSX (op d a b c : BitVec 6) :
    isSX (wordSX op d a b c) = (op.toNat == 0x34 || (decide (0x38 ≤ op.toNat) && decide (op.toNat ≤ 0x3F))) := by
  simp only [isSX, fields_wordSX]
section
variable (op d a b c : BitVec 6) (l : BitVec 7) (n : BitVec 6) (imm : W32)
/-- The cells of SLI, SLIH, SLEA and SSEL are of form S-X (Table 1-9). -/
theorem rawScalar_wordSX {op : BitVec 6} (hop : op ∈ [0x38#6, 0x39#6, 0x3A#6, 0x3B#6]) :
    rawScalar (wordSX op d a b c) imm = rawSX op.toNat d a b c imm := by
  rw [rawScalar]
  simp only [fields_wordSX, isSX_wordSX]
  simp only [List.mem_cons, List.not_mem_nil, or_false] at hop
  rcases hop with rfl | rfl | rfl | rfl <;> rfl
/-- A word of form S-I whose immediate holds a field's length and place (Table 1-9). -/
def wordField (op d a : BitVec 6) (l : BitVec 7) (n : BitVec 6) : W32 := op ++ d ++ a ++ l ++ n ++ 0#1
theorem fields_wordField : (wordField op d a l n).extractLsb' 26 6 = op ∧ (wordField op d a l n).extractLsb' 20 6 = d ∧
    (wordField op d a l n).extractLsb' 14 6 = a ∧ (wordField op d a l n).extractLsb' 7 7 = l ∧
    (wordField op d a l n).extractLsb' 1 6 = n ∧ (wordField op d a l n).extractLsb' 0 1 = 0 :=
  ⟨field_above (field_above (field_above (field_above field_top))), field_above (field_above (field_above (field_above field_low))),
    field_above (field_above (field_above field_low)), field_above (field_above field_low), field_above field_low, field_low⟩
theorem rawScalar_sbfe : rawScalar (wordField 0x18#6 d a l n) imm = .ok (.sbfe d a l n) := by
  rw [rawScalar]
  simp only [fields_wordField]
  rfl
theorem rawScalar_sbfi : rawScalar (wordField 0x19#6 d a l n) imm = .ok (.sbfi d a l n) := by
  rw [rawScalar]
  simp only [fields_wordField]
  rfl
variable {d a l n imm}
/-- The check on a bit field alone refuses a word of the two bit-field cells (R29). -/
theorem decodeScalar_bitField {w : W32} {i : Instr} (hr : rawScalar w imm = .ok i)
    (hf : Encoding.fault 256 i = if l = 0 ∨ 64 < l.toNat ∨ 64 < n.toNat + l.toNat then some 4 else none) :
    decodeScalar w imm = if l = 0 ∨ 64 < n.toNat + l.toNat then .error 4 else .ok i := by
  have hlong : (64 < l.toNat ∨ 64 < n.toNat + l.toNat) ↔ 64 < n.toNat + l.toNat := by omega
  simp only [hlong] at hf
  split
  · next hbad => exact decodeScalar_fault hr (hf.trans (if_pos hbad))
  · next hgood => exact decodeScalar_ok hr (hf.trans (if_neg hgood))
/-- An instruction of a cell whose only check is on bits that must be zero. -/
theorem decodeScalar_guarded {w : W32} {i : Instr} {bad : Bool} {p : Prop} [Decidable p] (hb : bad = false ↔ p)
    (hr : rawScalar w imm = guard bad 3 (.ok i)) (hf : Encoding.fault 256 i = none) :
    decodeScalar w imm = if p then .ok i else .error 3 := by
  rw [guard_eq_ite hb] at hr
  split
  · next hp => exact decodeScalar_ok (hr.trans (if_pos hp)) hf
  · next hp => exact decodeScalar_error (hr.trans (if_neg hp))
end

theorem zero_fields {a b c : BitVec 6} : (a != 0 || b != 0 || c != 0) = false ↔ a = 0 ∧ b = 0 ∧ c = 0 := by simp [and_assoc]

/-- Settles O3: results by the operators that the operations compute, decoding by the check of each cell. -/
theorem scalarImmediates : Obligations.ScalarImmediates := by
  refine ⟨fun s c sl g d a b n i l j h => ?_, fun d a b c l n imm => ?_⟩
  · have h2 : ScalarTurn s c sl g false 0 [d.toNat, a.toNat] := h.mono (by simp)
    exact ⟨(sImm_turn i computes2_iadd h2 :), (sImm_turn i computes2_imul h2 :), (sImm_turn i computes2_band h2 :),
      (sImm_turn i computes2_bor h2 :), (sImm_turn i computes2_bxor h2 :), (sShift_turn n computesShift_shl h2 :),
      (sShift_turn n computesShift_shr h2 :), (sShift_turn n computesShift_sra h2 :), scalarPure_turn h2 (by simp) 4 _,
      execSbfi_inserts l n h2, (scalarPure_turn h (by simp) 8 _).trans (by rw [sext_eq]), execSlih_joins j (h.mono (by simp)),
      execSlea_adds n j (h.mono (by simp)), execSsel_chooses h⟩
  · exact ⟨decodeScalar_bitField (rawScalar_sbfe d a l n imm) rfl, decodeScalar_bitField (rawScalar_sbfi d a l n imm) rfl,
      decodeScalar_guarded zero_fields (rawScalar_wordSX d a b c imm (by decide)) rfl,
      decodeScalar_guarded zero_fields (rawScalar_wordSX d a b c imm (by decide)) rfl,
      decodeScalar_ok (rawScalar_wordSX d a b c imm (by decide)) rfl,
      decodeScalar_guarded (by simp) (rawScalar_wordSX d a b c imm (by decide)) rfl⟩

end Sys2Proof.Machine
end

section
/-! O4: the scalar floating-point words. -/

namespace Sys2Proof.Machine
open Bits

/-- Settles O4: the whole meaning of each word is one value put in its register (scalarPure). -/
theorem scalarFloat : Obligations.ScalarFloat := by
  intro s c sl g d a b cnd t f h
  and_intros
  all_goals exact scalarPure_turn h (by simp) 4 _

end Sys2Proof.Machine
end

section
/-! O24: the lane integer words and the moves. -/

namespace Sys2Proof.Machine
open Bits

/-! ## Types of lanes and their operands -/

/-- The integer types of lanes are the codes up to 4 (R240). -/
theorem lW_eq : ∀ {f : BitVec 4}, f.toNat ≤ 4 → lW f = if isPair f then 64 else 32 := by decide
theorem lSgn_eq : ∀ {f : BitVec 4}, f.toNat ≤ 4 → lSgn f = signedLane f := by decide
/-- An operand, and an immediate, fit the width of their type. -/
theorem vn_lt (g : Group) (pair : Bool) (r i : Nat) : g.vn pair r i < 2 ^ (if pair then 64 else 32) := by
  have hlo := (g.v r i).isLt
  have hhi := (g.v (r + 1) i).isLt
  cases pair
  · exact hlo
  · simp only [Group.vn, if_true]
    omega
theorem immI_lt (v : LI) : immI v < 2 ^ (if isPair v.fmt then 64 else 32) := by
  have h := v.imm.isLt
  rw [immI]
  split
  · next hf =>
    rw [hf]
    exact (sext64 32 v.imm.toNat).isLt
  · split <;> omega

/-! ## Operators at the width of a lane type -/

section
variable {f : BitVec 4} {x y : Nat} (hf : f.toNat ≤ 4) (hx : x < 2 ^ (if isPair f then 64 else 32))
include hf hx

theorem laneOp1_of_computes1 {op : Nat → Nat → Nat} {F : (w : Nat) → BitVec w → BitVec w} (hop : Computes1 op F) :
    op (lW f) x = laneOp1 f (F 64) (F 32) x := by
  rw [lW_eq hf, laneOp1]
  cases hp : isPair f <;> simp only [hp, Bool.false_eq_true, if_false, if_true] at hx ⊢
  · rw [← hop 32 (by decide), BitVec.toNat_ofNat, Nat.mod_eq_of_lt hx]
  · rw [← hop 64 (by decide), BitVec.toNat_ofNat, Nat.mod_eq_of_lt hx]
theorem laneOp2_of_computes2 (hy : y < 2 ^ (if isPair f then 64 else 32)) {op : Nat → Bool → Nat → Nat → Nat}
    {F : (w : Nat) → Bool → BitVec w → BitVec w → BitVec w} (hop : Computes2 op F) :
    op (lW f) (lSgn f) x y = laneOp2 f (F 64 (signedLane f)) (F 32 (signedLane f)) x y := by
  rw [lW_eq hf, lSgn_eq hf, laneOp2]
  cases hp : isPair f <;> simp only [hp, Bool.false_eq_true, if_false, if_true] at hx hy ⊢
  · rw [← hop 32 (by decide), BitVec.toNat_ofNat, BitVec.toNat_ofNat, Nat.mod_eq_of_lt hx, Nat.mod_eq_of_lt hy]
  · rw [← hop 64 (by decide), BitVec.toNat_ofNat, BitVec.toNat_ofNat, Nat.mod_eq_of_lt hx, Nat.mod_eq_of_lt hy]
end

/-! ## The shapes of the integer lane words -/

/-- A lane word of a type writes one value of that type in each lane. -/
theorem laneMap_writes {s : State} {c sl k : Nat} {g : Group} {b : LaneBlock} {deny : Nat} {h : LaneHead} {srcs : List Src}
    (ht : LaneTurn s c sl k g b deny h.prd srcs [(h.dst.toNat, regsOf h.fmt)]) {f : LaneEnv → Nat → Nat} {x : Nat → Nat}
    (hx : ∀ i, f (laneEnv s c sl k g b h.prd srcs) i = x i) :
    laneMap deny h (isPair h.fmt) srcs f s = .next (wroteLanes s (laneEnv s c sl k g b h.prd srcs) (isPair h.fmt) h.dst x) := by
  rw [← funext hx]
  exact laneMap_turn (pair := isPair h.fmt) ht f

section
variable {s : State} {c sl k : Nat} {g : Group} {b : LaneBlock} {w : L3} {v : LI}
  {op1 : Nat → Nat → Nat} {F1 : (w : Nat) → BitVec w → BitVec w}
  {op2 : Nat → Bool → Nat → Nat → Nat} {F2 : (w : Nat) → Bool → BitVec w → BitVec w → BitVec w}

/-- A word of one source, of two, and of one and the immediate writes what its operation computes at the width of its type. -/
theorem li1_turn (hop : Computes1 op1 F1)
    (h : LaneTurn s c sl k g b 0 w.prd [srcA w.toLaneHead (regsOf w.fmt)] [(w.dst.toNat, regsOf w.fmt)]) (hf : w.fmt.toNat ≤ 4) :
    let e := laneEnv s c sl k g b w.prd [srcA w.toLaneHead (regsOf w.fmt)]
    li1 (fun w _ => op1 w) w s = .next (wroteLanes s e (isPair w.fmt) w.dst (fun i =>
      laneOp1 w.fmt (F1 64) (F1 32) (e.g.vn (isPair w.fmt) w.sa.toNat i))) := by
  intro e
  rw [li1]
  exact laneMap_writes h fun i => laneOp1_of_computes1 hf (vn_lt ..) hop
theorem li2_turn (hop : Computes2 op2 F2)
    (h : LaneTurn s c sl k g b 0 w.prd [srcA w.toLaneHead (regsOf w.fmt), srcB w.toLaneHead (regsOf w.fmt)] [(w.dst.toNat, regsOf w.fmt)])
    (hf : w.fmt.toNat ≤ 4) :
    let e := laneEnv s c sl k g b w.prd [srcA w.toLaneHead (regsOf w.fmt), srcB w.toLaneHead (regsOf w.fmt)]
    li2 op2 w s = .next (wroteLanes s e (isPair w.fmt) w.dst (fun i => laneOp2 w.fmt (F2 64 (signedLane w.fmt)) (F2 32 (signedLane w.fmt))
      (e.g.vn (isPair w.fmt) w.sa.toNat i) (e.g.vn (isPair w.fmt) w.sb.toNat i))) := by
  intro e
  rw [li2]
  exact laneMap_writes h fun i => laneOp2_of_computes2 hf (vn_lt ..) (vn_lt ..) hop
theorem li2i_turn (hop : Computes2 op2 F2)
    (h : LaneTurn s c sl k g b 0 v.prd [srcA v.toLaneHead (regsOf v.fmt)] [(v.dst.toNat, regsOf v.fmt)]) (hf : v.fmt.toNat ≤ 4) :
    let e := laneEnv s c sl k g b v.prd [srcA v.toLaneHead (regsOf v.fmt)]
    li2i op2 v s = .next (wroteLanes s e (isPair v.fmt) v.dst (fun i => laneOp2 v.fmt (F2 64 (signedLane v.fmt)) (F2 32 (signedLane v.fmt))
      (e.g.vn (isPair v.fmt) v.sa.toNat i) (immI v))) := by
  intro e
  rw [li2i]
  exact laneMap_writes h fun i => laneOp2_of_computes2 hf (vn_lt ..) (immI_lt v) hop
end

/-! ## Moves -/

/-- The uniform words of a lane block stay as they are when its word issues (R214, R325). -/
theorem ws_passOver (clock : Nat) (g : Group) (b : LaneBlock) (k : Nat) : (passOver clock g b k).ws = b.ws := by
  refine List.foldlRecOn (motive := fun x : LaneBlock => x.ws = b.ws) _ _ rfl fun x hx j _ => ?_
  dsimp only
  split
  · exact hx
  · split <;> exact hx
theorem uniforms_laneEnv (s : State) (c sl k : Nat) (g : Group) (b : LaneBlock) (prd : BitVec 4) (srcs : List Src) :
    ((laneEnv s c sl k g b prd srcs).g.lanes.map (·.ws)).getD [] = b.ws := by
  have hl : (laneEnv s c sl k g b prd srcs).g.lanes = some (passOver s.clock g b k) :=
    calc (latched (executing g b k prd) srcs (atIssue s g b k)).lanes
      _ = (atIssue s g b k).lanes := lanes_of_bare (bare_latched ..)
      _ = some (passOver s.clock g b k) := (lanes_issuing ..).trans (lanes_setLanes ..)
  rw [hl]
  exact ws_passOver ..

/-- Settles O24: each integer word by the operator that its operation computes, and each move by the value that it writes. -/
theorem laneIntegerWords : Obligations.LaneIntegerWords := by
  refine ⟨fun s c sl k g b w v => ⟨fun h hf => ?_, fun h hf => ?_⟩,
    fun s c sl k g b w v => ⟨fun h hf => ?_, fun h => ?_, fun h => ?_, fun h => ?_, fun h => ?_, fun h => ?_⟩⟩
  · exact ⟨(li2_turn computes2_iadd h hf :), (li2_turn computes2_isub h hf :), (li2_turn computes2_imul h hf :),
      (li2_turn computes2_imulh h hf :), (li2_turn computes2_imin h hf :), (li2_turn computes2_imax h hf :),
      (li2_turn computes2_band h hf :), (li2_turn computes2_bor h hf :), (li2_turn computes2_bxor h hf :)⟩
  · exact ⟨(li2i_turn computes2_iadd h hf :), (li2i_turn computes2_isub h hf :), (li2i_turn computes2_imul h hf :),
      (li2i_turn computes2_imulh h hf :), (li2i_turn computes2_imin h hf :), (li2i_turn computes2_imax h hf :),
      (li2i_turn computes2_band h hf :), (li2i_turn computes2_bor h hf :), (li2i_turn computes2_bxor h hf :)⟩
  · exact ⟨(li1_turn computes1_iabs h hf :), (li1_turn computes1_ineg h hf :), (li1_turn computes1_bnot h hf :),
      (li1_turn computes1_popc h hf :), (li1_turn computes1_clz h hf :), (li1_turn computes1_brev h hf :)⟩
  · change execMov w s = _
    exact laneMap_writes h fun _ => rfl
  · change execSel w s = _
    exact laneMap_writes h fun _ => rfl
  · change execMovW w s = _
    exact laneMap_writes h fun _ => by rw [uniforms_laneEnv]
  · change execLaneid w s = _
    exact laneMap_turn (pair := false) h _
  · change execMovi v s = _
    exact laneMap_writes h fun _ => by rw [sext_eq]

end Sys2Proof.Machine
end

section
/-! O25: the lane shifts, IMAD and the bit fields. -/

namespace Sys2Proof.Machine
open Bits

/-! ## Shifts -/

/-- A shift by a given count is an operation of one operand. -/
theorem computes1_shift {op : Nat → Nat → Nat → Nat} {F : (w : Nat) → Nat → BitVec w → BitVec w} (hop : ComputesShift op F) (n : Nat) :
    Computes1 (fun w x => op w x n) (fun w x => F w n x) := fun w hw x => hop w hw x n

section
variable {s : State} {c sl k : Nat} {g : Group} {b : LaneBlock} {w : L3} {v : LI}
  {sh : Nat → Nat → Nat → Nat} {Fs : (w : Nat) → Nat → BitVec w → BitVec w}

/-- A shift by a register, and by the immediate, of which bits 7:0 count (R242). -/
theorem lsh_turn (hop : ComputesShift sh Fs)
    (h : LaneTurn s c sl k g b 0 w.prd [srcA w.toLaneHead (regsOf w.fmt), srcB w.toLaneHead 1] [(w.dst.toNat, regsOf w.fmt)])
    (hf : w.fmt.toNat ≤ 4) :
    let e := laneEnv s c sl k g b w.prd [srcA w.toLaneHead (regsOf w.fmt), srcB w.toLaneHead 1]
    lsh sh w s = .next (wroteLanes s e (isPair w.fmt) w.dst (fun i => laneOp1 w.fmt (Fs 64 ((e.g.v w.sb.toNat i).toNat % 256))
      (Fs 32 ((e.g.v w.sb.toNat i).toNat % 256)) (e.g.vn (isPair w.fmt) w.sa.toNat i))) := by
  intro e
  rw [lsh]
  exact laneMap_writes h fun i => laneOp1_of_computes1 hf (vn_lt ..) (computes1_shift hop _)
theorem lshi_turn (hop : ComputesShift sh Fs)
    (h : LaneTurn s c sl k g b 0 v.prd [srcA v.toLaneHead (regsOf v.fmt)] [(v.dst.toNat, regsOf v.fmt)]) (hf : v.fmt.toNat ≤ 4) :
    let e := laneEnv s c sl k g b v.prd [srcA v.toLaneHead (regsOf v.fmt)]
    lshi sh v s = .next (wroteLanes s e (isPair v.fmt) v.dst (fun i => laneOp1 v.fmt (Fs 64 (v.imm.toNat % 256)) (Fs 32 (v.imm.toNat % 256))
      (e.g.vn (isPair v.fmt) v.sa.toNat i))) := by
  intro e
  rw [lshi]
  exact laneMap_writes h fun i => laneOp1_of_computes1 hf (vn_lt ..) (computes1_shift hop _)
end

/-! ## Words of single registers -/

/-- An operator of three single registers computes a value from their words. -/
def Computes3 (op : Nat → Nat → Nat → Nat) (F : W32 → W32 → W32 → Nat) : Prop := ∀ x y z : W32, op x.toNat y.toNat z.toNat = F x y z
theorem computes3_mad : Computes3 (fun a b c => (a * b + c) % 2 ^ 32) (fun x y z => (x * y + z).toNat) := fun x y z => by
  change (x.toNat * y.toNat + z.toNat) % 2 ^ 32 = (x * y + z).toNat
  rw [BitVec.toNat_add, BitVec.toNat_mul, Nat.mod_add_mod]
theorem computes3_bfi : Computes3 Alu.bfi (fun x y z => Alu.bfi x.toNat y.toNat z.toNat) := fun _ _ _ => rfl
theorem isPair_of_le_two : ∀ {f : BitVec 4}, f.toNat ≤ 2 → isPair f = false := by decide
theorem regsOf_of_le_two : ∀ {f : BitVec 4}, f.toNat ≤ 2 → regsOf f = 1 := by decide

section
variable {s : State} {c sl k : Nat} {g : Group} {b : LaneBlock} {w : L3} {v : LI}

/-- A word of three single registers, or of two and the immediate. -/
theorem li3_turn {op : Nat → Nat → Nat → Nat} {F : W32 → W32 → W32 → Nat} (hop : Computes3 op F)
    (h : LaneTurn s c sl k g b 0 w.prd [srcA w.toLaneHead 1, srcB w.toLaneHead 1, srcC w 1] [(w.dst.toNat, 1)]) :
    let e := laneEnv s c sl k g b w.prd [srcA w.toLaneHead 1, srcB w.toLaneHead 1, srcC w 1]
    li3 op w s = .next (wroteLanes s e false w.dst (fun i => F (e.g.v w.sa.toNat i) (e.g.v w.sb.toNat i) (e.g.v w.sc.toNat i))) := by
  simp only [← hop _ _ _]
  exact laneMap_turn (h := w.toLaneHead) (pair := false) h _
theorem li3i_turn {op : Nat → Nat → Nat → Nat} {F : W32 → W32 → W32 → Nat} (hop : Computes3 op F)
    (h : LaneTurn s c sl k g b 0 v.prd [srcA v.toLaneHead 1, srcB v.toLaneHead 1] [(v.dst.toNat, 1)]) :
    let e := laneEnv s c sl k g b v.prd [srcA v.toLaneHead 1, srcB v.toLaneHead 1]
    li3i op v s = .next (wroteLanes s e false v.dst (fun i => F (e.g.v v.sa.toNat i) (e.g.v v.sb.toNat i) v.imm)) := by
  simp only [← hop _ _ _]
  exact laneMap_turn (h := v.toLaneHead) (pair := false) h _
/-- BFE is a word of the 32-bit types alone (R243). -/
theorem execBfe_extracts
    (h : LaneTurn s c sl k g b 0 w.prd [srcA w.toLaneHead 1, srcB w.toLaneHead 1] [(w.dst.toNat, 1)]) (hf : w.fmt.toNat ≤ 2) :
    let e := laneEnv s c sl k g b w.prd [srcA w.toLaneHead 1, srcB w.toLaneHead 1]
    execBfe w s = .next (wroteLanes s e false w.dst (fun i =>
      Alu.bfe (signedLane w.fmt) (e.g.v w.sa.toNat i).toNat (e.g.v w.sb.toNat i).toNat)) := by
  rw [execBfe, li2, regsOf_of_le_two hf, isPair_of_le_two hf, lSgn_eq (hf.trans (by decide))]
  exact laneMap_turn (h := w.toLaneHead) (pair := false) h _
theorem execBfeImm_extracts
    (h : LaneTurn s c sl k g b 0 v.prd [srcA v.toLaneHead 1] [(v.dst.toNat, 1)]) (hf : v.fmt.toNat ≤ 2) :
    let e := laneEnv s c sl k g b v.prd [srcA v.toLaneHead 1]
    execBfeImm v s = .next (wroteLanes s e false v.dst (fun i => Alu.bfe (signedLane v.fmt) (e.g.v v.sa.toNat i).toNat v.imm.toNat)) := by
  have hn : v.fmt ≠ 3 := by
    intro h3
    rw [h3] at hf
    exact absurd hf (by decide)
  rw [execBfeImm, li2i, regsOf_of_le_two hf, isPair_of_le_two hf, lSgn_eq (hf.trans (by decide)), immI, if_neg hn]
  exact laneMap_turn (h := v.toLaneHead) (pair := false) h _
end

/-- Settles O25: each shift by the operator that its operation computes, and each word of single registers by its value. -/
theorem laneShiftsAndFields : Obligations.LaneShiftsAndFields := by
  intro s c sl k g b w v
  exact ⟨fun h hf => ⟨(lsh_turn computesShift_shl h hf :), (lsh_turn computesShift_shr h hf :), (lsh_turn computesShift_sra h hf :)⟩,
    fun h hf => ⟨(lshi_turn computesShift_shl h hf :), (lshi_turn computesShift_shr h hf :), (lshi_turn computesShift_sra h hf :)⟩,
    fun h => ⟨(li3_turn computes3_mad h :), (li3_turn computes3_bfi h :)⟩,
    fun h => ⟨(li3i_turn computes3_mad h :), (li3i_turn computes3_bfi h :)⟩, execBfe_extracts, execBfeImm_extracts⟩

end Sys2Proof.Machine
end

section
/-! O26: the lane words that write a predicate. -/

namespace Sys2Proof.Machine
open Bits

section
variable {f : BitVec 4} {x y : Nat} (hf : f.toNat ≤ 4) (hx : x < 2 ^ (if isPair f then 64 else 32))
include hf hx

/-- A condition at the width of a lane type (R235). -/
theorem icond_lane (c : BitVec 5) (hy : y < 2 ^ (if isPair f then 64 else 32)) :
    Flags.icond c.toNat (lSgn f) (lW f) x y =
      if isPair f then holdsInt c (signedLane f) (BitVec.ofNat 64 x) (BitVec.ofNat 64 y)
      else holdsInt c (signedLane f) (BitVec.ofNat 32 x) (BitVec.ofNat 32 y) := by
  rw [lW_eq hf, lSgn_eq hf]
  cases hp : isPair f <;> simp only [hp, Bool.false_eq_true, if_false, if_true] at hx hy ⊢
  · rw [← icond_eq_holdsInt, BitVec.toNat_ofNat, BitVec.toNat_ofNat, Nat.mod_eq_of_lt hx, Nat.mod_eq_of_lt hy]
  · rw [← icond_eq_holdsInt, BitVec.toNat_ofNat, BitVec.toNat_ofNat, Nat.mod_eq_of_lt hx, Nat.mod_eq_of_lt hy]
end

section
variable {s : State} {c sl k : Nat} {g : Group} {b : LaneBlock} {w : L3} {v : LI}

theorem lanePred_writes {deny : Nat} {h : LaneHead} {srcs : List Src} (ht : LaneTurn s c sl k g b deny h.prd srcs [])
    {f : LaneEnv → Nat → Bool} {x : Nat → Bool} (hx : ∀ i, f (laneEnv s c sl k g b h.prd srcs) i = x i) :
    lanePred deny h srcs f s = .next (wrotePred s (laneEnv s c sl k g b h.prd srcs) h.pdst x) := by
  rw [← funext hx]
  exact lanePred_turn ht f

theorem execIcmp_compares
    (h : LaneTurn s c sl k g b 0 w.prd [srcA w.toLaneHead (regsOf w.fmt), srcB w.toLaneHead (regsOf w.fmt)] []) (hf : w.fmt.toNat ≤ 4) :
    let e := laneEnv s c sl k g b w.prd [srcA w.toLaneHead (regsOf w.fmt), srcB w.toLaneHead (regsOf w.fmt)]
    execIcmp w s = .next (wrotePred s e w.pdst (fun i =>
      let x := e.g.vn (isPair w.fmt) w.sa.toNat i
      let y := e.g.vn (isPair w.fmt) w.sb.toNat i
      if isPair w.fmt then holdsInt (BitVec.ofNat 5 (w.aux.toNat % 8)) (signedLane w.fmt) (BitVec.ofNat 64 x) (BitVec.ofNat 64 y)
      else holdsInt (BitVec.ofNat 5 (w.aux.toNat % 8)) (signedLane w.fmt) (BitVec.ofNat 32 x) (BitVec.ofNat 32 y))) := by
  have hc : w.aux.toNat % 8 = (BitVec.ofNat 5 (w.aux.toNat % 8)).toNat := by simp; omega
  exact lanePred_writes h fun i => by rw [← icond_lane hf (vn_lt ..) _ (vn_lt ..), ← hc]
theorem execIcmpImm_compares (h : LaneTurn s c sl k g b 0 v.prd [srcA v.toLaneHead (regsOf v.fmt)] []) (hf : v.fmt.toNat ≤ 4) :
    let e := laneEnv s c sl k g b v.prd [srcA v.toLaneHead (regsOf v.fmt)]
    execIcmpImm v s = .next (wrotePred s e v.pdst (fun i =>
      let x := e.g.vn (isPair v.fmt) v.sa.toNat i
      if isPair v.fmt then holdsInt (v.rm.setWidth 5) (signedLane v.fmt) (BitVec.ofNat 64 x) (BitVec.ofNat 64 (immI v))
      else holdsInt (v.rm.setWidth 5) (signedLane v.fmt) (BitVec.ofNat 32 x) (BitVec.ofNat 32 (immI v)))) := by
  have hc : v.rm.toNat = (v.rm.setWidth 5).toNat := (BitVec.toNat_setWidth_of_le (by decide)).symm
  exact lanePred_writes h fun i => by rw [← icond_lane hf (vn_lt ..) _ (immI_lt v), ← hc]
/-- IADDC of a register and of a second operand, whichever it is (R241). -/
theorem iaddc_turn {h : LaneHead} (cin : Nat) {srcs : List Src} (y : Group → Nat → Nat)
    (ht : LaneTurn s c sl k g b 0 h.prd srcs [(h.dst.toNat, 1)]) :
    let e := laneEnv s c sl k g b h.prd srcs
    let ci (i : Nat) : Nat := if cin = 0 then 0 else if (e.g.p cin).getLsbD i then 1 else 0
    let sum (i : Nat) : Nat := (e.g.v h.sa.toNat i).toNat + y e.g i + ci i
    let out : W32 := BitVec.ofNat 32 (maskOf ((lanesOf e.exec).filter (fun i => decide (2 ^ 32 ≤ sum i))))
    iaddc h cin srcs y s = .next (doneLane ((laneStart s e).updGroup c sl (fun x =>
      let x := x.putLanes false h.dst.toNat (e.exec &&& e.keep) (fun i => sum i % 2 ^ 32)
      if h.pdst = 0 then x else x.setP h.pdst.toNat (e.exec &&& e.keep) out)) c sl k) := by
  unfold iaddc
  exact laneRun_next ht rfl
end

/-- Settles O26: ICMP by the condition on words, PLOP by its truth table, IADDC by its sum and its carry. -/
theorem lanePredicates : Obligations.LanePredicates := by
  intro s c sl k g b w v
  refine ⟨execIcmp_compares, execIcmpImm_compares, fun h => ?_, fun h => ?_, fun h => ?_⟩
  · change execPlop w s = _
    exact lanePred_turn h _
  · exact (iaddc_turn (w.aux.toNat % 8) (fun g i => (g.v w.sb.toNat i).toNat) h :)
  · exact (iaddc_turn v.rm.toNat (fun _ _ => v.imm.toNat) h :)

end Sys2Proof.Machine
end

section
/-! O27: the lane floating-point words. -/

namespace Sys2Proof.Machine
open Bits Numbers

section
variable {s : State} {c sl k : Nat} {g : Group} {b : LaneBlock} {w : L3} {v : LI}

/-- A word of a floating type, by its sources: one to three registers, or an immediate in the last place (R228, R229). -/
theorem lf1_turn (t : Nat) (op : Alu.Fin → Nat → Nat) :
    let n := if Encoding.pairFmt t then 2 else 1
    let e := laneEnv s c sl k g b w.prd [srcA w.toLaneHead n]
    LaneTurn s c sl k g b 2 w.prd [srcA w.toLaneHead n] [(w.dst.toNat, n)] →
    lf1 t op w s = .next (wroteLanes s e (Encoding.pairFmt t) w.dst (fun i => op (finL3 w e) (opA e.g w.toLaneHead t i))) :=
  fun h => laneMap_turn (h := w.toLaneHead) h _
theorem lf2_turn (t : Nat) (op : Alu.Fin → Nat → Nat → Nat) :
    let n := if Encoding.pairFmt t then 2 else 1
    let e := laneEnv s c sl k g b w.prd [srcA w.toLaneHead n, srcB w.toLaneHead n]
    LaneTurn s c sl k g b 2 w.prd [srcA w.toLaneHead n, srcB w.toLaneHead n] [(w.dst.toNat, n)] →
    lf2 t op w s = .next (wroteLanes s e (Encoding.pairFmt t) w.dst
      (fun i => op (finL3 w e) (opA e.g w.toLaneHead t i) (opB e.g w.toLaneHead t i))) :=
  fun h => laneMap_turn (h := w.toLaneHead) h _
theorem lf2i_turn (t : Nat) (op : Alu.Fin → Nat → Nat → Nat) :
    let n := if Encoding.pairFmt t then 2 else 1
    let e := laneEnv s c sl k g b v.prd [srcA v.toLaneHead n]
    LaneTurn s c sl k g b 2 v.prd [srcA v.toLaneHead n] [(v.dst.toNat, n)] →
    lf2i t op v s = .next (wroteLanes s e (Encoding.pairFmt t) v.dst (fun i => op (finLI v e) (opA e.g v.toLaneHead t i) (immF t v))) :=
  fun h => laneMap_turn (h := v.toLaneHead) h _
theorem lf3_turn (t : Nat) (op : Alu.Fin → Nat → Nat → Nat → Nat) :
    let n := if Encoding.pairFmt t then 2 else 1
    let e := laneEnv s c sl k g b w.prd [srcA w.toLaneHead n, srcB w.toLaneHead n, srcC w n]
    LaneTurn s c sl k g b 2 w.prd [srcA w.toLaneHead n, srcB w.toLaneHead n, srcC w n] [(w.dst.toNat, n)] →
    lf3 t op w s = .next (wroteLanes s e (Encoding.pairFmt t) w.dst
      (fun i => op (finL3 w e) (opA e.g w.toLaneHead t i) (opB e.g w.toLaneHead t i) (opC e.g w t i))) :=
  fun h => laneMap_turn (h := w.toLaneHead) h _
theorem lf3i_turn (t : Nat) (op : Alu.Fin → Nat → Nat → Nat → Nat) :
    let n := if Encoding.pairFmt t then 2 else 1
    let e := laneEnv s c sl k g b v.prd [srcA v.toLaneHead n, srcB v.toLaneHead n]
    LaneTurn s c sl k g b 2 v.prd [srcA v.toLaneHead n, srcB v.toLaneHead n] [(v.dst.toNat, n)] →
    lf3i t op v s = .next (wroteLanes s e (Encoding.pairFmt t) v.dst
      (fun i => op (finLI v e) (opA e.g v.toLaneHead t i) (opB e.g v.toLaneHead t i) (immF t v))) :=
  fun h => laneMap_turn (h := v.toLaneHead) h _
end

/-- Settles O27: each word by its type, its operands and its operation. -/
theorem laneFloat : Obligations.LaneFloat := by
  intro s c sl k g b w v
  refine ⟨fun h => ?_, fun h => ?_, fun h => ?_, fun h => ?_, fun h => ?_, fun h => ?_, fun h => ?_, fun h => ?_, fun h => ?_, fun h => ?_,
    fun h => ?_, fun h => ?_, fun h => ?_⟩
  · exact ⟨(lf2_turn 5 (Alu.fadd f32) h :), (lf2_turn 5 (Alu.fmul f32) h :),
      (lf2_turn 5 (fun _ => minMax f32 false) h :), (lf2_turn 5 (fun _ => minMax f32 true) h :)⟩
  · exact ⟨(lf2_turn 8 (Alu.fadd f64) h :), (lf2_turn 8 (Alu.fmul f64) h :),
      (lf2_turn 8 (fun _ => minMax f64 false) h :), (lf2_turn 8 (fun _ => minMax f64 true) h :)⟩
  · exact ⟨(lf2_turn 7 (fun o => Alu.both2 (Alu.fadd bf16 o)) h :), (lf2_turn 7 (fun o => Alu.both2 (Alu.fmul bf16 o)) h :),
      (lf2_turn 7 (fun _ => Alu.both2 (minMax bf16 false)) h :), (lf2_turn 7 (fun _ => Alu.both2 (minMax bf16 true)) h :)⟩
  · exact ⟨(lf2i_turn 5 (Alu.fadd f32) h :), (lf2i_turn 5 (Alu.fmul f32) h :),
      (lf2i_turn 5 (fun _ => minMax f32 false) h :), (lf2i_turn 5 (fun _ => minMax f32 true) h :)⟩
  · exact ⟨(lf2i_turn 8 (Alu.fadd f64) h :), (lf2i_turn 8 (Alu.fmul f64) h :),
      (lf2i_turn 8 (fun _ => minMax f64 false) h :), (lf2i_turn 8 (fun _ => minMax f64 true) h :)⟩
  · exact ⟨(lf2i_turn 7 (fun o => Alu.both2 (Alu.fadd bf16 o)) h :), (lf2i_turn 7 (fun o => Alu.both2 (Alu.fmul bf16 o)) h :),
      (lf2i_turn 7 (fun _ => Alu.both2 (minMax bf16 false)) h :), (lf2i_turn 7 (fun _ => Alu.both2 (minMax bf16 true)) h :)⟩
  · exact (lf3_turn 5 (Alu.ffma f32) h :)
  · exact (lf3_turn 8 (Alu.ffma f64) h :)
  · exact (lf3_turn 7 (fun o => Alu.both3 (Alu.ffma bf16 o)) h :)
  · exact (lf3i_turn 5 (Alu.ffma f32) h :)
  · exact (lf3i_turn 8 (Alu.ffma f64) h :)
  · exact (lf3i_turn 7 (fun o => Alu.both3 (Alu.ffma bf16 o)) h :)
  · exact (lf1_turn 5 (fun o => Alu.frnd f32 o.md) h :)

end Sys2Proof.Machine
end

section
/-! O28: the lane compares and the words of the transcendental unit. -/

namespace Sys2Proof.Machine
open Bits Numbers

section
variable {s : State} {c sl k : Nat} {g : Group} {b : LaneBlock} {w : L3} {v : LI}

/-- A compare of two registers, and of one and the immediate (R235). -/
theorem lfcmp_turn (t : Nat) (f : Fmt) :
    let n := if Encoding.pairFmt t then 2 else 1
    let e := laneEnv s c sl k g b w.prd [srcA w.toLaneHead n, srcB w.toLaneHead n]
    LaneTurn s c sl k g b 2 w.prd [srcA w.toLaneHead n, srcB w.toLaneHead n] [] →
    lfcmp t f w s = .next (wrotePred s e w.pdst (fun i => fcond (w.aux.toNat % 8)
      (value f (opA e.g w.toLaneHead t i)) (value f (opB e.g w.toLaneHead t i)))) :=
  fun h => lanePred_turn (h := w.toLaneHead) h _
theorem lfcmpi_turn (t : Nat) (f : Fmt) :
    let n := if Encoding.pairFmt t then 2 else 1
    let e := laneEnv s c sl k g b v.prd [srcA v.toLaneHead n]
    LaneTurn s c sl k g b 2 v.prd [srcA v.toLaneHead n] [] →
    lfcmpi t f v s = .next (wrotePred s e v.pdst (fun i => fcond v.rm.toNat
      (value f (opA e.g v.toLaneHead t i)) (value f (immF t v)))) :=
  fun h => lanePred_turn (h := v.toLaneHead) h _
/-- A word of the transcendental unit, which writes its destination later (R237). -/
theorem lt1_turn (t : Nat) (op : Mode → Nat → Nat) :
    let n := if Encoding.pairFmt t then 2 else 1
    let e := laneEnv s c sl k g b w.prd [srcA w.toLaneHead n]
    LaneTurn s c sl k g b 2 w.prd [srcA w.toLaneHead n] [(w.dst.toNat, n)] →
    lt1 t op w s = .next (producesLanes s e (Encoding.pairFmt t) w.dst
      (fun i => op (modeNoRsr w.rm e.sp.fmtr) (opA e.g w.toLaneHead t i))) :=
  fun h => laneTrans_turn (h := w.toLaneHead) h _
end

/-- Settles O28: each word by its type, its operands and its operation. -/
theorem laneCompareAndTranscendental : Obligations.LaneCompareAndTranscendental := by
  intro s c sl k g b w v
  refine ⟨fun h => ?_, fun h => ?_, fun h => ?_, fun h => ?_, fun h => ?_, fun h => ?_, fun h => ?_, fun h => ?_⟩
  · exact (lfcmp_turn 5 f32 h :)
  · exact (lfcmp_turn 8 f64 h :)
  · exact (lfcmpi_turn 5 f32 h :)
  · exact (lfcmpi_turn 8 f64 h :)
  · exact ⟨(lt1_turn 5 (fun m => Alu.frcp f32 ⟨m, 0, 0⟩) h :), (lt1_turn 5 (fun m => Alu.frsq f32 ⟨m, 0, 0⟩) h :),
      (lt1_turn 5 (fun m => Alu.fsqrt f32 ⟨m, 0, 0⟩) h :), (lt1_turn 5 Transc.ex2 h :), (lt1_turn 5 Transc.lg2 h :),
      (lt1_turn 5 Transc.sin h :), (lt1_turn 5 Transc.cos h :)⟩
  · exact ⟨(lt1_turn 8 (fun m => Alu.frcp f64 ⟨m, 0, 0⟩) h :), (lt1_turn 8 (fun m => Alu.frsq f64 ⟨m, 0, 0⟩) h :),
      (lt1_turn 8 (fun m => Alu.fsqrt f64 ⟨m, 0, 0⟩) h :)⟩
  · change execFdivc w s = _
    exact laneTrans_turn (pair := false) h _
  · change execFdivcImm v s = _
    exact laneTrans_turn (pair := false) h _

end Sys2Proof.Machine
end

section
/-! O30: the cross-lane words. -/

namespace Sys2Proof.Machine
open Bits

section
variable {s : State} {c sl k : Nat} {g : Group} {b : LaneBlock} {w : L3} {v : LI}

/-- A shuffle with its counts from a register or from the immediate (R248). -/
theorem shuffle_turn {h : LaneHead} (mode : Nat) {srcs : List Src} (cnt : Group → Nat → Nat)
    (ht : LaneTurn s c sl k g b 2 h.prd srcs [(h.dst.toNat, regsOf h.fmt)]) :
    let e := laneEnv s c sl k g b h.prd srcs
    let m := e.exec &&& e.keep
    shuffle h mode srcs cnt s = .next (doneLane ((laneStart s e).updGroup c sl (fun x =>
      let x := x.putLanes (isPair h.fmt) h.dst.toNat m
        (fun i => e.g.vn (isPair h.fmt) h.sa.toNat ((shflFrom mode (cnt e.g i) i e.exec).getD i))
      if h.pdst = 0 then x
      else x.setP h.pdst.toNat m (BitVec.ofNat 32 (maskOf ((lanesOf e.exec).filter (fun i => (shflFrom mode (cnt e.g i) i e.exec).isSome))))))
      c sl k) :=
  laneRun_next ht rfl
/-- A `.s` result is written unless the guard is never true (R251). -/
theorem putTos_executes {e : LaneEnv} (he : e.never = false) (d : BitVec 8) (v : W64) (s : State) :
    putTos e d v s = s.updGroup e.c e.sl (fun g => g.setS (g.sname d.toNat) v) := by
  simp [putTos, he]
/-- GRED to the lanes, and to a scalar register (R250). -/
theorem execGred_lanes (h : LaneTurn s c sl k g b 2 w.prd [srcA w.toLaneHead (regsOf w.fmt)] [(w.dst.toNat, regsOf w.fmt)])
    (hs : w.aux.getLsbD 5 = false) :
    let e := laneEnv s c sl k g b w.prd [srcA w.toLaneHead (regsOf w.fmt)]
    execGred w s = .next (wroteLanes s e (isPair w.fmt) w.dst (fun _ =>
      Alu.tree (Alu.redOp w.fmt.toNat (w.aux.toNat % 8) (modeNoRsr w.rm e.sp.fmtr)) (contribs w (w.aux.toNat % 8) e))) := by
  rw [execGred]
  simp only [bit_toNat, hs, Bool.false_eq_true, if_false]
  exact laneRun_next h rfl
theorem execGred_scalar (h : LaneTurn s c sl k g b 2 w.prd [srcA w.toLaneHead (regsOf w.fmt)] [])
    (hs : w.aux.getLsbD 5 = true) (hp : w.prd ≠ 8) :
    let e := laneEnv s c sl k g b w.prd [srcA w.toLaneHead (regsOf w.fmt)]
    execGred w s = .next (doneLane ((laneStart s e).updGroup c sl (fun x => x.setS (x.sname w.dst.toNat) (redScalar w.fmt
      (Alu.tree (Alu.redOp w.fmt.toNat (w.aux.toNat % 8) (modeNoRsr w.rm e.sp.fmtr)) (contribs w (w.aux.toNat % 8) e))))) c sl k) := by
  rw [execGred]
  simp only [bit_toNat, hs, if_true]
  refine laneRun_next h ?_
  rw [putTos_executes (never_laneEnv hp)]
  rfl
/-- The lanes where the predicate of a vote, negated where its word says so, holds (R249). -/
def votes (w : L3) (e : LaneEnv) : W32 := if w.sa.getLsbD 3 then ~~~(e.g.p (w.sa.toNat % 8)) else e.g.p (w.sa.toNat % 8)
theorem execVote_mask (h : LaneTurn s c sl k g b 2 w.prd [] [(w.dst.toNat, 1)]) (hk : w.aux.toNat % 4 = 3) (hs : w.aux.getLsbD 5 = false) :
    let e := laneEnv s c sl k g b w.prd []
    execVote w s = .next (wroteLanes s e false w.dst (fun _ => (e.exec &&& votes w e).toNat)) := by
  rw [execVote]
  simp only [bit_toNat, hs, hk, Bool.false_eq_true, if_false, if_true, and_self]
  exact laneRun_next h rfl
/-- A vote of kind 0, 1 or 2 asks whether all, any, or all or none of the lanes agree (R249). -/
theorem vote_eq_one {kind : Nat} (hk : kind ≤ 2) (m q : W32) : (Flags.vote kind m q = 1) =
    ((if kind = 0 then m &&& q == m else if kind = 1 then m &&& q != 0 else m &&& q == 0 || m &&& q == m) = true) := by
  have hkind : kind = 0 ∨ kind = 1 ∨ kind = 2 := by omega
  rcases hkind with rfl | rfl | rfl
  · simp [Flags.vote]
  · simp [Flags.vote]
  · simp [Flags.vote, ← or_iff_not_imp_left]
theorem execVote_pred (h : LaneTurn s c sl k g b 2 w.prd [] []) (hk : w.aux.toNat % 4 ≤ 2) (hs : w.aux.getLsbD 5 = false) (hd : w.pdst ≠ 0) :
    let e := laneEnv s c sl k g b w.prd []
    let t := e.exec &&& votes w e
    let holds : Bool := if w.aux.toNat % 4 = 0 then t == e.exec else if w.aux.toNat % 4 = 1 then t != 0 else t == 0 || t == e.exec
    execVote w s = .next (doneLane ((laneStart s e).updGroup c sl (fun x =>
      x.setP w.pdst.toNat (e.exec &&& e.keep) (if holds then BitVec.allOnes 32 else 0))) c sl k) := by
  have h3 : w.aux.toNat % 4 ≠ 3 := by omega
  rw [execVote]
  simp only [bit_toNat, hs, h3, hd, Bool.false_eq_true, if_false, false_and, vote_eq_one hk]
  exact laneRun_next h rfl
theorem execVote_scalar (h : LaneTurn s c sl k g b 2 w.prd [] []) (hs : w.aux.getLsbD 5 = true) (hp : w.prd ≠ 8) :
    let e := laneEnv s c sl k g b w.prd []
    execVote w s = .next (doneLane ((laneStart s e).updGroup c sl (fun x => x.setS (x.sname w.dst.toNat)
      (BitVec.ofNat 64 (Flags.vote (w.aux.toNat % 4) e.exec (votes w e))))) c sl k) := by
  rw [execVote]
  simp only [bit_toNat, hs, Bool.true_eq_false, if_false, if_true, and_false]
  refine laneRun_next h ?_
  rw [putTos_executes (never_laneEnv hp)]
  rfl
end

/-- Settles O30: SHFL by its source lanes, the tree and the scan of the model, and the votes by kind. -/
theorem crossLaneWords : Obligations.CrossLaneWords := by
  intro s c sl k g b w v
  refine ⟨fun h => ?_, fun h => ?_, fun h => ?_, execGred_lanes, execGred_scalar, execVote_mask, execVote_pred, execVote_scalar⟩
  · exact (shuffle_turn (w.aux.toNat % 4) (fun g i => (g.v w.sb.toNat i).toNat) h :)
  · exact (shuffle_turn v.rm.toNat (fun _ _ => v.imm.toNat) h :)
  · change execGscan w s = _
    exact laneMap_writes h fun _ => rfl

end Sys2Proof.Machine
end

section
/-! How a word of the matrix sequencer runs and ends where nothing is in flight (R258). -/

namespace Sys2Proof.Machine
open Bits

/-- A sequencer in turn runs the body of its word, whatever is in flight. -/
theorem seqRun_inTurn {s : State} {b : Nat} {x : Block} {q : Seq} (ht : s.turn = .seq (b / 8) (b % 8)) (hx : s.block? b = some x)
    (hq : x.seq = some q) (f : Nat → Block → Seq → Res) : seqRun f s = .next (endM b (f b x q)) := by
  have hb : b / 8 * 8 + b % 8 = b := by omega
  simp [seqRun, ht, hb, hx, hq]

section
variable {s t : State} {b : Nat} {x : Block} {q : Seq} (h : SeqTurn s b x q)
include h

/-- A word that waits for the words in flight runs at once where there are none. -/
theorem seqRun_alone (f : Nat → Block → Seq → Unit → Res) :
    seqRun (fun b x q => alone s q (f b x q)) s = .next (endM b (f b x q ())) := by
  rw [seqRun_turn h, alone_turn h]
theorem seqRun_alone_next {f : Nat → Block → Seq → Unit → Res} (hf : f b x q () = .next t) :
    seqRun (fun b x q => alone s q (f b x q)) s = .next (doneSeq t b) := by
  rw [seqRun_alone h, hf]
  rfl
/-- A word that waits for every earlier word runs at once where, besides, no store is left (R278). -/
theorem settled_turn (hs : storesLeft s b = none) (f : Unit → Res) : settled s b q f = f () := by
  rw [settled, alone_turn h, hs]
theorem seqRun_settled_next (hs : storesLeft s b = none) {f : Nat → Block → Seq → Unit → Res} (hf : f b x q () = .next t) :
    seqRun (fun b x q => settled s b q (f b x q)) s = .next (doneSeq t b) := by
  rw [seqRun_turn h, settled_turn h hs, hf]
  rfl
end

/-- A sequencer changed twice is changed once by both. -/
theorem updSeq_updSeq (s : State) (b : Nat) (f g : Seq → Seq) : updSeq (updSeq s b g) b f = updSeq s b (fun q => f (g q)) := by
  simp [updSeq, State.updBlock, NMap.modify_modify, Function.comp_def]
/-- A table is changed alike at a key by changes that agree on what it holds there. -/
theorem NMap.modify_congr {α : Type} {f g : α → α} {m : NMap α} {k : Nat} {x : α} (hx : m.get? k = some x) (hf : f x = g x) :
    NMap.modify f m k = NMap.modify g m k := by
  induction m with
  | nil => rfl
  | cons z m ih =>
    obtain ⟨n, v⟩ := z
    by_cases hn : n = k
    · obtain rfl : v = x := by simpa [NMap.get?, hn] using hx
      simp [NMap.modify, hn, hf]
    · simp only [NMap.get?, if_neg hn] at hx
      simp [NMap.modify, hn, ih hx]
/-- A sequencer is changed alike by changes that agree on it. -/
theorem updSeq_congr {s : State} {b : Nat} {x : Block} {q : Seq} {f g : Seq → Seq} (hx : s.block? b = some x) (hq : x.seq = some q)
    (hf : f q = g q) : updSeq s b f = updSeq s b g := by
  have hm : s.blocks.modify (fun y => { y with seq := y.seq.map f }) b = s.blocks.modify (fun y => { y with seq := y.seq.map g }) b :=
    NMap.modify_congr hx (by simp [hq, hf])
  rw [updSeq, updSeq, State.updBlock, State.updBlock, hm]
/-- A block whose sequencer is changed is found again with it changed. -/
theorem block?_updSeq (s : State) (b : Nat) (f : Seq → Seq) :
    (updSeq s b f).block? b = (s.block? b).map (fun x => { x with seq := x.seq.map f }) := get?_modify ..

end Sys2Proof.Machine
end

section
/-! O31: the dispatch of MMA and MMAQ, and the words of the accumulator path. -/

namespace Sys2Proof.Machine
open Bits Numbers

/-! ## Dispatch -/

theorem drained_untrapped {s : State} {b : Nat} (h : (drain s b).2 = none) : drained s b = .next (drain s b).1 := by
  rw [drained, show drain s b = ((drain s b).1, none) from Prod.ext rfl h]
/-- The word of a sequencer as it takes unit u with n elements of K: its predicates and stream positions are those at dispatch (R262). -/
def dispatched (x : Block) (q : Seq) (quant : Bool) (w : MA) (n u : Nat) : Flight :=
  { unit := u, pc := q.pc, word := w, quant, k := n, rows := q.mrp.getD w.mrp.toNat 0, cols := q.mcp.getD w.mcp.toNat 0
    apos := streamEnd x q w.sa.toNat, bpos := streamEnd x q (w.sb.toNat + 4) }
/-- A word with a K and a free unit joins the words in flight, and ends as these take what their streams hold (R261, R262). -/
theorem matrixMul_dispatches {s : State} {b : Nat} {x : Block} {q : Seq} {w : MA} {n u : Nat} {quant : Bool}
    (ht : s.turn = .seq (b / 8) (b % 8)) (hx : s.block? b = some x) (hq : x.seq = some q) (hprog : q.prog = 0)
    (hk : kOf q quant w = some n) (hu : freeUnit q = some u) :
    let t := drain (updSeq s b (fun z => { z with flights := z.flights ++ [dispatched x q quant w n u] })) b
    t.2 = none → matrixMul quant w s = .next (doneSeq t.1 b) := by
  intro t hd
  rw [matrixMul, seqRun_inTurn ht hx hq]
  have h0 : q.prog ≠ 1 := by omega
  simp only [if_neg h0, hk, hu]
  exact congrArg (fun r => Host.Outcome.next (endM b r)) (drained_untrapped hd)

/-! ## Sums of accumulators -/

/-- An exact result without a scale and a clamp is rounded once (R229). -/
theorem finish_exact (f : Fmt) (md : Mode) (x : Number) : finish f md false 0 0 (exact x) = round f md false x := by
  cases x with
  | nan => rfl
  | inf s => rfl
  | fin s m e => exact congrArg (fun e => roundFin f md false s m e false) (add_zero e)
theorem fadd_rne (f : Fmt) (a b : Nat) : Alu.fadd f ⟨.rne, 0, 0⟩ a b = round f .rne false (add .rne (value f a) (value f b)) :=
  finish_exact ..

/-! ## Words of the accumulator path -/

section
variable {s : State} {b : Nat} {x : Block} {q : Seq} (h : SeqTurn s b x q)
include h

theorem execMzero_clears (w : MA) : execMzero w s = .next (doneSeq (updSeq s b (fun q =>
    if w.sub = 1 then (q.zeroAc w.acc.toNat).zeroAc (w.acc.toNat + 1) else q.zeroAc w.acc.toNat)) b) :=
  seqRun_alone_next h rfl
theorem execMadda_adds (w : MA) : execMadda w s = .next (doneSeq (updSeq s b (fun q =>
    (unmasked q w 64 64).foldl (fun q e => q.setAc w.acc.toNat e.1 e.2
      (Alu.fadd f32 ⟨.rne, 0, 0⟩ (q.ac w.acc.toNat e.1 e.2) (q.ac w.acb.toNat e.1 e.2))) q)) b) := by
  simp only [fadd_rne]
  exact seqRun_alone_next h rfl
theorem execMprdCnt_sets (p : MP) :
    execMprdCnt p s = .next (doneSeq (updSeq s b (fun q => q.setPred p (mprdMask p.first.toNat p.cnt.toNat))) b) :=
  seqRun_alone_next h rfl
/-- The count is that of QS as the word finds it, which is the QS of the sequencer that it changes. -/
theorem execMprdQ_sets (p : MP) :
    execMprdQ p s = .next (doneSeq (updSeq s b (fun q' =>
      q'.setPred p (mprdMask p.first.toNat (min 64 ((q.qs.getD p.qs.toNat 0).toNat % 128))))) b) := by
  refine (seqRun_alone_next h rfl).trans ?_
  exact congrArg (fun t => Host.Outcome.next (doneSeq t b)) (updSeq_congr h.2.1 h.2.2.1 rfl)
theorem execMsclClr_disables (p : MP) : execMsclClr p s = .next (doneSeq (updSeq s b (fun q => q.clearScale p)) b) :=
  seqRun_alone_next h rfl
end

/-- Settles O31: MMA and MMAQ by their flight, and each word of the accumulator path by what it writes in the sequencer. -/
theorem matrixArithmetic : Obligations.MatrixArithmetic := by
  refine ⟨?dispatch, ?path⟩
  case dispatch =>
    intro s b x q w n u quant ht hx hq hprog hk hu f t hd
    have hrun : matrixMul quant w s = .next (doneSeq t.1 b) := matrixMul_dispatches ht hx hq hprog hk hu hd
    cases quant
    · exact hrun
    · exact hrun
  case path =>
    intro s b x q w p h put pred
    exact ⟨execMzero_clears h w, execMadda_adds h w, execMprdCnt_sets h p, execMprdQ_sets h p, execMsclClr_disables h p⟩

end Sys2Proof.Machine
end

section
/-! O32: the words of the sequencer that read and write through a direct map. -/

namespace Sys2Proof.Machine
open Bits

/-! ## Reads of a map -/

theorem readsTo_cons {b j : Nat} {m : OMap} {js pats : List Nat} {s u : State} (h : readsTo b m (j :: js) s = some (pats, u)) :
    ∃ t e ps, readElem s (seqIssuer s b 8) 0 m j = .ok t e ∧ readsTo b m js t = some (ps, u) ∧ pats = e.pat :: ps := by
  rw [readsTo] at h
  split at h
  · next t e he =>
    obtain ⟨⟨ps, v⟩, hps, heq⟩ := Option.map_eq_some_iff.1 h
    obtain ⟨rfl, rfl⟩ := Prod.mk.inj heq
    exact ⟨t, e, ps, he, hps, rfl⟩
  · cases h
/-- Elements that all read are handed on in their order, after those read before (R271). -/
theorem readMap_reads {b slot : Nat} {m : OMap} {done : List Nat → State → Res} {js buf pats : List Nat} {s u : State}
    (h : readsTo b m js s = some (pats, u)) :
    readMap b slot m done js buf s = done (buf.reverse ++ pats) (endMap u (seqIssuer u b 8) 0 m) := by
  induction js generalizing s buf pats with
  | nil =>
    obtain ⟨rfl, rfl⟩ := Prod.mk.inj (Option.some.inj h)
    rw [List.append_nil]
    rfl
  | cons j js ih =>
    obtain ⟨t, e, ps, he, hps, rfl⟩ := readsTo_cons h
    rw [readMap]
    simp only [he]
    rw [ih hps, List.reverse_cons, List.append_assoc]
    rfl

section
variable {s u : State} {b : Nat} {x : Block} {q : Seq} {m : OMap} {pats : List Nat}

/-- The cells of an accumulator that a map has elements for, in their order (R271). -/
def mapCells (m : OMap) : List (Nat × Nat) := (List.range (min m.n1 64)).flatMap (fun r => (List.range (min m.n0 64)).map (fun n => (r, n)))
/-- A sequencer with an accumulator, or a pair, cleared and then filled from patterns (R271). -/
def ldaFilled (w : MA) (m : OMap) (pats : List Nat) (q : Seq) : Seq :=
  ((mapCells m).zip pats).foldl (fun q e =>
    if w.af = 15 then q.setPair w.acc.toNat e.1.1 e.1.2 (ldaWord 15 e.2) else q.setAc w.acc.toNat e.1.1 e.1.2 (ldaWord w.af.toNat e.2))
    (if w.af = 15 then (q.zeroAc w.acc.toNat).zeroAc (w.acc.toNat + 1) else q.zeroAc w.acc.toNat)
theorem execMlda_fills {w : MA} (h : SeqTurn s b x q) (hprog : q.prog = 0) (hbuf : q.buf = [])
    (hm : directMap x w.omi.toNat w.af.toNat true = .ok m)
    (hr : readsTo b m ((mapCells m).map (fun e => e.2 + m.n0 * e.1)) (noteMap s b x w.omi.toNat) = some (pats, u)) :
    execMlda w s = .next (doneSeq (updSeq (endMap u (seqIssuer u b 8) 0 m) b (ldaFilled w m pats)) b) := by
  refine seqRun_alone_next h ?_
  unfold mapCells at hr
  simp only [hm, hprog, hbuf, List.drop_zero, readMap_reads hr]
  rfl
theorem execMsclSet_reads {p : MP} (h : SeqTurn s b x q) (hprog : q.prog = 0) (hbuf : q.buf = [])
    (hm : directMap x p.omi.toNat 14 false = .ok m) (hc : 64 ≤ m.count)
    (hr : readsTo b m (List.range 64) (noteMap s b x p.omi.toNat) = some (pats, u)) :
    execMsclSet p s = .next (doneSeq (updSeq (endMap u (seqIssuer u b 8) 0 m) b (fun q => q.setScale p (scaleVec pats))) b) := by
  refine seqRun_alone_next h ?_
  simp only [hm, if_neg (Nat.not_lt.2 hc), hprog, hbuf, List.drop_zero, readMap_reads hr]
  rfl
end

/-! ## The units of an MSTA -/

section
variable {b n : Nat} {posOf : Nat → Nat → Nat} {s t : State}

/-- A unit that is ready is written (R274). -/
theorem writeUnit_ready {u : StaUnit} {hops : List Hop} (h : UnitReady s b u hops t) :
    writeUnit b posOf u s = .next (unitStored s b hops u t) := by
  obtain ⟨⟨all, hroute, rfl⟩, hpool, hfree, hroom, hfreed, hhome⟩ := h
  unfold writeUnit
  simp only [unitFreed, unitLines, unitStart] at hfree hroom hfreed hhome
  simp only [hroute, hpool, hfree, hroom, hfreed, hhome]
  rfl
theorem writeUnits_written {draws : StaUnit → Nat} {fin : State → Res} {us : List StaUnit} (h : unitsWritten b draws n us s t) :
    writeUnits b posOf draws fin n us s = fin t := by
  induction us generalizing n s with
  | nil =>
    cases h
    rfl
  | cons u us ih =>
    obtain ⟨hops, v, hready, hrest⟩ := h
    rw [writeUnits, writeUnit_ready hready]
    exact ih hrest
end

/-! ## MSTA -/

/-- The patterns of an MSTA, converted as the word starts (R274). -/
def staPats (q : Seq) (w : MA) (m : OMap) : List Nat := if q.buf.isEmpty then (staElems q w (unmasked q w m.n1 m.n0) q.rng).1 else q.buf
/-- What an MSTA holds from its start: the record of its map, and its patterns (R258, R274). -/
def staStarted (s : State) (b : Nat) (x : Block) (q : Seq) (w : MA) (m : OMap) : State :=
  updSeq (noteMap s b x w.omi.toNat) b (fun z => { z with buf := staPats q w m })
/-- The end of an MSTA to memory whose good groups are written: complete, or the trap of the first position out of range (R274). -/
def staEnd (p : Party) (b : Nat) (w : MA) (m : OMap) (bad : Option Nat) (u : State) : Res :=
  match bad with
  | none => .next u
  | some j => .trap (undoWord u b) (if (p.ap (m.span j).1).1 = 3 then apertureTrap (m.span j).1 else mapBounds 0 w.omi.toNat j)
theorem staMemory_written {b n : Nat} {w : MA} {m : OMap} {es gs : List (Nat × Nat)} {pats : List Nat} {v u : State} {bad : Option Nat}
    (hn : ((partyOfBlock v b).blk.seq.getD {}).prog = n) (hg : goodGroups (partyOfBlock v b) m (staGroups m.fmt es) = (gs, bad))
    (hw : unitsWritten b (staDraws w m es gs) n ((staUnits m (es.zip pats) gs).drop n) v u) :
    staMemory b w m es pats v = staEnd (partyOfBlock v b) b w m bad u := by
  unfold staMemory
  simp only [hn, hg, writeUnits_written hw]
  cases bad <;> rfl

section
variable {s u : State} {b : Nat} {x : Block} {q : Seq} {m : OMap} {w : MA} (h : SeqTurn s b x q)
  (hm : directMap x w.omi.toNat w.af.toNat true = .ok m) (hpack : m.n0 % packGroup m.fmt = 0)
include h

/-- The start of an MSTA leaves its progress. -/
theorem prog_staStarted : ((partyOfBlock (staStarted s b x q w m) b).blk.seq.getD {}).prog = q.prog := by
  obtain ⟨_, hx, hq, _⟩ := h
  rw [partyOfBlock, staStarted, noteMap, updSeq_updSeq, block?_updSeq, hx]
  simp [hq]

include hm hpack

theorem execMsta_memory {gs : List (Nat × Nat)} {bad : Option Nat} (hsp : m.space = 0) :
    let es := unmasked q w m.n1 m.n0
    let v := staStarted s b x q w m
    goodGroups (partyOfBlock v b) m (staGroups m.fmt es) = (gs, bad) →
    unitsWritten b (staDraws w m es gs) q.prog ((staUnits m (es.zip (staPats q w m)) gs).drop q.prog) v u →
    execMsta w s = .next (endM b (staEnd (partyOfBlock v b) b w m bad u)) := by
  intro es v hg hw
  refine (seqRun_alone h _).trans (congrArg (fun r => Host.Outcome.next (endM b r)) ?_)
  simp only [hm, ne_eq, not_true_eq_false, hpack, if_false, hsp]
  exact staMemory_written (prog_staStarted h) hg hw
/-- To the tile file, the word is complete when its definition is accepted (R192, R275). -/
theorem execMsta_tile {o : TileOp} (hsp : m.space = 1) (h0 : m.n0 ≤ 64) (h1 : m.n1 ≤ 64) (hs : shapeBad (staTile w m) = false)
    (ho : tileOf s x.nb (.seq (b / 8) (b % 8)) 0 = some o) (hst : o.st = 2) :
    execMsta w s = .next (doneSeq (updSeq (dropTileOp s x.nb o.id) b (fun z =>
      { z with rng := drawn (if w.rm = 5 then (unmasked q w m.n1 m.n0).length else 0) z.rng })) b) := by
  refine seqRun_alone_next h ?_
  have hfits : (decide (64 < m.n0) || decide (64 < m.n1) || shapeBad (staTile w m)) = false := by
    simp [hs, h0, h1]
  simp only [hm, ne_eq, not_true_eq_false, hpack, if_false, hsp, hfits, Bool.false_eq_true]
  rw [tileRun_accepted (by exact ho) hst]
end

/-- Settles O32: the reads of MLDA and MSCL, and MSTA by the units of its map, or by its definition. -/
theorem matrixMemory : Obligations.MatrixMemory := by
  refine ⟨?reads, ?writes⟩
  case reads =>
    intro s u b x q w p m pats h hprog hbuf cells fill fin
    exact ⟨execMlda_fills h hprog hbuf, execMsclSet_reads h hprog hbuf⟩
  case writes =>
    intro s u b x q w m o h hm hpack es pats v p
    exact ⟨fun _ => execMsta_memory h hm hpack, fun _ _ => execMsta_memory h hm hpack, execMsta_tile h hm hpack⟩

end Sys2Proof.Machine
end

section
/-! O33: the control words of the sequencer. -/

namespace Sys2Proof.Machine
open Bits

/-- QD is bits 53:50 of the word (Table 1-4). -/
theorem seqQd_eq (s : State) : seqQd s = s.word.toNat / 2 ^ 50 % 16 := by
  rw [seqQd, field, Nat.shiftRight_eq_div_pow]
  rfl

/-- The low bits of a number, read as a signed offset (R281). -/
theorem toInt_mod (w n : Nat) : toInt w (n % 2 ^ w) = (BitVec.ofNat w n).toInt := by
  rw [← BitVec.toNat_ofNat, toInt_toNat]
/-- An integer modulo 2^32 is a PC as it stands. -/
theorem toNat_ofNat_ofInt32 (i : Int) : (BitVec.ofNat 64 (ofInt 32 i)).toNat = ofInt 32 i := by
  have hlt : ofInt 32 i < 2 ^ 32 := by
    rw [ofInt_eq_toNat]
    exact BitVec.isLt _
  rw [BitVec.toNat_ofNat]
  omega

section
variable {s : State} {b : Nat} {x : Block} {q : Seq} (h : SeqTurn s b x q)
include h

/-- The last turn of a loop closes it (R280). -/
theorem execMend_last {d start : Nat} {ls : List (Nat × Nat)} (hl : q.loops = (d, start) :: ls) (hq : q.qs.getD d 0 = 1) :
    execMend s = .next (doneSeq (updSeq s b (fun q => { q with qs := q.qs.set d 0, loops := ls })) b) := by
  refine seqRun_alone_next h ?_
  simp only [hl, hq, sub_self, if_true]
/-- Any other turn counts down and goes back to the loop's start (R280). -/
theorem execMend_again {d start : Nat} {ls : List (Nat × Nat)} (hl : q.loops = (d, start) :: ls) (hq : q.qs.getD d 0 ≠ 1) (hs : start < 2 ^ 64) :
    execMend s = .next (updSeq s b (fun q' =>
      { q' with qs := q'.qs.set d (q.qs.getD d 0 - 1), pc := start, park := none, prog := 0, buf := [], omap := none, disp := none })) := by
  have hv : q.qs.getD d 0 - 1 ≠ 0 := sub_ne_zero.2 hq
  have hpc : (BitVec.ofNat 64 start).toNat = start := by
    rw [BitVec.toNat_ofNat, Nat.mod_eq_of_lt hs]
  rw [execMend, seqRun_alone h]
  simp only [hl, if_neg hv, endM, updSeq_updSeq, hpc]
theorem execMnba_arrives (hs : storesLeft s b = none) : execMnba s = .next (doneSeq (releaseBit (s.updBlock b (fun x =>
    x.nbArrive (seqImm s % 16) (carriedSig s (b / 8) (48 + b % 8)) true)) (b / 8) (48 + b % 8)) b) :=
  seqRun_settled_next h hs rfl
theorem execMexit_ends (hs : storesLeft s b = none) :
    execMexit s = .next (doneSeq (releaseBit (dropOperands (s.updBlock b Block.endSeq) b) (b / 8) (48 + b % 8)) b) :=
  seqRun_settled_next h hs rfl
theorem execMnbw_flipped (hp : (x.nbs.getD (seqImm s % 16) {}).phase ≠ seqImm s / 16 % 2) :
    execMnbw s = .next (doneSeq (takeCarried s (b / 8) (48 + b % 8) (x.nbs.getD (seqImm s % 16) {}).lastSig) b) :=
  seqRun_alone_next h (if_neg hp)
/-- A wait for the flip of a numbered barrier is held as a park, and the word is dispatched (R258, R278). -/
theorem execMnbw_parks (hp : (x.nbs.getD (seqImm s % 16) {}).phase = seqImm s / 16 % 2) :
    execMnbw s = .next (updSeq (updSeq s b (fun q => { q with disp := some s.word.toNat })) b
      (fun q => { q with park := some ⟨3, .nb (seqImm s % 16) (seqImm s / 16 % 2)⟩ })) := by
  refine (seqRun_alone h _).trans ?_
  rw [if_pos hp]
  rfl
theorem execMwaits_empty (he : streamsEmpty x (seqImm s % 256) = true) : execMwaits s = .next (doneSeq s b) :=
  seqRun_alone_next h (if_pos he)
theorem execMloop_opens (hl : q.loops.length < 4) : execMloop s = .next (doneSeq (updSeq s b (fun q =>
    { q with qs := q.qs.set (seqQd s) (BitVec.ofNat 32 (seqImm s % 2 ^ 20)), loops := (seqQd s, q.pc + 1) :: q.loops })) b) :=
  seqRun_alone_next h (if_neg (Nat.not_le.2 hl))
theorem execMjmp_jumps : execMjmp s = .next (updSeq s b (fun z =>
    { z with pc := ofInt 32 ((q.pc : Int) + (BitVec.ofNat 20 (seqImm s)).toInt), park := none, prog := 0, buf := [], omap := none, disp := none })) := by
  rw [execMjmp, seqRun_alone h, toInt_mod]
  simp only [endM, toNat_ofNat_ofInt32]
theorem execMsafe_idle (hs : s.saveOps.any (fun o => o.nb == x.nb && !o.restore && !o.done) = false) : execMsafe s = .next (doneSeq s b) := by
  rw [execMsafe, seqRun_turn h, if_neg (Bool.eq_false_iff.1 hs)]
  rfl
theorem execMsafe_saving (hs : s.saveOps.any (fun o => o.nb == x.nb && !o.restore && !o.done) = true) (hl : storesLeft s b = none) :
    execMsafe s = .next (doneSeq (updSeq s b (fun q => { q with safe := some (BitVec.ofNat 48 (seqImm s)) })) b) := by
  rw [execMsafe, seqRun_turn h, if_pos hs, settled_turn h hl]
  rfl
end

/-- Settles O33: each control word by what it finds at its barrier, its streams, its loops or its saves. -/
theorem matrixControl : Obligations.MatrixControl := by
  intro s b x q h imm qd c me nb
  refine ⟨fun hs => ⟨execMnba_arrives h hs, execMexit_ends h hs⟩, execMnbw_flipped h, execMnbw_parks h, execMwaits_empty h, fun hl => ?_,
    fun d start ls hl hq => execMend_last h hl hq, fun d start ls hl hq hs => execMend_again h hl hq hs, execMjmp_jumps h, execMsafe_idle h,
    execMsafe_saving h⟩
  unfold qd
  rw [← seqQd_eq]
  exact execMloop_opens h hl

end Sys2Proof.Machine
end

section
/-! How a scalar word ends where it jumps, traps, parks or stays, by what its body comes to. -/

namespace Sys2Proof.Machine
open Bits

/-- A scalar word in turn ends as its body does. -/
theorem scalarRun_ends {s : State} {c sl : Nat} {g : Group} {priv : Bool} {deny len : Nat} {regs : List Nat} {r : Res}
    {body : Nat → Nat → Group → Res} (h : ScalarTurn s c sl g priv deny regs) (hb : body c sl g = r) :
    scalarRun priv deny len regs body s = .next (endS c sl len r) := by
  rw [scalarRun_turn h, hb]

end Sys2Proof.Machine
end

section
/-! O5: scalar branches, and the words that start a lane block, wait for one, or pause. -/

namespace Sys2Proof.Machine
open Bits

section
variable {s : State} {c sl : Nat} {g : Group} {a : BitVec 6}

/-! ## Branches (R340) -/

/-- A scalar stream goes on at another PC. -/
abbrev jumped (s : State) (c sl : Nat) (pc : W64) : State := doneS s c sl (fun _ => pc)
/-- The offset of a branch counts words of 4 bytes. -/
theorem branchTo_eq (g : Group) (o : BitVec 20) : branchTo g o = g.spc + 4 * o.signExtend 64 := by rw [branchTo, sext_eq]

theorem execSjmp_jumps (o : BitVec 20) (h : ScalarTurn s c sl g false 0 []) :
    execSjmp o s = .next (jumped s c sl (g.spc + 4 * o.signExtend 64)) := by
  rw [← branchTo_eq]
  exact scalarRun_ends h rfl
theorem execSbrZ_branches (o : BitVec 20) (h : ScalarTurn s c sl g false 0 [a.toNat]) :
    execSbrZ a o s = .next (if g.reg a = 0 then jumped s c sl (g.spc + 4 * o.signExtend 64) else doneScalar s c sl 4) := by
  refine (scalarRun_ends h rfl).trans (congrArg Host.Outcome.next ?_)
  simp only [field_reg, reg_zero, branchTo_eq]
  split <;> rfl
theorem execSbrNz_branches (o : BitVec 20) (h : ScalarTurn s c sl g false 0 [a.toNat]) :
    execSbrNz a o s = .next (if g.reg a = 0 then doneScalar s c sl 4 else jumped s c sl (g.spc + 4 * o.signExtend 64)) := by
  refine (scalarRun_ends h rfl).trans (congrArg Host.Outcome.next ?_)
  simp only [field_reg, reg_zero, branchTo_eq]
  split <;> rfl
theorem execScall_links (o : BitVec 20) (h : ScalarTurn s c sl g false 0 [a.toNat]) :
    execScall a o s = .next (s.updGroup c sl (fun x =>
      { x.setS (x.sname a.toNat) (g.spc + 4) with spc := g.spc + 4 * o.signExtend 64, park := none, arrived := none })) := by
  rw [execScall, scalarRun_turn h, branchTo_eq, endS, doneS, updGroup_updGroup]
theorem execSret_returns (h : ScalarTurn s c sl g false 0 [a.toNat]) (ha : (g.reg a).toNat % 4 = 0) :
    execSret a s = .next (jumped s c sl (g.reg a)) := by
  refine scalarRun_ends h (r := .jump s (g.reg a)) ?_
  rw [field_reg, if_pos ha, BitVec.ofNat_toNat, BitVec.setWidth_eq]
theorem execSret_misaligned (h : ScalarTurn s c sl g false 0 [a.toNat]) (ha : (g.reg a).toNat % 4 ≠ 0) :
    execSret a s = .next (raise s c sl 0 0 true { cause := 5, addr := g.reg a }) := by
  refine scalarRun_ends h (r := .trap s { cause := 5, addr := g.reg a }) ?_
  rw [field_reg, if_neg ha, BitVec.ofNat_toNat, BitVec.setWidth_eq]

/-! ## LISSUE in trap mode, LSYNC and SPAUSE (R321, R322, R370) -/

theorem execLissue_starts {w1 w2 w3 : BitVec 6} {t : BitVec 32} (h : ScalarTurn s c sl g false 0 [a.toNat, w1.toNat, w2.toNat, w3.toNat])
    (hm : g.trapMode = true) (hb : g.tlb = none) :
    execLissue a w1 w2 w3 t s = .next (doneScalar ((orderLoads s c sl true).updGroup c sl (fun x =>
      { x with tlb := some (freshBlock t (BitVec.allOnes 32) Config.fmtrReset x.ssp [g.reg a, g.reg w1, g.reg w2, g.reg w3]) })) c sl 8) := by
  refine scalarRun_next h ?_
  simp only [hm, hb, if_true, Option.isSome_none, Bool.false_eq_true, if_false]
  rfl
theorem execLsync_drained (h : ScalarTurn s c sl g false 0 []) (hd : g.drained = true) :
    execLsync s = .next (doneScalar (orderLoads s c sl false) c sl 4) :=
  scalarRun_next h (if_pos hd)
/-- The count of a SPAUSE is 0 where its register is. -/
theorem pause_zero : (min (g.reg a).toNat 65535 = 0) = (g.reg a = 0) := by
  rw [← reg_zero]
  exact propext ⟨fun h => by omega, fun h => by omega⟩
theorem execSpause_goesOn (h : ScalarTurn s c sl g false 0 [a.toNat]) (hn : g.reg a = 0 ∨ g.arrived.isSome) :
    execSpause a s = .next (doneScalar s c sl 4) := by
  refine scalarRun_next h ?_
  simp only [field_reg, pause_zero, if_pos hn]
theorem execSpause_waits (h : ScalarTurn s c sl g false 0 [a.toNat]) (hn : g.reg a ≠ 0) (ha : g.arrived = none) :
    execSpause a s = .next (s.updGroup c sl (fun x =>
      { x with arrived := some 0, park := some ⟨11, .clock (s.clock + min (g.reg a).toNat 65535)⟩ })) := by
  have hwait : ¬(g.reg a = 0 ∨ g.arrived.isSome = true) := not_or.2 ⟨hn, by simp [ha]⟩
  refine (scalarRun_ends h rfl).trans ?_
  simp only [field_reg, pause_zero, if_neg hwait, endS, joinRegion, updGroup_updGroup]
end

/-- Settles O5: each branch by its target, and each word of the lane stream by what it finds of it. -/
theorem scalarControl : Obligations.ScalarControl := by
  refine ⟨⟨?branches, ?misaligned⟩, ?waits⟩
  case branches =>
    intro s c sl g a o h goes
    exact ⟨execSjmp_jumps o (h.mono (by simp)), execSbrZ_branches o h, execSbrNz_branches o h, execScall_links o h, execSret_returns h⟩
  case misaligned =>
    intro s c sl g a h ha
    exact execSret_misaligned h ha
  case waits =>
    intro s c sl g a w1 w2 w3 t h
    have ha : ScalarTurn s c sl g false 0 [a.toNat] := h.mono (by simp)
    exact ⟨execLissue_queues h, execLissue_starts h, execLsync_drained (h.mono (by simp)), execSpause_goesOn ha, execSpause_waits ha⟩

end Sys2Proof.Machine
end

section
/-! O8: SEXIT of a group that has nothing left to wait for. -/

namespace Sys2Proof.Machine
open Bits

/-- The reads of a tile file that retires change no group. -/
theorem staleReads_groups (mine : StreamId → Bool) (handle : Nat) (ops : List TileOp) (s : State) : (staleReads mine handle ops s).groups = s.groups := by
  refine foldl_keeps (π := State.groups) (fun t o => ?_) ops s
  split
  · rfl
  · split <;> rfl
  · rfl
/-- A slot that two states leave empty is empty in the one that is chosen. -/
theorem group?_ite_none {p : Prop} [Decidable p] {s t : State} {c sl : Nat} (hs : s.group? c sl = none) (ht : t.group? c sl = none) :
    (if p then s else t).group? c sl = none := by
  split
  · exact hs
  · exact ht
/-- A neighbourhood that leaves brings no group. -/
theorem group?_removeNb_of_none {s : State} {c sl : Nat} (nb : Nat) (h : s.group? c sl = none) : (removeNb s nb).group? c sl = none := by
  unfold removeNb
  split
  · exact h
  · refine get?_keep _ _ _ ?_
    rw [staleReads_groups]
    exact group?_ite_none h h
/-- A group that has ended is in no slot (R322). -/
theorem group?_endGroup (s : State) (c sl : Nat) (g : Group) : (endGroup s c sl g).group? c sl = none := by
  have hgone : (s.groups.erase (c * 48 + sl)).get? (c * 48 + sl) = none := (get?_erase ..).trans (if_pos rfl)
  unfold endGroup
  exact group?_ite_none (group?_ite_none (group?_removeNb_of_none _ (group?_ite_none hgone hgone)) (group?_ite_none hgone hgone)) hgone

/-- Settles O8: none of the waits of SEXIT holds the group, and no copy of it has failed, so that its slot is freed. -/
theorem groupEnds : Obligations.GroupEnds := by
  intro s c sl g h hdrained hcopied hreturned hreport hseq
  refine ⟨scalarRun_ends (r := .stay (endGroup s c sl g)) h ?_, group?_endGroup s c sl g⟩
  have hlast : (seqRuns (s.blockOf g) && (liveGroups s g.block).length == 1) = false := by
    cases hr : seqRuns (s.blockOf g) with
    | false => rfl
    | true => simpa using hseq hr
  simp only [hdrained, hcopied, hreturned, hreport, hlast, Bool.and_self, Bool.not_true, Bool.false_eq_true, if_false]

end Sys2Proof.Machine
end

section
/-! O9: the numbered barriers of a block, and BAR at the scope of a core. -/

namespace Sys2Proof.Machine
open Bits

/-! ## What an arrival leaves of its entry (R336) -/

/-- The loads of a group that are performed change no partition. -/
theorem parts_countErrs (s : State) (us : List Nat) : (countErrs s us).parts = s.parts := by
  unfold countErrs l2Read
  refine (foldl_keeps (π := State.parts) ?_ _ _).trans (foldl_keeps (π := State.parts) ?_ _ s)
  · exact fun _ _ => rfl
  · exact fun _ _ => rfl
theorem parts_bindLoads (s : State) (c : Nat) (mine : Load → Bool) (lines : List Nat) : (bindLoads s c mine lines).parts = s.parts := by
  unfold bindLoads
  simp only [updCore_parts]
  split
  · rfl
  · exact parts_countErrs ..
theorem parts_bindGroup (s : State) (c sl : Nat) : (bindGroup s c sl).parts = s.parts := parts_bindLoads ..

/-- An entry after an arrival that carries a signature. -/
def BarEntry.arrive (e : BarEntry) (v : BitVec 512) : BarEntry :=
  if e.count + 1 = e.expect then { e with phase := 1 - e.phase, count := 0, lastSig := e.carried ||| v, carried := 0 }
  else { e with count := e.count + 1, carried := e.carried ||| v }
theorem barEntry_congr {s t : State} (h : t.parts = s.parts) (part key : Nat) : barEntry t part key = barEntry s part key := by
  unfold barEntry State.part?
  rw [h]
theorem barEntry_updPart {s : State} {part key : Nat} {e : BarEntry} (h : (s.part? part).isSome) :
    barEntry (s.updPart part (fun p => { p with bars := p.bars.set key e })) part key = e := by
  obtain ⟨p, hp⟩ := Option.isSome_iff_exists.1 h
  simp only [State.part?] at hp
  simp only [barEntry, State.part?, updPart_parts, get?_modify, hp, Option.map_some, Option.getD_some, NMap.getD, NMap.get?_set, if_pos]
theorem barEntry_barArrive {s : State} {part key : Nat} (v : BitVec 512) (h : (s.part? part).isSome) :
    barEntry (barArrive s part key v) part key = (barEntry s part key).arrive v := by
  simp only [barArrive]
  split
  · next hfull =>
    rw [BarEntry.arrive, if_pos hfull]
    exact barEntry_updPart h
  · next hleft =>
    rw [BarEntry.arrive, if_neg hleft]
    exact barEntry_updPart h

/-! ## Numbered barriers (R337) -/

section
variable {s : State} {c sl : Nat} {g : Group} {n : BitVec 4} {a : BitVec 6}

/-- A numbered barrier of the block of a group. -/
abbrev nbOf (s : State) (g : Group) (n : BitVec 4) : Barrier := (s.blockOf g).nbs.getD n.toNat {}

theorem execNbinit_sets (h : ScalarTurn s c sl g false 0 [a.toNat]) (h1 : 1 ≤ (g.reg a).toNat) (hmax : (g.reg a).toNat ≤ 4095)
    (hc : (nbOf s g n).count = 0) :
    execNbinit n a s = .next (doneScalar (s.updBlock g.block (fun b =>
      { b with nbs := b.nbs.set n.toNat { nbOf s g n with expect := (g.reg a).toNat } })) c sl 4) := by
  have hgood : ¬((g.reg a).toNat = 0 ∨ 4095 < (g.reg a).toNat) := by omega
  refine scalarRun_next h ?_
  simp only [field_reg, if_neg hgood, hc, ne_eq, not_true_eq_false, if_false]
theorem execNbarr_arrives (h : ScalarTurn s c sl g false 0 []) (hd : g.drained = true) (hh : heldGroup s c sl = none) (hf : farLoads s c sl = false) :
    execNbarr n s = .next (doneScalar ((bindGroup s c sl).updBlock g.block (fun b => b.nbArrive n.toNat (carriedSig s c sl) false)) c sl 4) := by
  refine scalarRun_next h ?_
  simp only [hd, hh, hf, Bool.not_true, Bool.false_eq_true, if_false]
theorem execNbwait_flipped (h : ScalarTurn s c sl g false 0 [a.toNat]) (hp : (nbOf s g n).phase ≠ (g.reg a).toNat % 2) :
    execNbwait n a s = .next (doneScalar (takeCarried s c sl (nbOf s g n).lastSig) c sl 4) :=
  scalarRun_next h (if_neg hp)
theorem execNbwait_parks (h : ScalarTurn s c sl g false 0 [a.toNat]) (hp : (nbOf s g n).phase = (g.reg a).toNat % 2) :
    execNbwait n a s = .next (s.updGroup c sl (fun x => { x with park := some ⟨3, .nb n.toNat ((g.reg a).toNat % 2)⟩ })) :=
  scalarRun_ends (r := .park s 3 (.nb n.toNat ((g.reg a).toNat % 2))) h (if_pos hp)
end

/-! ## BAR of a core (R336) -/

section
variable {s : State} {c sl : Nat} {g : Group} {d : BitVec 6}

/-- The entry of a core's barrier, and its key (R30). -/
abbrev coreKey (c : Nat) (d : BitVec 6) : Nat := barKey 0 c d.toNat
abbrev coreEntry (s : State) (c : Nat) (g : Group) (d : BitVec 6) : BarEntry := barEntry s (s.nbhdOf g).part (coreKey c d)
/-- The state in which the loads of a group are performed and its block has noted its arrival, the signature that the arrival carries, and
the state after it. -/
def barNoted (s : State) (c sl : Nat) (g : Group) (d : BitVec 6) : State :=
  (bindGroup s c sl).updBlock g.block (fun b =>
    if b.arrivals.contains (coreKey c d) then b else { b with arrivals := b.arrivals ++ [coreKey c d] })
abbrev barSig (s : State) (c sl : Nat) : BitVec 512 := carriedSig (bindGroup s c sl) c sl
def barArrived (s : State) (c sl : Nat) (g : Group) (d : BitVec 6) : State :=
  barArrive (barNoted s c sl g d) (s.nbhdOf g).part (coreKey c d) (barSig s c sl)

variable (h : ScalarTurn s c sl g false 0 []) (ha : g.arrived = none) (hd : g.drained = true) (hh : heldGroup s c sl = none)
  (hf : farLoads s c sl = false) (hp : (s.part? (s.nbhdOf g).part).isSome) (he : 1 ≤ (coreEntry s c g d).expect)

include hp in
theorem barEntry_barArrived : barEntry (barArrived s c sl g d) (s.nbhdOf g).part (coreKey c d) = (coreEntry s c g d).arrive (barSig s c sl) := by
  have hparts : (barNoted s c sl g d).parts = s.parts := parts_bindGroup s c sl
  have hp' : ((barNoted s c sl g d).part? (s.nbhdOf g).part).isSome := by
    rw [State.part?, hparts]
    exact hp
  rw [barArrived, barEntry_barArrive _ hp', barEntry_congr hparts]

include h ha hd hh hf hp he

/-- A first arrival of a drained group goes on, or parks, by the phase that it leaves. -/
theorem execBar_arrives : execBar d 0 s = .next (endS c sl 4 (
    if ((coreEntry s c g d).arrive (barSig s c sl)).phase = (coreEntry s c g d).phase
    then .park ((barArrived s c sl g d).updGroup c sl (fun x => { x with arrived := some (coreEntry s c g d).phase })) 3
      (.bar (s.nbhdOf g).part (coreKey c d) (coreEntry s c g d).phase)
    else .next (takeCarried (barArrived s c sl g d) c sl ((coreEntry s c g d).arrive (barSig s c sl)).lastSig))) := by
  have hexpect : (coreEntry s c g d).expect ≠ 0 := by omega
  have hscope : (0 : BitVec 3).toNat = 0 := rfl
  have hrelease : barRelease s c sl 0 = .ok (bindGroup s c sl) := by simp only [barRelease, hf, hh, Bool.false_eq_true, if_false]
  refine scalarRun_ends h ?_
  rw [← barEntry_barArrived hp]
  simp only [ha, hscope, if_neg hexpect, hd, hrelease, Bool.not_true, Bool.false_eq_true, if_false]
  rfl
theorem execBar_completes (hc : (coreEntry s c g d).count + 1 = (coreEntry s c g d).expect) (hphase : (coreEntry s c g d).phase ≤ 1) :
    execBar d 0 s = .next (doneScalar (takeCarried (barArrived s c sl g d) c sl ((coreEntry s c g d).carried ||| barSig s c sl)) c sl 4) := by
  have hturned : 1 - (coreEntry s c g d).phase ≠ (coreEntry s c g d).phase := by omega
  rw [execBar_arrives h ha hd hh hf hp he, BarEntry.arrive, if_pos hc, if_neg hturned]
  rfl
theorem execBar_parks (hc : (coreEntry s c g d).count + 1 ≠ (coreEntry s c g d).expect) :
    execBar d 0 s = .next ((barArrived s c sl g d).updGroup c sl (fun x =>
      { x with arrived := some (coreEntry s c g d).phase, park := some ⟨3, .bar (s.nbhdOf g).part (coreKey c d) (coreEntry s c g d).phase⟩ })) := by
  rw [execBar_arrives h ha hd hh hf hp he, BarEntry.arrive, if_neg hc, if_pos rfl]
  simp only [endS, joinRegion, updGroup_updGroup]
end

/-- Settles O9: the numbered barriers by what they find at their barrier, and BAR by whether its arrival is the last. -/
theorem barrierWords : Obligations.BarrierWords := by
  refine ⟨?numbered, ?core⟩
  case numbered =>
    intro s c sl g n a h x
    exact ⟨execNbinit_sets h, execNbarr_arrives (h.mono (by simp)), execNbwait_flipped h, execNbwait_parks h⟩
  case core =>
    intro s c sl g d h ha hd hh hf part key e v noted after hp he
    exact ⟨execBar_completes h ha hd hh hf hp he, execBar_parks h ha hd hh hf hp he⟩

end Sys2Proof.Machine
end

section
/-! O39: BRA by the lanes of its split that take it. -/

namespace Sys2Proof.Machine
open Bits

section
variable {s : State} {c sl k : Nat} {g : Group} {b : LaneBlock}

/-! ## Lane words that jump -/

/-- A lane word that goes to a PC, and the joins and merges that follow (R327, R328). -/
abbrev jumpedLane (s : State) (c sl k : Nat) (pc : W32) : State :=
  settleLanes (updSplit s c sl k (fun x => { x with pc, park := none, unfinished := none, rel := false })) c sl
theorem endL_jumpL (s : State) (c sl k : Nat) (own : Bool) (pc : W32) : endL c sl k own (jumpL s pc) = jumpedLane s c sl k pc := by
  have hpc : (pc.setWidth 64).setWidth 32 = pc := by simp
  simp only [jumpL, endL, hpc]
theorem laneRun_jumps {t : State} {deny : Nat} {prd : BitVec 4} {srcs : List Src} {dsts : List (Nat × Nat)} {body : LaneEnv → State → Res} {pc : W32}
    (h : LaneTurn s c sl k g b deny prd srcs dsts)
    (hb : body (laneEnv s c sl k g b prd srcs) (laneStart s (laneEnv s c sl k g b prd srcs)) = jumpL t pc) :
    laneRun deny prd srcs dsts body s = .next (jumpedLane t c sl k pc) := by
  rw [laneRun_ends h hb, endL_jumpL]

/-! ## BRA (R326, R339) -/

/-- The target of a branch, and where its lanes join again (R326). -/
abbrev branchTarget (pc : W32) (w : LI) : W32 := pc + (w.imm.extractLsb' 16 16).signExtend 32
abbrev branchJoin (pc : W32) (w : LI) : W32 := pc + (w.imm.extractLsb' 0 16).setWidth 32

/-- The halves of the immediate, as numbers and as words. -/
theorem signed_highHalf (x : BitVec 32) : BitVec.ofInt 32 (toInt 16 (x.toNat / 65536)) = (x.extractLsb' 16 16).signExtend 32 := by
  have hx : x.toNat / 65536 = (x.extractLsb' 16 16).toNat := by
    rw [BitVec.extractLsb'_toNat, Nat.shiftRight_eq_div_pow]
    omega
  rw [hx, toInt_toNat]
  rfl
theorem lowHalf (x : BitVec 32) : BitVec.ofNat 32 (x.toNat % 65536) = (x.extractLsb' 0 16).setWidth 32 := by
  rw [← BitVec.setWidth_eq (BitVec.setWidth 32 _), ← BitVec.ofNat_toNat, BitVec.toNat_setWidth, BitVec.extractLsb'_toNat]
  refine BitVec.eq_of_toNat_eq ?_
  simp only [BitVec.toNat_ofNat, Nat.shiftRight_zero]
  omega

section
variable {w : LI} {e : LaneEnv} (he : laneEnv s c sl k g b w.prd [] = e) (h : LaneTurn s c sl k g b 0 w.prd [] [])
include he h

theorem execBra_all (hn : (b.at k).mask &&& ~~~e.exec = 0) :
    execBra w s = .next (jumpedLane (laneStart s e) c sl k (branchTarget (b.at k).pc w)) := by
  subst he
  rw [branchTarget, ← signed_highHalf]
  exact laneRun_jumps h (if_pos hn)

section
variable (hn : (b.at k).mask &&& ~~~e.exec ≠ 0)
include hn

theorem execBra_none (hx : e.exec = 0) : execBra w s = .next (jumpedLane (laneStart s e) c sl k ((b.at k).pc + 1)) := by
  subst he
  exact laneRun_jumps h ((if_neg hn).trans (if_pos hx))

variable (hx : e.exec ≠ 0)
include hx

/-- One that some lanes take diverges outside trap mode, unless its target is the next word (R326, R339, R370). -/
theorem execBra_some : execBra w s = .next (endL c sl k g.trapMode (
    if g.trapMode then .trap (laneStart s e) (overflow 1 e.exec)
    else if branchTarget (b.at k).pc w = (b.at k).pc + 1 then jumpL (laneStart s e) ((b.at k).pc + 1)
    else match diverge e.block k e.exec (branchTarget (b.at k).pc w) ((b.at k).pc + 1) (branchJoin (b.at k).pc w) with
      | .error sub => .trap (laneStart s e) (overflow sub e.exec)
      | .ok (b, pc) => jumpL (putLanesBlock e b (laneStart s e)) pc)) := by
  have hm : e.g.trapMode = g.trapMode := he ▸ trapMode_laneEnv ..
  subst he
  rw [branchTarget, branchJoin, ← signed_highHalf, ← lowHalf]
  refine laneRun_ends h ((if_neg hn).trans ((if_neg hx).trans ?_))
  simp only [hm]
  rfl
theorem execBra_next (hm : g.trapMode = false) (ht : branchTarget (b.at k).pc w = (b.at k).pc + 1) :
    execBra w s = .next (jumpedLane (laneStart s e) c sl k ((b.at k).pc + 1)) := by
  rw [execBra_some he h hn hx, if_neg (by simp [hm]), if_pos ht, endL_jumpL]
theorem execBra_diverges {b' : LaneBlock} {pc' : W32} (hm : g.trapMode = false) (ht : branchTarget (b.at k).pc w ≠ (b.at k).pc + 1)
    (hd : diverge e.block k e.exec (branchTarget (b.at k).pc w) ((b.at k).pc + 1) (branchJoin (b.at k).pc w) = .ok (b', pc')) :
    execBra w s = .next (jumpedLane (putLanesBlock e b' (laneStart s e)) c sl k pc') := by
  rw [execBra_some he h hn hx, if_neg (by simp [hm]), if_neg ht, hd, endL_jumpL]
theorem execBra_trapMode (hm : g.trapMode = true) :
    execBra w s = .next (raise (laneStart s e) c sl 1 k true (overflow 1 e.exec)) := by
  rw [execBra_some he h hn hx, if_pos hm, hm, endL]
end
end
end

/-- Settles O39: BRA by whether all, none or some lanes of its split take it. -/
theorem laneBranches : Obligations.LaneBranches := by
  intro s c sl k g b b' w pc' h e pc goes x j
  exact ⟨execBra_all rfl h, execBra_none rfl h, execBra_next rfl h, fun hn hx => execBra_diverges rfl h hn hx, execBra_trapMode rfl h⟩

end Sys2Proof.Machine
end

section
/-! O40: calls and ends of a lane block. -/

namespace Sys2Proof.Machine
open Bits

section
variable {s : State} {c sl k : Nat} {g : Group} {b : LaneBlock} {e : LaneEnv}

/-! ## LCALL and LRET (R332) -/

/-- The CALL entry that a call from a PC pushes. -/
def callEntry (pc : W32) (x : Split) : StackEntry :=
  { call := true, pc := pc + 1, mask := x.mask, fmtr := x.fmtr, ssp := x.ssp, rpc := 0, jid := x.jid }
/-- A lane block whose split k has pushed it. -/
def called (b : LaneBlock) (k : Nat) (pc : W32) (stack : List StackEntry) : LaneBlock :=
  b.set k { b.at k with stack := callEntry pc (b.at k) :: stack }

theorem execLcall_calls {w : LI} (he : laneEnv s c sl k g b w.prd [] = e) (h : LaneTurn s c sl k g b 0 w.prd [] [])
    (hn : (b.at k).mask &&& ~~~e.exec = 0) (hx : e.exec ≠ 0) (hroom : (b.at k).stack.length < 16) :
    execLcall w s = .next (jumpedLane (putLanesBlock e (called e.block k (b.at k).pc (e.block.at k).stack) (laneStart s e)) c sl k
      ((b.at k).pc + w.imm)) := by
  subst he
  have hall : (laneEnv s c sl k g b w.prd []).sp.mask &&& ~~~(laneEnv s c sl k g b w.prd []).exec = 0 := hn
  have hroom' : ¬16 ≤ (laneEnv s c sl k g b w.prd []).sp.stack.length := Nat.not_le.2 hroom
  refine laneRun_jumps h ?_
  simp only [if_neg hx, if_neg hroom', hall, true_or, if_true]
  rfl
theorem execLcall_none {w : LI} (he : laneEnv s c sl k g b w.prd [] = e) (h : LaneTurn s c sl k g b 0 w.prd [] []) (hx : e.exec = 0) :
    execLcall w s = .next (jumpedLane (laneStart s e) c sl k ((b.at k).pc + 1)) := by
  subst he
  exact laneRun_jumps h (if_pos hx)
theorem execLret_returns {top : StackEntry} {rest : List StackEntry} (he : laneEnv s c sl k g b 0#4 [] = e) (h : LaneTurn s c sl k g b 0 0#4 [] [])
    (hs : (b.at k).stack = top :: rest) (hc : top.call = true) (hj : top.jid = (b.at k).jid) :
    execLret s = .next (jumpedLane (updSplit (laneStart s e) c sl k (fun x => { x with stack := rest })) c sl k top.pc) := by
  subst he
  have hs' : (laneEnv s c sl k g b 0#4 []).sp.stack = top :: rest := hs
  have hown : (top.call && top.jid == (laneEnv s c sl k g b 0#4 []).sp.jid) = true := by
    rw [hc, hj]
    exact beq_self_eq_true (b.at k).jid
  refine laneRun_jumps h ?_
  simp only [hs', hown, if_true]
  rfl

/-! ## LEXIT (R329) -/

theorem execLexit_leaves {w : L3} (he : laneEnv s c sl k g b w.prd [] = e) (h : LaneTurn s c sl k g b 0 w.prd [] []) (hp : w.prd ≠ 8)
    (hw : e.block.wide = none) (hn : (b.at k).mask &&& ~~~e.exec ≠ 0) :
    execLexit w s = .next (doneLane (updSplit ((laneStart s e).updGroup c sl (fun x => { x with live := x.live &&& ~~~e.exec })) c sl k
      (fun x => { x with mask := (b.at k).mask &&& ~~~e.exec })) c sl k) := by
  subst he
  refine laneRun_next h ?_
  simp only [never_laneEnv hp, hw, Option.isSome_none, Bool.false_eq_true, if_false]
  exact if_neg hn

/-! ## LEND, WIDE and ENDW (R330, R333, R334) -/

/-- A lane block of which a split has parked until every split meets it. -/
abbrev waitingLanes (s : State) (c sl k kind : Nat) : State :=
  settleLanes (updSplit s c sl k (fun x => { x with park := some ⟨4, .splits kind⟩, unfinished := none })) c sl

section
variable (he : laneEnv s c sl k g b 0#4 [] = e) (h : LaneTurn s c sl k g b 0 0#4 [] [])
include he h

theorem execLend_waits (hw : e.block.wide = none) (hs : dropCalls (b.at k).stack = []) :
    execLend s = .next (waitingLanes (updSplit (laneStart s e) c sl k (fun x => { x with stack := [] })) c sl k 0) := by
  subst he
  have hs' : dropCalls (laneEnv s c sl k g b 0#4 []).sp.stack = [] := hs
  refine (laneRun_ends h (r := waitSplits (laneEnv s c sl k g b 0#4 []) 0 _) ?_).trans rfl
  simp only [hw, hs', Option.isSome_none, Bool.false_eq_true, if_false]
  rfl
theorem execWide_waits (hw : e.block.wide = none) : execWide s = .next (waitingLanes (laneStart s e) c sl k 1) := by
  subst he
  refine (laneRun_ends h (r := waitSplits (laneEnv s c sl k g b 0#4 []) 1 _) ?_).trans rfl
  simp only [hw, Option.isSome_none, Bool.false_eq_true, if_false]
theorem execEndw_waits (hw : e.block.wide.isSome = true) : execEndw s = .next (waitingLanes (laneStart s e) c sl k 2) := by
  subst he
  exact (laneRun_ends h (r := waitSplits (laneEnv s c sl k g b 0#4 []) 2 _) (if_pos hw)).trans rfl
end
end

/-- Settles O40: each word by its split, and by the wide region that it stands in. -/
theorem laneCallsAndEnds : Obligations.LaneCallsAndEnds := by
  refine ⟨?calls, ?ends⟩
  case calls =>
    intro s c sl k g b w v top rest e d f pc goes
    exact ⟨execLcall_calls rfl, execLcall_none rfl, execLret_returns rfl, execLexit_leaves rfl⟩
  case ends =>
    intro s c sl k g b h d waits
    exact ⟨execLend_waits rfl h, execWide_waits rfl h, execEndw_waits rfl h⟩

end Sys2Proof.Machine
end

section
/-! O13: the words of snapshot regions, by where they find their region and their own operation. -/

namespace Sys2Proof.Machine
open Bits

/-! ## Fields of a record that hold no set bit -/

theorem ofBytes_eq_zero {l : List Byte} : ofBytes l = 0 ↔ ∀ b ∈ l, b = 0 := by
  induction l with
  | nil => simp [ofBytes]
  | cons b l ih =>
    have hb : b.toNat = 0 ↔ b = 0 := by simp [BitVec.toNat_eq]
    simp [ofBytes, ih, hb]
/-- A field within one that is 0 is 0. -/
theorem leAt_eq_zero_of_within {bs : List Byte} {o k o' k' : Nat} (h : leAt bs o k = 0) (ho : o ≤ o') (hk : o' + k' ≤ o + k) :
    leAt bs o' k' = 0 := by
  have hsub : (bs.drop o').take k' = (((bs.drop o).take k).drop (o' - o)).take k' := by
    rw [List.drop_take, List.drop_drop, List.take_take, Nat.add_sub_cancel' ho, Nat.min_eq_left (by omega)]
  refine ofBytes_eq_zero.2 fun b hb => ofBytes_eq_zero.1 h b ?_
  rw [hsub] at hb
  exact List.mem_of_mem_drop (List.mem_of_mem_take hb)

section
variable {s u : State} {c sl : Nat} {g : Group} {a : BitVec 6} {slot : Nat} {r : Region}

/-! ## Instructions at a region's record (R312, R313) -/

/-- A stream that waits for its own operation joins no place of the region (R313). -/
theorem joinRegion_ownRegion (st : StreamId) (trap : Bool) (slot : Nat) (s : State) : joinRegion st trap (ownRegion slot) s = s := by
  have hplace : roomPlace ≤ (slot % 256 + 256 * ownPlace) / 256 := by
    unfold roomPlace ownPlace
    omega
  exact if_pos hplace
/-- The first of those that have reached an idle region's record runs there, and leaves the line (R312). -/
theorem inTurn_first {body : State → Res} (hst : r.st = 0) (hfirst : firstAtRecord s r (recordPlace c sl g) = true) :
    inTurn c sl slot g r s body = body (leaveRegion s slot (recordPlace c sl g)) :=
  if_neg (by simp [hst, hfirst])

section
variable (hr : findRegion s (s.nbhdOf g).ctx ((g.reg a).toNat % 64) = some (slot, r)) {body : State → Nat → Region → Res}
include hr

theorem regionRun_first (ha : g.arrived = none) (hst : r.st = 0) (hfirst : firstAtRecord s r (recordPlace c sl g) = true) :
    regionRun a c sl g s body = body (leaveRegion s slot (recordPlace c sl g)) slot r := by
  have hnew : ¬g.arrived = some 2 := by simp [ha]
  simp only [regionRun, field_reg, hr, if_neg hnew, inTurn_first hst hfirst]
/-- An operation of one's own that the engine has ended leaves nothing to do (R313). -/
theorem regionRun_ended (ha : g.arrived = some 2) (hi : r.issuer ≠ some (c * 48 + sl, if g.trapMode then 1 else 0)) :
    regionRun a c sl g s body = .next s := by
  simp only [regionRun, field_reg, hr, if_pos ha]
  exact if_neg hi
end

/-- A group that has put a region in the state of its operation, and waits for the engine to end it (R313). -/
abbrev opStarted (s : State) (c sl slot : Nat) (g : Group) (st : Nat) : State :=
  ((s.updRegion slot (fun r => { r with st, issuer := some (c * 48 + sl, if g.trapMode then 1 else 0) })).updGroup c sl (fun x =>
    { x with arrived := some 2 })).updGroup c sl (fun x => { x with park := some ⟨11, ownRegion slot⟩ })
theorem endS_startOp (s : State) (c sl slot : Nat) (g : Group) (st len : Nat) :
    endS c sl len (startOp s c sl slot g (fun r => { r with st })) = opStarted s c sl slot g st := joinRegion_ownRegion ..

section
variable (h : ScalarTurn s c sl g false 0 [a.toNat])
  (hr : findRegion s (s.nbhdOf g).ctx ((g.reg a).toNat % 64) = some (slot, r))
include h hr

/-! ## Words whose operation has ended -/

section
variable (ha : g.arrived = some 2) (hi : r.issuer ≠ some (c * 48 + sl, if g.trapMode then 1 else 0))
include ha hi

theorem execSacc_ended : execSacc a s = .next (doneScalar s c sl 4) := scalarRun_next h (regionRun_ended hr ha hi)
theorem execSrej_ended (o : BitVec 5) : execSrej a o s = .next (doneScalar s c sl 4) := scalarRun_next h (regionRun_ended hr ha hi)
theorem execSsweep_ended : execSsweep a s = .next (doneScalar s c sl 4) := scalarRun_next h (regionRun_ended hr ha hi)
end

/-! ## Words that are first at the record of an idle region -/

section
variable (ha : g.arrived = none) (hst : r.st = 0) (hfirst : firstAtRecord s r (recordPlace c sl g) = true)
include ha hst hfirst

theorem execSnap_opens (hd : g.drained = true) (hf : (flushL1 c (leaveRegion s slot (recordPlace c sl g))).1 = true) (hdepth : r.depth < 7)
    (he : r.e ≠ 0xFFFF) :
    execSnap a s = .next (doneScalar ((flushL1 c (leaveRegion s slot (recordPlace c sl g))).2.updRegion slot
      (fun r => { r with e := r.e + 1, depth := r.depth + 1, levels := r.levels ++ [(r.e + 1, r.n)] })) c sl 4) := by
  refine scalarRun_next h ((regionRun_first hr ha hst hfirst).trans ?_)
  simp only [hd, hf, if_neg (Nat.ne_of_lt hdepth), if_neg he, Bool.not_true, Bool.false_eq_true, if_false]
theorem execSacc_empties (hdepth : r.depth = 1) :
    execSacc a s = .next (doneScalar ((leaveRegion s slot (recordPlace c sl g)).updRegion slot
      (fun r => { r with n := 0, depth := 0, levels := [], exhausted := false })) c sl 4) := by
  refine scalarRun_next h ((regionRun_first hr ha hst hfirst).trans ?_)
  simp only [hdepth, one_ne_zero, if_false, if_true]
theorem execSacc_merges (hdepth : 2 ≤ r.depth) :
    execSacc a s = .next (opStarted (leaveRegion s slot (recordPlace c sl g)) c sl slot g 2) := by
  have h0 : r.depth ≠ 0 := by omega
  have h1 : r.depth ≠ 1 := by omega
  rw [← endS_startOp _ c sl slot g 2 4]
  refine scalarRun_ends h ((regionRun_first hr ha hst hfirst).trans ?_)
  simp only [if_neg h0, if_neg h1]
theorem execSsweep_sweeps (hdepth : r.depth = 0) :
    execSsweep a s = .next (opStarted (leaveRegion s slot (recordPlace c sl g)) c sl slot g 3) := by
  rw [← endS_startOp _ c sl slot g 3 4]
  exact scalarRun_ends h ((regionRun_first hr ha hst hfirst).trans (if_neg (not_not.2 hdepth)))

/-- Whether a line of an L1 is one of a region's. -/
def lineInside (s : State) (slot line : Nat) : Bool := match regionAt s (line * 64) with
  | some (k, false, _) => k == slot
  | _ => false
theorem execSrej_rejects {o : BitVec 5} (hdepth : 1 ≤ r.depth) (hd : g.drained = true)
    (hu : releaseSteps (leaveRegion s slot (recordPlace c sl g)) c sl (if o = 0 then 0b11110 else o.toNat) = .ok u) :
    execSrej a o s = .next (opStarted (u.updCore c (fun k => { k with l1 := k.l1.keep (fun l _ => !lineInside u slot l) })) c sl slot g 1) := by
  have h0 : r.depth ≠ 0 := by omega
  rw [← endS_startOp _ c sl slot g 1 4]
  refine scalarRun_ends h ((regionRun_first hr ha hst hfirst).trans ?_)
  simp only [if_neg h0, hd, hu, Bool.not_true, Bool.false_eq_true, if_false]
  rfl
end
end

/-- SNAPDEF of no lines, whose descriptor is read here, removes an idle region of depth 0 (R311, R314). -/
theorem execSnapdef_removes {b : BitVec 6} {bs : List Byte} (h : ScalarTurn s c sl g false 0 [a.toNat, b.toNat])
    (hr : findRegion s (s.nbhdOf g).ctx ((g.reg a).toNat % 64) = some (slot, r)) (ha : g.arrived = none) (hst : r.st = 0)
    (hbs : readRecord (scalarIssuer s c sl g) (g.reg b).toNat 32 32 s = .ok u bs)
    (hfirst : firstAtRecord (keepRec bs c sl u) r (recordPlace c sl g) = true) (hlines : leAt bs 8 4 = 0) (hflags : leAt bs 24 8 = 0)
    (hdepth : r.depth = 0) :
    execSnapdef a b s = .next (doneScalar (removeRegion (leaveRegion (keepRec bs c sl u) slot (recordPlace c sl g)) slot) c sl 4) := by
  have hnew : ¬g.arrived = some 2 := by simp [ha]
  have hkept : keptRec g = none := by simp [keptRec, ha]
  have hgrow : leAt bs 24 4 = 0 := leAt_eq_zero_of_within hflags (by decide) (by decide)
  have hzero : leAt bs 28 4 = 0 := leAt_eq_zero_of_within hflags (by decide) (by decide)
  have hlegal : illegalRec bs = false := by simp [illegalRec, hlines, hgrow, hzero, bit_zero]
  refine scalarRun_next h ?_
  simp only [field_reg, if_neg hnew, hkept, hbs, hlegal, hr, inTurn_first hst hfirst, hgrow, hlines, hdepth, bit_zero, ne_eq, not_true_eq_false,
    Bool.false_eq_true, if_false]
end

/-- Settles O13: each word by the depth of the region that it finds idle, and the three operations of the engine by their start and end. -/
theorem snapshotWords : Obligations.SnapshotWords := by
  refine ⟨?atOnce, ?operations⟩
  case atOnce =>
    intro s u c sl g d a b slot r bs h
    have hd : ScalarTurn s c sl g false 0 [d.toNat, a.toNat] := h.mono (by simp)
    have ha : ScalarTurn s c sl g false 0 [a.toNat] := h.mono (by simp)
    refine ⟨scalarRun_putS hd rfl, fun hr harr hst => ?_⟩
    intro me v
    exact ⟨execSnap_opens ha hr harr hst, execSacc_empties ha hr harr hst, execSnapdef_removes (h.mono (by simp)) hr harr hst⟩
  case operations =>
    intro s u c sl g a o slot r h hr me started v inside
    refine ⟨fun harr hi => ?ended, fun harr hst hfirst => ?begun⟩
    case ended => exact ⟨execSacc_ended h hr harr hi, execSrej_ended h hr harr hi o, execSsweep_ended h hr harr hi⟩
    case begun =>
      exact ⟨execSacc_merges h hr harr hst hfirst, execSsweep_sweeps h hr harr hst hfirst, execSrej_rejects h hr harr hst hfirst⟩

end Sys2Proof.Machine
end

section
/-! O19: CTRADD, TICKET and CTRWAIT on a counter that exists. -/

namespace Sys2Proof.Machine
open Bits

section
variable {s : State} {c sl : Nat} {g : Group} {d a b : BitVec 6} {x : Nat}

/-- The counter that a register names. -/
abbrev counterOf (s : State) (g : Group) (a : BitVec 6) : Option Nat := counterAt s (s.nbhdOf g).part ((g.reg a).toNat % 2 ^ 32)
/-- A scalar word as a writer to a counter. -/
abbrev counterWriter (s : State) (c sl : Nat) (g : Group) : Who := (scalarIssuer s c sl g).who 255

section
variable (h : ScalarTurn s c sl g false 0 [a.toNat, b.toNat]) (hx : counterOf s g a = some x)
include h hx

/-! ## CTRADD (R359) -/

theorem execCtradd_adds (hp : inPool s x = false) :
    execCtradd a b 0 s = .next (doneScalar (counterAdd s (counterWriter s c sl g) x (g.reg b).toNat) c sl 4) := by
  refine scalarRun_next h ?_
  simp only [field_reg, hx, hp, Bool.false_eq_true, if_false, if_true]
theorem execCtradd_pool (o : BitVec 5) (hp : inPool s x = true) : execCtradd a b o s = .next (raise s c sl 0 0 true poolTrap) := by
  refine scalarRun_ends (r := .trap s poolTrap) h ?_
  simp only [field_reg, hx, hp, if_true]
theorem execCtradd_releases {u : State} {o : BitVec 5} (hp : inPool s x = false) (ho : o ≠ 0) (hu : releaseSteps s c sl o.toNat = .ok u) :
    execCtradd a b o s = .next (doneScalar
      (released (deposit (counterAdd u (counterWriter s c sl g) x (g.reg b).toNat) x (u.core c).sig) c sl) c sl 4) := by
  refine scalarRun_next h ?_
  simp only [field_reg, hx, hp, if_neg ho, hu, Bool.false_eq_true, if_false]

/-! ## CTRWAIT (R359) -/

section
variable (ha : g.arrived = none)
include ha

theorem execCtrwait_reached (hn : (g.reg b).toNat ≤ tableWord s x) : execCtrwait a b 0 s = .next (doneScalar s c sl 4) := by
  have hnew : ¬g.arrived = some 1 := by simp [ha]
  refine scalarRun_next h ?_
  simp only [field_reg, hx, if_neg hnew, if_neg (Nat.not_lt.2 hn), if_true]
theorem execCtrwait_parks (o : BitVec 5) (hn : tableWord s x < (g.reg b).toNat) :
    execCtrwait a b o s = .next (s.updGroup c sl (fun y =>
      { y with park := some ⟨11, .counter (s.nbhdOf g).part ((g.reg a).toNat % 2 ^ 32) (g.reg b).toNat⟩ })) := by
  have hnew : ¬g.arrived = some 1 := by simp [ha]
  refine scalarRun_ends (r := .park s 11 (.counter (s.nbhdOf g).part ((g.reg a).toNat % 2 ^ 32) (g.reg b).toNat)) h ?_
  simp only [field_reg, hx, if_neg hnew, if_pos hn]
end
end

/-! ## TICKET (R360) -/

section
variable (h : ScalarTurn s c sl g false 0 [d.toNat, a.toNat, b.toNat]) (hx : counterOf s g a = some x)
  (h1 : 1 ≤ (g.reg b).toNat) (hmax : (g.reg b).toNat ≤ 65536)
include h hx h1 hmax

theorem execTicket_takes (hp : inPool s x = false) :
    execTicket d a b s = .next (doneScalar (putS (counterAdd s (counterWriter s c sl g) x (g.reg b).toNat) c sl d (tableWord s x)) c sl 4) := by
  have hgood : ¬((g.reg b).toNat = 0 ∨ 65536 < (g.reg b).toNat) := by omega
  refine scalarRun_next h ?_
  simp only [field_reg, if_neg hgood, hx, hp, Bool.false_eq_true, if_false]
theorem execTicket_pool (hp : inPool s x = true) : execTicket d a b s = .next (raise s c sl 0 0 true poolTrap) := by
  have hgood : ¬((g.reg b).toNat = 0 ∨ 65536 < (g.reg b).toNat) := by omega
  refine scalarRun_ends (r := .trap s poolTrap) h ?_
  simp only [field_reg, if_neg hgood, hx, hp, if_true]
end
end

/-- Settles O19: each word by whether its counter lies in a shadow pool, and the wait by the counter's value. -/
theorem counterWords : Obligations.CounterWords := by
  intro s u c sl g d a b o x h hx who n
  have hab : ScalarTurn s c sl g false 0 [a.toNat, b.toNat] := h.mono (by simp)
  exact ⟨execCtradd_adds hab hx, fun hp => ⟨execCtradd_pool hab hx o hp, fun h1 hmax => execTicket_pool h hx h1 hmax hp⟩,
    execCtradd_releases hab hx, fun hp h1 hmax => execTicket_takes h hx h1 hmax hp, execCtrwait_reached hab hx, fun ha => execCtrwait_parks hab hx ha o⟩

end Sys2Proof.Machine
end

section
/-! O20: DIFFMAX, and the two forms of LAUNCH. -/

namespace Sys2Proof.Machine
open Bits

section
variable {s u : State} {c sl : Nat} {g : Group} {d a b : BitVec 6} {t : Stage}

/-- The word that DIFFMAX writes (R360). -/
def diffmaxWord : Option (Int × Nat) → Nat
  | none => 0
  | some (x, i) => 2 ^ 63 + x.toNat % 2 ^ 40 * 65536 + i
theorem execDiffmax_writes (h : ScalarTurn s c sl g true 0 [d.toNat, a.toNat, b.toNat]) :
    execDiffmax d a b s = .next (wroteScalar s c sl 4 d (BitVec.ofNat 64
      (diffmaxWord (bestStage s (s.nbhdOf g).part c ((g.reg a).toNat % 65536) ((g.reg b).toNat % 65536))))) := by
  rw [← doneScalar_putS]
  refine scalarRun_next h ?_
  simp only [field_reg]
  cases bestStage s (s.nbhdOf g).part c ((g.reg a).toNat % 65536) ((g.reg b).toNat % 65536) <;> rfl

/-! ## Launches (R352, R355, R361) -/

/-- The partition of an agent's group, and the stage that a register names in it. -/
abbrev agentPart (s : State) (g : Group) : Nat := (s.nbhdOf g).part
abbrev stageOf (s : State) (g : Group) (a : BitVec 6) : Option Stage :=
  (s.part? (agentPart s g)).bind (fun p => p.stages.get? ((g.reg a).toNat % 65536))

section
variable (h : ScalarTurn s c sl g true 0 [d.toNat, a.toNat, b.toNat])
include h

theorem execLaunch_unknown (hs : stageOf s g a = none) : execLaunch d a b s = .next (doneScalar (putS s c sl d 3) c sl 4) := by
  refine scalarRun_next h ?_
  simp only [field_reg, hs]
theorem execLaunchDirect_unknown (hs : stageOf s g a = none) : execLaunchDirect d a b s = .next (doneScalar (putS s c sl d 3) c sl 4) := by
  refine scalarRun_next h ?_
  simp only [field_reg, hs]

variable (hs : stageOf s g a = some t)
include hs

theorem execLaunch_noRoom (hroom : rectRoom s (agentPart s g) c c t = none) :
    execLaunch d a b s = .next (doneScalar (putS (freePlace s (agentPart s g) c) c sl d 1) c sl 4) := by
  refine scalarRun_next h ?_
  simp only [field_reg, hs, hroom]

theorem execLaunch_launches {cores : List (Nat × List Nat)} {q : Queue} {qid : Nat} (hroom : rectRoom s (agentPart s g) c c t = some cores)
    (hq : (waitsAt s (agentPart s g) c).or (pickQueue s (dieOf c) (agentPart s g) t) = some qid) (hqueue : queueOf s (agentPart s g) qid = some q) :
    execLaunch d a b s = .next (endS c sl 4
      (launchFrom s c sl (agentPart s g) ((g.reg a).toNat % 65536) qid d t q (g.reg b).toNat cores)) := by
  refine scalarRun_ends h ?_
  simp only [field_reg, hs, hroom, hq, hqueue]

/-! ## The direct form -/

section
variable {bs : List Byte} (hbs : readRecord (scalarIssuer s c sl g) (g.reg b).toNat 72 1 s = .ok u bs)
include hbs

theorem execLaunchDirect_noRoom (hroom : rectRoom u (agentPart s g) c c t = none) :
    execLaunchDirect d a b s = .next (doneScalar (putS u c sl d 1) c sl 4) := by
  refine scalarRun_next h ?_
  simp only [field_reg, hs, hbs, hroom]
/-- A launch that no request of the die asked for leaves the die's requests (R354, R362). -/
theorem execLaunchDirect_places {cores : List (Nat × List Nat)} (hroom : rectRoom u (agentPart s g) c c t = some cores)
    (hserved : servedRequest u (dieOf c) (agentPart s g) ((g.reg a).toNat % 65536) (pack 512 (bs.drop 8)) = none) :
    execLaunchDirect d a b s = .next (doneScalar (putS (place (u.updDie (dieOf c) (fun x => x)) (agentPart s g) c t
      { direct := true, ticket := leAt bs 0 8, arg := pack 512 (bs.drop 8) } cores none) c sl d 0) c sl 4) := by
  refine scalarRun_next h ?_
  simp only [field_reg, hs, hbs, hroom, hserved]
  rfl
end
end

/-! ## The records that a launch takes (R349, R352) -/

section
variable {part sid qid ticket : Nat} {q : Queue} {cores : List (Nat × List Nat)} (hready : dequeueReady s q c t = true)
include hready

theorem launchFrom_empty (hn : wanted s q.hdr t = 0) :
    launchFrom s c sl part sid qid d t q ticket cores = .next (putS (freePlace s part c) c sl d 2) := by
  simp only [launchFrom, hready, hn, Bool.not_true, Bool.false_eq_true, if_false, if_true]
/-- What the groups of a launch start from: the records of its queue, with the acquire of the header's line. -/
def queueSeeds (v : State) (q : Queue) (qid ticket : Nat) (recs : List (BitVec 512 × Nat)) : Seeds :=
  { direct := false, ticket, recs := recs.map (·.1), qid, head := (qhdr v q.hdr).head,
    acq := some (q.hdr / 64, if recs.any (fun x => Nat.testBit x.2 63) then 0b11110 else 0b11100) }
theorem launchFrom_places (hg : s.group? c sl = some g) (hn : wanted s q.hdr t ≠ 0) :
    let v := freePlace s part c
    let r := dequeue ((scalarIssuer s c sl g).who 255) v q.hdr (wanted s q.hdr t)
    launchFrom s c sl part sid qid d t q ticket cores =
      .next (putS (place r.2 part c t (queueSeeds v q qid ticket r.1) cores none) c sl d (256 * wanted s q.hdr t)) := by
  intro v r
  have hg' : (freePlace s part c).group? c sl = some g := hg
  simp only [launchFrom, hready, if_neg hn, hg', Bool.not_true, Bool.false_eq_true, if_false, Option.getD_some]
  rfl
end
end

/-- Settles O20: DIFFMAX by its best stage, and each form of LAUNCH by its stage, its rectangle and its records. -/
theorem launchWords : Obligations.LaunchWords := by
  refine ⟨?diffmax, ?launches⟩
  case diffmax =>
    intro s c sl g d a b h
    refine (execDiffmax_writes h).trans ?_
    unfold diffmaxWord
    rfl
  case launches =>
    intro s u c sl g d a b t q qid cores bs h part sid stage answers
    refine ⟨fun hs => ⟨execLaunch_unknown h hs, execLaunchDirect_unknown h hs⟩, fun hs => ⟨execLaunch_noRoom h hs, ?dequeuing, ?direct⟩⟩
    case dequeuing =>
      intro hroom hq hqueue hready n v r
      have hlaunch := execLaunch_launches h hs hroom hq hqueue
      refine ⟨fun hn => ?_, fun hn => ?_⟩
      · rw [launchFrom_empty hready hn] at hlaunch
        exact hlaunch
      · rw [launchFrom_places hready h.2.1 hn] at hlaunch
        exact hlaunch
    case direct =>
      exact fun hbs => ⟨execLaunchDirect_noRoom h hs hbs, execLaunchDirect_places h hs hbs⟩

end Sys2Proof.Machine
end

section
/-! O23: progress, trials, breakpoints and the lane TRAP. -/

namespace Sys2Proof.Machine
open Bits

section
variable {s : State} {c sl : Nat} {g : Group} {d a b : BitVec 6}

/-! ## The scalar stream -/

/-- The fields of a register as numbers. -/
theorem field_zero (n len : Nat) : field n 0 len = n % 2 ^ len := rfl
theorem field_upper {n lo len : Nat} (h : n < 2 ^ (lo + len)) : field n lo len = n / 2 ^ lo := by
  rw [field, Nat.shiftRight_eq_div_pow]
  exact Nat.mod_eq_of_lt (Nat.div_lt_of_lt_mul (by rwa [← pow_add]))

theorem execProg_counts (n : BitVec 3) (h : ScalarTurn s c sl g false 0 []) :
    execProg n s = .next (doneScalar (addProgress s (s.nbhdOf g).part n.toNat 1) c sl 4) := scalarRun_next h rfl
theorem execTrialon_starts (h : ScalarTurn s c sl g false 0 [a.toNat, b.toNat])
    (hx : (g.reg a).toNat % 2 ^ 32 ≤ (g.reg a).toNat / 2 ^ 32) (hy : (g.reg b).toNat < 2 ^ 17) :
    execTrialon a b s = .next (doneScalar ((trialMark s (s.nbhdOf g).part).updNbhd (s.blockOf g).nb (fun m =>
      { m with trial := some ⟨(g.reg a).toNat % 2 ^ 32, (g.reg a).toNat / 2 ^ 32, (g.reg b).toNat % 65536, Nat.testBit (g.reg b).toNat 16,
                              ((s.nbhdOf g).trial.map (·.start)).getD s.clock⟩ })) c sl 4) := by
  have hhi : field (g.reg a).toNat 32 32 = (g.reg a).toNat / 2 ^ 32 := field_upper (g.reg a).isLt
  have hgood : ¬((g.reg a).toNat / 2 ^ 32 < (g.reg a).toNat % 2 ^ 32 ∨ 2 ^ 17 ≤ (g.reg b).toNat) := by omega
  refine scalarRun_next h ?_
  simp only [field_reg, hhi, field_zero, if_neg hgood]
  rfl
theorem execTrialoff_ends (h : ScalarTurn s c sl g false 0 [d.toNat]) :
    execTrialoff d s = .next (doneScalar (putS ((trialMark s (s.nbhdOf g).part).updNbhd (s.blockOf g).nb (fun m => { m with trial := none })) c sl d
      (((s.nbhdOf g).trial.map (fun t => s.clock - t.start)).getD 0)) c sl 4) := scalarRun_next h rfl
theorem execBkpt_breaks (code : BitVec 5) (h : ScalarTurn s c sl g false 0 []) :
    execBkpt code s = .next (endS c sl 4 (breakpoint g code.toNat 0 s)) := scalarRun_ends h rfl
end

/-! ## The lane stream -/

section
variable {s : State} {c sl k : Nat} {g : Group} {b : LaneBlock} {w : L3} {e : LaneEnv} (he : laneEnv s c sl k g b w.prd [] = e)
  (h : LaneTurn s c sl k g b 0 w.prd [] [])
include he h

theorem execLaneProg_counts : execLaneProg w s = .next (doneLane (addProgress (laneStart s e) ((laneStart s e).nbhdOf e.g).part (w.aux.toNat % 8)
    (lanesOf (e.exec &&& e.keep)).length) c sl k) := by
  subst he
  exact laneRun_next h rfl
theorem execLaneBkpt_none (hm : e.exec &&& e.keep = 0) : execLaneBkpt w s = .next (doneLane (laneStart s e) c sl k) := by
  subst he
  exact laneRun_next h (if_pos hm)
theorem execLaneBkpt_stops (hm : e.exec &&& e.keep ≠ 0) (hd : debugging (laneStart s e) ((laneStart s e).nbhdOf e.g).part = true) :
    execLaneBkpt w s = .next (doneLane ((laneStart s e).updBlock e.g.block (fun x => { x with stopped := true, cause := 0x50 })) c sl k) := by
  subst he
  exact laneRun_next h ((if_neg hm).trans (if_pos hd))
theorem execLaneTrap_none (hm : e.exec &&& e.keep = 0) : execLaneTrap w s = .next (doneLane (laneStart s e) c sl k) := by
  subst he
  exact laneRun_next h (if_pos hm)
theorem execLaneTrap_traps (hm : e.exec &&& e.keep ≠ 0) : execLaneTrap w s = .next (raise (laneStart s e) c sl 1 k g.trapMode
    { cause := 0x7F, info := BitVec.ofNat 64 w.aux.toNat, mask := e.exec }) := by
  subst he
  exact laneRun_ends (r := .trap _ { cause := 0x7F, info := BitVec.ofNat 64 w.aux.toNat, mask := _ }) h (if_neg hm)
end

/-- Settles O23: each word of the scalar stream by what it changes, and each of the lanes by whether an executing lane is a keeper. -/
theorem observationWords : Obligations.ObservationWords := by
  refine ⟨?scalar, ?lanes⟩
  case scalar =>
    intro s c sl g d a b n code h nb x y
    have h0 : ScalarTurn s c sl g false 0 [] := h.mono (by simp)
    exact ⟨execProg_counts n h0, execTrialon_starts (h.mono (by simp)), execTrialoff_ends (h.mono (by simp)), execBkpt_breaks code h0⟩
  case lanes =>
    intro s c sl k g b w h e part
    exact ⟨execLaneProg_counts rfl h, fun hm => ⟨execLaneBkpt_none rfl h hm, execLaneTrap_none rfl h hm⟩, execLaneTrap_traps rfl h,
      execLaneBkpt_stops rfl h⟩

end Sys2Proof.Machine
end

section
/-! O14: entry into trap mode by the scalar stream, and TRAP. -/

namespace Sys2Proof.Machine
open Bits

/-! ## What the producers of a group leave (R215) -/

/-- What of a group no producer changes: all but its lane registers, its full/empty bits and its latches. -/
def Group.unproduced (g : Group) : Group := { g.bare with empty := [] }
theorem foldl_unproduced {α : Type} {f : Group → α → Group} (h : ∀ g x, (f g x).unproduced = g.unproduced) (l : List α) (g : Group) :
    (l.foldl f g).unproduced = g.unproduced := by
  induction l generalizing g with
  | nil => rfl
  | cons x l ih => exact (ih (f g x)).trans (h g x)
theorem unproduced_setV (g : Group) (r lane : Nat) (v : W32) : (g.setV r lane v).unproduced = g.unproduced := rfl
theorem unproduced_markFull (g : Group) (r : Nat) (m : W32) : (g.markFull r m).unproduced = g.unproduced := rfl
theorem unproduced_produce (g : Group) (x : Producer) : (g.produce x).unproduced = g.unproduced := by
  unfold Group.produce
  refine foldl_unproduced (fun g r => ?_) x.regs g
  exact (unproduced_markFull ..).trans (unproduced_setV ..)
/-- A group once all that is on its way to its registers has landed (R366). -/
def Group.landed (g : Group) : Group := g.prod.foldl Group.produce { g with prod := [] }
theorem unproduced_landed (g : Group) : g.landed.unproduced = ({ g with prod := [] } : Group).unproduced :=
  foldl_unproduced unproduced_produce g.prod _
theorem landed_spc (g : Group) : g.landed.spc = g.spc := (congrArg Group.spc (unproduced_landed g) :)
theorem landed_sregs (g : Group) : g.landed.sregs = g.sregs := (congrArg Group.sregs (unproduced_landed g) :)
theorem landed_preds (g : Group) : g.landed.preds = g.preds := (congrArg Group.preds (unproduced_landed g) :)
theorem landed_lb (g : Group) : g.landed.lb = g.lb := (congrArg Group.lb (unproduced_landed g) :)
theorem landed_dq (g : Group) : g.landed.dq = g.dq := (congrArg Group.dq (unproduced_landed g) :)

/-! ## Trap entry (R366) -/

/-- The group after a trap of its scalar stream has landed its producers. -/
def Group.trapped (g : Group) (st : Stage) (tvec : W64) (t : TrapInfo) : Group :=
  { g.landed with
    trapMode := true, tcause := BitVec.ofNat 64 t.cause, tpc := g.spc, tinfo := t.info, taddr := t.addr, tmask := t.mask.setWidth 64
    tstat := BitVec.ofNat 64 (16 + (if replayable t.cause then 32 else 0)), tssp := st.trapspill / 32
    latchA := none, latchB := none, latchC := none, ispc := g.spc, ipark := none, iarrived := none, arrived := none
    spc := tvec, park := none, tlb := none, ts := [] }

section
variable {s : State} {c sl : Nat} {g : Group} {t : TrapInfo}

/-- With nothing on its way, no load has to return (log 10). -/
theorem finishLocal_nothing (hway : NothingOnWay s c sl g) : finishLocal s c sl = s := by
  obtain ⟨hloads, _⟩ := hway
  refine if_neg ?_
  simpa using hloads
theorem loadsBack_nothing (hway : NothingOnWay s c sl g) : loadsBack s c sl = true := by
  obtain ⟨hloads, hreq, _⟩ := hway
  have hl : groupLines s c sl = [] := by
    have hnone : (s.core c).loads.filter (fun l => l.slot == sl) = [] := by simpa using hloads
    rw [groupLines, hnone]
    rfl
  have hr : s.requests.any (fun r => r.kind == 0 && r.strong && r.core == c && r.slot == sl && r.st == 0) = false := by
    simp only [List.any_eq_false, Bool.and_eq_true, beq_iff_eq]
    rintro r hr ⟨⟨⟨⟨hk, hs⟩, hc⟩, hsl⟩, hst⟩
    exact hreq r hr hk hs hc hsl hst
  rw [loadsBack, hl, hr]
  rfl
/-- A tile operation that is no lane read of the group on its way is none that the group waits for (R209). -/
theorem loads_eq_false {o : TileOp} (ho : o.st = 4 → ∀ k, o.strm ≠ .split c sl k) : o.loads c sl = false := by
  refine Bool.eq_false_iff.2 fun hl => ?_
  obtain ⟨hst, hstrm⟩ := Bool.and_eq_true_iff.1 hl
  split at hstrm
  · next c' sl' k hk =>
    obtain ⟨hc, hsl⟩ := Bool.and_eq_true_iff.1 hstrm
    exact ho (beq_iff_eq.1 hst) k (by rw [hk, beq_iff_eq.1 hc, beq_iff_eq.1 hsl])
  · cases hstrm

variable (hg : s.group? c sl = some g)
include hg

/-- Nor has a lane read to land (R209). -/
theorem landReads_nothing (hway : NothingOnWay s c sl g) : landReads s c sl = s := by
  obtain ⟨_, _, hops⟩ := hway
  unfold landReads
  simp only [hg]
  cases hn : s.nbhd? (s.blockOf g).nb with
  | none => rfl
  | some n =>
    have hnone : n.ops.filter (TileOp.loads c sl) = [] :=
      List.filter_eq_nil_iff.2 fun o ho => Bool.eq_false_iff.1 (loads_eq_false (hops n hn o ho))
    exact congrArg (List.foldl _ s) hnone

theorem enterTrap_scalar (hv : (s.ctx (s.nbhdOf g).ctx).tvec ≠ 0) :
    enterTrap s c sl 0 0 t = s.setGroup c sl (g.trapped (s.nbhdOf g).stage (s.ctx (s.nbhdOf g).ctx).tvec t) := by
  have hspc : (g.prod.foldl Group.produce { g with prod := [] }).spc = g.spc := landed_spc g
  simp only [enterTrap, hg, if_neg hv, hspc]
  rfl

/-- A trap of a group outside trap mode that nothing holds up is taken at once. -/
theorem raise_enters (hway : NothingOnWay s c sl g) (hsl : sl ≠ Config.agentSlot) (hm : g.trapMode = false)
    (hv : (s.ctx (s.nbhdOf g).ctx).tvec ≠ 0) :
    raise s c sl 0 0 true t = s.setGroup c sl (g.trapped (s.nbhdOf g).stage (s.ctx (s.nbhdOf g).ctx).tvec t) := by
  rw [← enterTrap_scalar hg hv]
  simp only [raise, hg, if_neg hsl, Bool.false_and, Bool.false_eq_true, if_false, trapOrPend, hm, finishLocal_nothing hway,
    loadsBack_nothing hway, landReads_nothing hg hway, if_true]
end

theorem execTrap_traps {s : State} {c sl : Nat} {g : Group} {a : BitVec 6} (k : BitVec 5) (h : ScalarTurn s c sl g false 0 [a.toNat]) :
    execTrap a k s = .next (raise s c sl 0 0 true { cause := 0x7F, info := k.setWidth 64, addr := g.reg a }) := by
  refine scalarRun_ends (r := .trap s { cause := 0x7F, info := k.setWidth 64, addr := g.reg a }) h ?_
  rw [field_reg, BitVec.ofNat_toNat, BitVec.setWidth_eq]

/-- Settles O14: the trap is taken at once, and leaves of its group what no producer and no trap register is. -/
theorem trapEntry : Obligations.TrapEntry := by
  refine ⟨?entry, ?word⟩
  case entry =>
    intro s c sl g t hg hsl hm hway hv u p
    have hu : u = s.setGroup c sl (g.trapped (s.nbhdOf g).stage (s.ctx (s.nbhdOf g).ctx).tvec t) := raise_enters hg hway hsl hm hv
    refine ⟨hu, landed_sregs g, landed_preds g, landed_lb g, landed_dq g, ?_⟩
    rw [hu]
    exact ⟨rfl, rfl, rfl⟩
  case word =>
    intro s c sl g a k h hsl hm hway hv
    have hg : s.group? c sl = some g := h.2.1
    refine ⟨_, _, (execTrap_traps k h).trans (congrArg Host.Outcome.next (raise_enters hg hway hsl hm hv)), group?_setGroup .., ?_⟩
    exact ⟨rfl, rfl, rfl, rfl, rfl, rfl, landed_sregs g⟩

end Sys2Proof.Machine
end

section
/-! O15: RFT and RFT.skip, and their trap outside trap mode. -/

namespace Sys2Proof.Machine
open Bits

section
variable {s : State} {c sl : Nat} {g : Group}

theorem rftRun_returns (skip : Bool) (h : ScalarTurn s c sl g false 0 []) (hm : g.trapMode = true) (hb : g.tlb = none) :
    rftRun skip s = .next (settleLanes (returnTrap s c sl skip (scalarLength s c sl g g.tpc)) c sl) := by
  refine scalarRun_ends (r := .stay (settleLanes (returnTrap s c sl skip (scalarLength s c sl g g.tpc)) c sl)) h ?_
  simp only [hm, hb, Bool.not_true, Option.isSome_none, Bool.false_eq_true, if_false]
theorem rftRun_outside (skip : Bool) (h : ScalarTurn s c sl g false 0 []) (hm : g.trapMode = false) :
    rftRun skip s = .next (raise s c sl 0 0 true (illegal 4)) := by
  refine scalarRun_ends (r := .trap s (illegal 4)) h ?_
  simp only [hm, Bool.not_false, if_true]

/-! ## Returns by their source (R371, Table 17-3) -/

/-- The group after a return, with its interrupted context back in place. -/
def Group.returned (g : Group) : Group :=
  { g with
    trapMode := false, ts := [], tssp := 0, tspill := [], tlb := none, latchA := none, latchB := none, latchC := none
    spc := g.ispc, park := g.ipark, ipark := none, arrived := g.iarrived, iarrived := none, tstat := g.tstat &&& ~~~0x10 }
theorem returnTrap_scalar (skip : Bool) (len : Nat) (hg : s.group? c sl = some g) (hsrc : g.tstat.toNat % 4 = 0) :
    returnTrap s c sl skip len =
      s.setGroup c sl { g.returned with spc := if skip then g.tpc + BitVec.ofNat 64 len else g.tpc, park := none } := by
  simp only [returnTrap, hg, hsrc]
  rfl
/-- The split of a lane trap that replays, with the lanes that it goes on with. -/
def Split.replayed (x : Split) (g : Group) : Split :=
  { x with pc := g.tpc.setWidth 32, unfinished := some (g.tmask.setWidth 32), park := none }
theorem returnTrap_replays (len : Nat) {b : LaneBlock} (hg : s.group? c sl = some g) (hsrc : g.tstat.toNat % 4 = 1)
    (hrep : g.tstat.getLsbD 5 = true) (hb : g.lb = some b) :
    returnTrap s c sl false len = s.setGroup c sl { g.returned with lb := some (b.set (g.tstat.toNat / 4 % 4)
      ((b.at (g.tstat.toNat / 4 % 4)).replayed g)) } := by
  have hpc : g.tpc.setWidth 32 + (0 : W32) = g.tpc.setWidth 32 := BitVec.add_zero _
  simp only [returnTrap, hg, hsrc, hrep, hb, Option.map_some, Bool.not_false, Bool.and_true, Bool.false_eq_true, if_false, if_true, hpc]
  rfl
end

/-- Settles O15: in trap mode by the source of the trap, and outside it by the trap that RFT takes. -/
theorem returnFromTrap : Obligations.ReturnFromTrap := by
  refine ⟨?inside, ?outside⟩
  case inside =>
    intro s c sl g h hm hb
    have hg : s.group? c sl = some g := h.2.1
    refine ⟨rftRun_returns false h hm hb, rftRun_returns true h hm hb, fun hsrc skip len => returnTrap_scalar skip len hg hsrc,
      fun hsrc hrep b len hlb => ?_⟩
    rw [returnTrap_replays len hg hsrc hrep hlb]
    exact ⟨_, _, group?_setGroup .., rfl, rfl, rfl, rfl⟩
  case outside =>
    intro s c sl g h hm
    exact ⟨rftRun_outside false h hm, rftRun_outside true h hm⟩

end Sys2Proof.Machine
end

section
/-! O16: SYSR and SYSW by what Table 17-8 says of their register, and the privileged words of other groups than the agent's. -/

namespace Sys2Proof.Machine
open Bits

/-! ## The traps of Table 17-8 (R375) -/

theorem sysTrap_unlisted {n : Nat} (sl : Nat) (tm write : Bool) (h : sysKind n = none) : sysTrap n sl tm write = some (illegal 4) := by
  rw [sysTrap, h]
/-- The numbers below 16 are of trap registers, or of none. -/
theorem sysKind_trapRegister : ∀ n < 16, (sysKind n).all (·.trapOnly) = true := by decide
theorem sysTrap_outside {n : Nat} (sl : Nat) (write : Bool) (hn : n < 16) : sysTrap n sl false write = some (illegal 4) := by
  have hk := sysKind_trapRegister n hn
  unfold sysTrap
  cases h : sysKind n with
  | none => rfl
  | some k =>
    rw [h] at hk
    have htrap : k.trapOnly = true := hk
    simp only [htrap, Bool.not_false, Bool.and_self, Bool.true_or, if_true]
theorem sysTrap_readOnly {n : BitVec 11} (sl : Nat) (tm : Bool) (hn : n = 0x021 ∨ n = 0x000 ∨ n = 0x005) :
    sysTrap n.toNat sl tm true = some (illegal 4) := by
  rcases hn with rfl | rfl | rfl
  · rfl
  · cases tm <;> rfl
  · cases tm <;> rfl
section
variable {n : BitVec 11} {sl : Nat} (tm : Bool) (hsl : sl ≠ Config.agentSlot)
include hsl

/-- A register that is no trap register, and whose access is privileged. -/
theorem sysTrap_privileged {write : Bool} {k : SysKind} (hk : sysKind n.toNat = some k) (ht : k.trapOnly = false) (hro : k.ro = false)
    (hp : (if write then k.privW else k.privR) = true) : sysTrap n.toNat sl tm write = some { cause := 3 } := by
  have hother : (sl != Config.agentSlot) = true := bne_iff_ne.2 hsl
  simp only [sysTrap, hk, ht, hro, hp, hother, Bool.false_and, Bool.or_self, Bool.and_self, Bool.false_eq_true, if_false, if_true]
theorem sysTrap_privW (hn : n = 0x010 ∨ n = 0x030 ∨ n = 0x044 ∨ n = 0x045) : sysTrap n.toNat sl tm true = some { cause := 3 } := by
  have hk : sysKind n.toNat = some { privW := true } := by rcases hn with rfl | rfl | rfl | rfl <;> rfl
  exact sysTrap_privileged tm hsl hk rfl rfl rfl
theorem sysTrap_privRW (write : Bool) (hn : n = 0x040 ∨ n = 0x041 ∨ n = 0x042 ∨ n = 0x043) :
    sysTrap n.toNat sl tm write = some { cause := 3 } := by
  have hk : sysKind n.toNat = some { privR := true, privW := true } := by rcases hn with rfl | rfl | rfl | rfl <;> rfl
  exact sysTrap_privileged tm hsl hk rfl rfl (by cases write <;> rfl)
end

/-! ## SYSR and SYSW -/

section
variable {s : State} {c sl : Nat} {g : Group} {r : BitVec 6} {n : BitVec 11} (h : ScalarTurn s c sl g false 0 [r.toNat])
include h

theorem execSysr_reads (ht : sysTrap n.toNat sl g.trapMode false = none) :
    execSysr r n s = .next (wroteScalar s c sl 4 r (BitVec.ofNat 64 (sysValue s c g n.toNat))) := by
  refine scalarRun_putS h ?_
  simp only [ht]
theorem execSysr_traps {t : TrapInfo} (ht : sysTrap n.toNat sl g.trapMode false = some t) : execSysr r n s = .next (raise s c sl 0 0 true t) := by
  refine scalarRun_ends (r := .trap s t) h ?_
  simp only [ht]
theorem execSysw_traps {t : TrapInfo} (ht : sysTrap n.toNat sl g.trapMode true = some t) : execSysw r n s = .next (raise s c sl 0 0 true t) := by
  refine scalarRun_ends (r := .trap s t) h ?_
  simp only [ht]
theorem execSysw_writes (ht : sysTrap n.toNat sl g.trapMode true = none) (ha : g.arrived = none) (hn : n ≠ 0x043) :
    execSysw r n s = .next (doneScalar (sysWrite s c sl g n.toNat (g.reg r)) c sl 4) := by
  refine scalarRun_next h ?_
  simp only [ht, ha, hn, field_reg, BitVec.ofNat_toNat, BitVec.setWidth_eq, false_and, if_false, reduceCtorEq]

/-! ## A write of RLWAYS by the firmware agent (R125) -/

section
variable (hsl : sl = Config.agentSlot)
include hsl

/-- Whether a line of the remote-line partition of a core's die is sent and not yet placed. -/
abbrev linesAway (t : State) (c : Nat) : Bool := t.requests.any (fun q => q.kind == 2 && q.st == 0 && q.slot == 48 && dieOf q.core == dieOf c)
theorem execSysw_rlways (ha : g.arrived ≠ some 1) : execSysw r 0x043 s = .next (endS c sl 4 (
    if linesAway (sysWrite s c sl g 0x043 (g.reg r)) c = true
    then .park ((sysWrite s c sl g 0x043 (g.reg r)).updGroup c sl (fun x => { x with arrived := some 1 })) 11 (.invalidation c true)
    else .next (sysWrite s c sl g 0x043 (g.reg r)))) := by
  have ht : sysTrap (0x043 : BitVec 11).toNat sl g.trapMode true = none := by
    rw [hsl]
    rfl
  refine scalarRun_ends h ?_
  simp only [ht, if_neg ha, field_reg, BitVec.ofNat_toNat, BitVec.setWidth_eq, true_and]
  rfl
theorem execSysw_rlwaysPlaced (ha : g.arrived ≠ some 1) (hp : linesAway (sysWrite s c sl g 0x043 (g.reg r)) c = false) :
    execSysw r 0x043 s = .next (doneScalar (sysWrite s c sl g 0x043 (g.reg r)) c sl 4) := by
  rw [execSysw_rlways h hsl ha, if_neg (Bool.eq_false_iff.1 hp), endS]
theorem execSysw_rlwaysParks (ha : g.arrived ≠ some 1) (hp : linesAway (sysWrite s c sl g 0x043 (g.reg r)) c = true) :
    execSysw r 0x043 s = .next (((sysWrite s c sl g 0x043 (g.reg r)).updGroup c sl (fun x => { x with arrived := some 1 })).updGroup c sl
      (fun x => { x with park := some ⟨11, .invalidation c true⟩ })) := by
  rw [execSysw_rlways h hsl ha, if_pos hp]
  rfl
theorem execSysw_rlwaysAgain (ha : g.arrived = some 1) : execSysw r 0x043 s = .next (doneScalar s c sl 4) := by
  have ht : sysTrap (0x043 : BitVec 11).toNat sl g.trapMode true = none := by
    rw [hsl]
    rfl
  refine scalarRun_next h ?_
  simp only [ht, if_pos ha]
end
end

/-- A privileged word of another group than the firmware agent traps before its registers are looked at (R33, R366). -/
theorem scalarRun_privileged {s : State} {c sl : Nat} {g : Group} (ht : s.turn = .scalar c sl) (hg : s.group? c sl = some g)
    (hsl : sl ≠ Config.agentSlot) (deny len : Nat) (regs : List Nat) (body : Nat → Nat → Group → Res) :
    scalarRun true deny len regs body s = .next (raise s c sl 0 0 true { cause := 3 }) := by
  have hother : (true && sl != Config.agentSlot) = true := bne_iff_ne.2 hsl
  simp only [scalarRun, ht, hg, if_pos hother]
  rfl

/-- Settles O16: the registers by the row of Table 17-8, RLWAYS by the lines that it removes, and the privileged words by their slot. -/
theorem systemRegisters : Obligations.SystemRegisters := by
  refine ⟨?granted, ?refused, ?privileged⟩
  case granted =>
    intro s c sl g r n h
    refine ⟨execSysr_reads h, execSysw_writes h, fun hsl => ?_⟩
    intro t away
    exact ⟨execSysw_rlwaysPlaced h hsl, execSysw_rlwaysParks h hsl, execSysw_rlwaysAgain h hsl⟩
  case refused =>
    intro s c sl g r n h bad priv
    refine ⟨fun hk => ⟨execSysr_traps h (sysTrap_unlisted _ _ _ hk), execSysw_traps h (sysTrap_unlisted _ _ _ hk)⟩,
      fun hn => execSysw_traps h (sysTrap_readOnly _ _ (.inl hn)), fun hn => execSysw_traps h (sysTrap_readOnly _ _ (.inr hn)), fun hn hm => ?_,
      fun hn hsl => execSysw_traps h (sysTrap_privW _ hsl hn),
      fun hn hsl => ⟨execSysr_traps h (sysTrap_privRW _ hsl false hn), execSysw_traps h (sysTrap_privRW _ hsl true hn)⟩⟩
    have ht (write : Bool) : sysTrap n.toNat sl g.trapMode write = some (illegal 4) := hm ▸ sysTrap_outside sl write hn
    exact ⟨execSysr_traps h (ht false), execSysw_traps h (ht true)⟩
  case privileged =>
    intro s c sl g d a b ht hg hsl priv
    have htraps := scalarRun_privileged ht hg hsl 0 4
    exact ⟨htraps _ _, htraps _ _, htraps _ _, htraps _ _, htraps _ _, htraps _ _, htraps _ _, htraps _ _, htraps _ _⟩

end Sys2Proof.Machine
end

section
/-! What a write, a write-back and the restore of an area leave alone: the input and the clock that a step reads. -/

namespace Sys2Proof.Machine
open Bits

/-- The state that a write at its home slice leaves. -/
def WRes.state : WRes → State
  | .done s | .poolPage s | .noRoom _ s | .waits _ s => s

variable (s : State)

/-! ## What a write leaves alone: it changes bytes, lines of the home slices, trace rings of partitions and watch marks of blocks -/

section
variable {β : Type} {π : State → β} (hpoke : ∀ s l, π (State.poke s l) = π s)
include hpoke

theorem ringPut_keeps (r : Ring) (rec : List Byte) : π (ringPut s r rec).1 = π s := by
  unfold ringPut
  split
  · rfl
  · exact hpoke ..

variable (hpart : ∀ s p f, π (State.updPart s p f) = π s) (hblock : ∀ s b f, π (State.updBlock s b f) = π s)
include hpart hblock

theorem traceOne_keeps (old : List Host.Cell) (w : Who) (l : List (Nat × Byte)) (p : Nat) (wr : Nat × Nat × Nat × Nat) :
    π (traceOne old w l p s wr) = π s := by
  have hput (u : State) (r : Ring) (rec : List Byte) : π (ringPut u r rec).1 = π u := ringPut_keeps u hpoke r rec
  unfold traceOne
  dsimp only
  split
  · split
    · split
      · refine (hblock ..).trans (foldl_keeps (π := π) (fun u a => ?_) _ _)
        split
        · rfl
        · exact (hpart ..).trans (hput ..)
      · refine foldl_keeps (π := π) (fun u a => ?_) _ _
        split
        · rfl
        · exact (hpart ..).trans (hput ..)
    · split
      · exact hblock ..
      · rfl
  · split
    · refine foldl_keeps (π := π) (fun u a => ?_) _ _
      split
      · rfl
      · exact (hpart ..).trans (hput ..)
    · rfl
theorem perform_keeps (hdie : ∀ s d f, π (State.updDie s d f) = π s) (w : Who) (l : List (Nat × Byte)) : π (s.perform w l) = π s := by
  have htraced (u : State) (p : Nat) (wr : Nat × Nat × Nat × Nat) : π (traceOne s.mem w l p u wr) = π u :=
    traceOne_keeps u hpoke hpart hblock ..
  have hwrote (t : State) : π (l2Wrote t l) = π t := by
    unfold l2Wrote updL2
    refine foldl_keeps (π := π) ?_ _ _
    exact fun _ _ => hdie ..
  unfold State.perform
  refine (foldl_keeps (π := π) ?_ _ _).trans ((hwrote _).trans (hpoke ..))
  intro t p
  refine foldl_keeps (π := π) ?_ _ _
  exact fun u wr => htraced u p.1 wr
end

theorem clock_perform (w : Who) (l : List (Nat × Byte)) : (s.perform w l).clock = s.clock :=
  perform_keeps s (fun _ _ => rfl) (fun _ _ _ => rfl) (fun _ _ _ => rfl) (fun _ _ _ => rfl) w l
theorem input_perform (w : Who) (l : List (Nat × Byte)) : (s.perform w l).input = s.input :=
  perform_keeps s (fun _ _ => rfl) (fun _ _ _ => rfl) (fun _ _ _ => rfl) (fun _ _ _ => rfl) w l
theorem clock_leavePlaces (w : SliceParty) : (leavePlaces s w).clock = s.clock := by
  unfold leavePlaces
  split <;> rfl
theorem clock_joinPlace (k : Nat) (w : SliceParty) (pc : Nat) : (joinPlace k w pc s).clock = s.clock := by
  unfold joinPlace
  split
  · rfl
  · exact clock_leavePlaces ..
theorem clock_exhaust (slot : Nat) : (exhaust s slot).clock = s.clock := by
  unfold exhaust
  split
  · rfl
  · split <;> rfl
theorem clock_homeAt (me : SliceParty → Bool) (w : Who) (pa : Nat) (l : List (Nat × Byte)) : (homeAt me w pa l s).state.clock = s.clock := by
  unfold homeAt
  split
  · exact clock_perform ..
  · rfl
  · split
    · rfl
    · split
      · split
        · rfl
        · exact clock_perform ..
      · exact clock_perform ..
theorem clock_homeWrite (me : SliceParty → Bool) (w : Who) (l : List (Nat × Byte)) : (homeWrite me w l s).state.clock = s.clock := by
  unfold homeWrite
  split
  · rfl
  · exact clock_homeAt ..
theorem clock_homeWrites (me : SliceParty → Bool) (l : List (Who × List (Nat × Byte))) : (homeWrites me l s).state.clock = s.clock := by
  induction l generalizing s with
  | nil => rfl
  | cons x xs ih =>
    have hx := clock_homeWrite s me x.1 x.2
    unfold homeWrites
    split
    · next e => exact (ih _).trans (by simpa [e, WRes.state] using hx)
    · exact hx
theorem clock_writeBack (c line : Nat) : (writeBack c line s).2.clock = s.clock := by
  unfold writeBack
  split
  · rfl
  · next l _ =>
    split
    · rfl
    · have hw := clock_homeWrites s (· == .writeBack c line) (byWriter line l)
      dsimp only
      split
      · next e =>
        rw [e] at hw
        refine (updCore_clock ..).trans ((clock_leavePlaces ..).trans ?_)
        split <;> exact hw
      · next e =>
        rw [e] at hw
        exact hw
      · next e =>
        rw [e] at hw
        exact (clock_exhaust ..).trans ((clock_leavePlaces ..).trans hw)
      · next e =>
        rw [e] at hw
        exact (clock_joinPlace ..).trans hw
theorem clock_stripLine (c line : Nat) : (stripLine c s line).clock = s.clock := by
  have hw := clock_writeBack s c line
  simp only [stripLine, invalidateLine]
  split <;> split <;> exact hw
theorem clock_purgeL1 (c : Nat) : (purgeL1 c s).clock = s.clock := by
  unfold purgeL1
  exact foldl_keeps (π := State.clock) (fun t k => clock_stripLine t c k) _ _
theorem clock_sendLine (die key : Nat) : (sendLine s die key).clock = s.clock := by
  unfold sendLine
  split
  · rfl
  · split <;> rfl
theorem clock_purgePartition (die : Nat) : (purgePartition die s).clock = s.clock := by
  unfold purgePartition
  exact foldl_keeps (π := State.clock) (fun t k => clock_sendLine t die k) _ _
theorem clock_packAllocs (c base : Nat) (l : List (Nat × Nat × Nat)) : (packAllocs c base l s).clock = s.clock := by
  induction l generalizing base s with
  | nil => rfl
  | cons x l ih =>
    refine (ih _ _).trans ?_
    unfold moveAlloc
    split <;> rfl
theorem clock_takeBase (c n : Nat) : (takeBase s c n).2.clock = s.clock := by
  unfold takeBase
  split
  · rfl
  · exact clock_packAllocs ..
theorem clock_rename (r : Renaming) (copies : List Nat) : (rename s r copies).clock = s.clock := rfl
theorem clock_restoreBlock (v : Saved) (x : (Nat × Block) × Nat × List Nat) : (restoreBlock v s x).clock = s.clock := by
  unfold restoreBlock
  refine Eq.trans ?_ (clock_takeBase s x.2.1 v.nb.stage.alloc)
  simp only [clock_rename, updCore_clock, apply_ite State.clock, joinSig, ite_self]
  refine (foldl_keeps (π := State.clock) ?_ _ _).trans (foldl_keeps (π := State.clock) ?_ _ _) <;> exact fun _ _ => rfl
theorem clock_restoreNow (v : Saved) (anchor : Nat) (cores : List (Nat × List Nat)) : (restoreNow s v anchor cores).clock = s.clock := by
  unfold restoreNow
  refine (foldl_keeps (π := State.clock) (fun t y => (clock_purgePartition ..).trans (clock_purgeL1 ..)) _ _).trans ?_
  refine foldl_keeps (π := State.clock) (fun t b => ?_) _ _
  split
  · exact clock_restoreBlock ..
  · rfl
theorem clock_restoreArea (part area : Nat) (t : Stage) (anchor : Nat) (cores : List (Nat × List Nat)) :
    (restoreArea s part area t anchor cores).2.clock = s.clock := by
  unfold restoreArea
  split <;> exact clock_restoreNow ..

end Sys2Proof.Machine
end

section
/-! O17: PREQ, PREQ.rst and HALT, by the request that is under way and by what their words name. -/

namespace Sys2Proof.Machine
open Bits

section
variable {s : State} {c sl : Nat} {g : Group} {d a b : BitVec 6}

/-- A privileged word that answers a number and does nothing else. -/
theorem scalarRun_status {n len : Nat} {regs : List Nat} {body : Nat → Nat → Group → Res} (h : ScalarTurn s c sl g true 0 regs)
    (hb : body c sl g = .next (putS s c sl d n)) :
    scalarRun true 0 len regs body s = .next (wroteScalar s c sl len d (BitVec.ofNat 64 n)) := by
  rw [scalarRun_next h hb, doneScalar_putS]

section
variable (h : ScalarTurn s c sl g true 0 [d.toNat, a.toNat, b.toNat])
include h

/-! ## A request that is under way (R378) -/

theorem execPreq_saved {o : SaveOp} (ho : ownSave s c sl = some o) (hd : o.done = true) :
    execPreq d a b s = .next (doneScalar (putS (dropSave s o.id) c sl d (2 ^ 32 * o.bytes + (if o.full then 256 else 0))) c sl 4) := by
  refine scalarRun_next h ?_
  simp only [ho, hd, if_true]
theorem execPreqRst_restored {o : SaveOp} (ho : ownSave s c sl = some o) (hr : restoring s o.nb = false) :
    execPreqRst d a b s = .next (doneScalar (putS ((dropSave s o.id).updNbhd o.nb (fun n => { n with saving := false })) c sl d 0) c sl 4) := by
  refine scalarRun_next h ?_
  simp only [ho, hr, Bool.false_eq_true, if_false]

/-! ## New requests -/

variable (hnew : ownSave s c sl = none) (hb : (g.reg b).toNat % 256 = 0)
include hnew hb

section
variable (ha : anchorBad (g.reg a).toNat = false)
include ha

theorem execPreq_refused {st : Nat} (hst : anchorNb s (g.reg a).toNat = .error st) :
    execPreq d a b s = .next (wroteScalar s c sl 4 d (BitVec.ofNat 64 st)) := by
  refine scalarRun_status h ?_
  simp only [hnew, field_reg, ha, hb, hst, ne_eq, not_true_eq_false, Bool.false_eq_true, if_false]
theorem execPreq_starts {nb : Nat} (hnb : anchorNb s (g.reg a).toNat = .ok nb) (hs : nbStopped s nb = false) :
    let o : SaveOp := { id := s.newId.1, core := c, slot := sl, nb, anchor := (g.reg a).toNat, area := (g.reg b).toNat, since := s.clock }
    let u := s.newId.2.updNbhd nb (fun n => { n with saving := true })
    execPreq d a b s = .next ({ u with saveOps := s.saveOps ++ [o] }.updGroup c sl (fun x => { x with park := some ⟨11, .save o.id⟩ })) := by
  intro o u
  refine scalarRun_ends (r := .park { u with saveOps := s.saveOps ++ [o] } 11 (.save o.id)) h ?_
  simp only [hnew, field_reg, ha, hb, hnb, hs, ne_eq, not_true_eq_false, Bool.false_eq_true, if_false]
  rfl
end

section
variable {part : Nat} (hpart : (s.nbhdOf g).part = part)
include hpart

theorem execPreqRst_unknown (ht : areaStage s part (g.reg b).toNat = none) : execPreqRst d a b s = .next (wroteScalar s c sl 4 d 4) := by
  refine scalarRun_status h ?_
  simp only [hnew, field_reg, hb, hpart, ht, ne_eq, not_true_eq_false, if_false]

variable {t : Stage} (ht : areaStage s part (g.reg b).toNat = some t)
include ht

theorem execPreqRst_noRoom (hr : rectRoom s part c ((g.reg a).toNat % 512) t = none) : execPreqRst d a b s = .next (wroteScalar s c sl 4 d 1) := by
  refine scalarRun_status h ?_
  simp only [hnew, field_reg, hb, hpart, ht, hr, ne_eq, not_true_eq_false, if_false]
theorem execPreqRst_starts {cores : List (Nat × List Nat)} (hr : rectRoom s part c ((g.reg a).toNat % 512) t = some cores) :
    let r := restoreArea s part (g.reg b).toNat t ((g.reg a).toNat % 512) cores
    let o : SaveOp := { id := r.2.newId.1, core := c, slot := sl, nb := r.1, anchor := (g.reg a).toNat, area := (g.reg b).toNat, since := s.clock,
                        restore := true }
    let u := { r.2.newId.2 with saveOps := r.2.newId.2.saveOps ++ [o] }
    execPreqRst d a b s = .next (u.updGroup c sl (fun x => { x with park := some ⟨11, .save o.id⟩ })) := by
  intro r o u
  have hclock : r.2.newId.2.clock = s.clock := clock_restoreArea ..
  refine scalarRun_ends (r := .park u 11 (.save o.id)) h ?_
  simp only [hnew, field_reg, hb, hpart, ht, hr, ne_eq, not_true_eq_false, if_false]
  simp only [u, o, ← hclock]
  rfl
end
end

/-! ## HALT (R379) -/

section
variable (h : ScalarTurn s c sl g true 0 [d.toNat, a.toNat]) (ha : anchorBad (g.reg a).toNat = false)
include h ha

theorem execHalt_ends {nb : Nat} (hnb : anchorNb s (g.reg a).toNat = .ok nb) :
    execHalt d a s = .next (doneScalar (putS (removeNb s nb) c sl d 0) c sl 4) := by
  refine scalarRun_next h ?_
  simp only [field_reg, ha, hnb, Bool.false_eq_true, if_false]
theorem execHalt_refused {st : Nat} (hst : anchorNb s (g.reg a).toNat = .error st) :
    execHalt d a s = .next (wroteScalar s c sl 4 d (BitVec.ofNat 64 st)) := by
  refine scalarRun_status h ?_
  simp only [field_reg, ha, hst, Bool.false_eq_true, if_false]
end
end

/-- Settles O17: a request under way by its end, a new one by its anchor or its area, and HALT by its anchor. -/
theorem preemptionWords : Obligations.PreemptionWords := by
  intro s c sl g d a b o nb st h
  have hda : ScalarTurn s c sl g true 0 [d.toNat, a.toNat] := h.mono (by simp)
  refine ⟨execPreq_saved h, execPreqRst_restored h, fun hnew ha hb => ?_, fun hnew hb => ?_, fun ha => ?_⟩
  · exact ⟨execPreq_refused h hnew hb ha, fun hnb hs _ => execPreq_starts h hnew hb ha hnb hs⟩
  · exact ⟨execPreqRst_unknown h hnew hb rfl, fun t ht => ⟨execPreqRst_noRoom h hnew hb rfl ht, fun cores => execPreqRst_starts h hnew hb rfl ht⟩⟩
  · exact ⟨execHalt_ends hda ha, execHalt_refused hda ha⟩

end Sys2Proof.Machine
end

section
/-! O43: what the Sinter engine and a save bring to an end. -/

namespace Sys2Proof.Machine
open Bits

/-! ## The Sinter engine (R307 to R314) -/

theorem input_putEntries (s : State) (pages : List Nat) (i : Nat) (l : List (Nat × Nat × List Byte)) :
    (putEntries s pages i l).input = s.input := by
  induction l generalizing s i with
  | nil => rfl
  | cons e l ih => exact (ih ..).trans (input_perform ..)
theorem input_restoreEntry (s : State) (e : Nat × Nat × List Byte) : (restoreEntry e s).input = s.input := input_perform s ..
theorem input_restoreEntries (s : State) (es : List (Nat × Nat × List Byte)) : (es.foldr restoreEntry s).input = s.input := by
  induction es with
  | nil => rfl
  | cons e es ih => exact (input_restoreEntry ..).trans ih

section
variable {s : State} {r : Region} (hr : s.regions.get? s.input.x = some r)
include hr

/-- The engine of the region of the input is at work on an operation. -/
theorem atRegion_eq_some {st : Nat} {f : State → Region → State} (h : r.st = st) : atRegion st f s = some (f s r) := by
  simp only [atRegion, hr, if_pos h]

theorem execSinterMergeDone_ends (h : r.st = 2) :
    let kept := (Region.entries s r).filter (fun e => decide (e.2.1 < r.parentEpoch))
    exec .sinterMergeDone s = .next (idleAgain (putEntries s r.poolPages r.start kept) s.input.x (fun r' =>
      { r' with n := r'.start + kept.length, depth := r'.depth - 1, levels := r'.levels.dropLast, exhausted := false })) :=
  event_eq_next (atRegion_eq_some hr h)
theorem execSinterRestoreDone_ends (h : r.st = 1) :
    exec .sinterRestoreDone s = .next (idleAgain (addRegion ((Region.entries s r).foldr restoreEntry s) r) s.input.x (fun r' =>
      { r' with n := r'.start, depth := r'.depth - 1, levels := r'.levels.dropLast, exhausted := false })) := by
  refine event_eq_next ((atRegion_eq_some hr h).trans ?_)
  dsimp only
  rw [input_restoreEntries]
theorem execSinterGrowDone_ends (h : r.st = 4) :
    let grown := putEntries s r.newPages 0 ((List.range r.n).map (poolEntry s r.poolPages))
    exec .sinterGrowDone s = .next (idleAgain { grown with pageMap := grown.pageMap.keep (fun p _ =>
      !(r.poolPages.contains p && !r.newPages.contains p)) } s.input.x (fun r' =>
      { r' with pool := r'.newPool, pent := r'.newPent, poolPages := r'.newPages, newPool := 0, newPent := 0, newPages := [], exhausted := false })) := by
  refine event_eq_next ((atRegion_eq_some hr h).trans ?_)
  dsimp only
  rw [input_putEntries]
theorem execSinterSweepDone_ends (h : r.st = 3) :
    exec .sinterSweepDone s = .next (idleAgain (clearTags s r) s.input.x (fun r' => { r' with e := 0 })) :=
  event_eq_next (atRegion_eq_some hr h)
theorem execSnapdefTagsDone_ends (h : r.st = 5) :
    exec .snapdefTagsDone s = .next (idleAgain (clearTags s r) s.input.x (fun r' => r')) :=
  event_eq_next (atRegion_eq_some hr h)
end

/-! ## A save that runs (R372) -/

section
variable {s : State} {o : SaveOp} {n : Nbhd} (ho : savingOp s s.input.x = some o)
include ho

theorem execSequencerSaveTimeout_late {late : List Nat}
    (hlate : ((nbList s o.nb).filter (fun b => (b.2.seq.map (fun q => !seqSaved q false)).getD false)).map (·.1) = late)
    (hdue : o.since + 2 ^ 20 ≤ s.clock) (hsome : late ≠ []) :
    exec .sequencerSaveTimeout s =
      .next { s with saveOps := s.saveOps.map (fun x => if x.id = o.id then { x with late := (x.late ++ late).dedup } else x) } := by
  have hmine : (!late.isEmpty) = true := by simpa using hsome
  change execSequencerSaveTimeout s = _
  refine event_eq_next ?_
  rw [ho, Option.bind_some]
  dsimp only
  rw [hlate, if_pos ⟨hdue, hmine⟩]

variable (hn : s.nbhd? o.nb = some n)
include hn

theorem execPreempt_taken (h : o.taken = false) : exec .preempt s = .next (preemptTrap s o) := by
  change execPreempt s = _
  refine event_eq_next ?_
  simp only [ho, hn, Option.bind_some, Option.map_some, h, Bool.not_false, if_true]
theorem execPreempt_saves (h : o.taken = true) (hr : saveReady (settleCores s o.nb) o.nb o.late = true) :
    exec .preempt s = .next (saveNow (settleCores s o.nb) o n) := by
  change execPreempt s = _
  refine event_eq_next ?_
  simp only [ho, hn, Option.bind_some, Option.map_some, h, hr, Bool.not_true, Bool.false_eq_true, if_true, if_false]
theorem execPreempt_settles (h : o.taken = true) (hr : saveReady (settleCores s o.nb) o.nb o.late = false) :
    exec .preempt s = .next (settleCores s o.nb) := by
  change execPreempt s = _
  refine event_eq_next ?_
  simp only [ho, hn, Option.bind_some, Option.map_some, h, hr, Bool.not_true, Bool.false_eq_true, if_false]
end

/-- Settles O43: each end by the state of its region, and a save by what it has reached. -/
theorem regionAndSaveEvents : Obligations.RegionAndSaveEvents := by
  refine ⟨fun s r hr => ?_, fun s o n ho hn => ?_⟩
  · exact ⟨execSinterMergeDone_ends hr, execSinterRestoreDone_ends hr, execSinterGrowDone_ends hr, execSinterSweepDone_ends hr, execSnapdefTagsDone_ends hr⟩
  · exact ⟨execPreempt_taken ho hn, execPreempt_saves ho hn, execPreempt_settles ho hn, execSequencerSaveTimeout_late ho rfl⟩

end Sys2Proof.Machine
end

section
/-! O49: accesses of the host, by the window that they name and by what their home slice holds. -/

namespace Sys2Proof.Machine
open Bits

section
variable {s u : State}

/-- The windows of the host answer from step 5 of start-up on (R380). -/
theorem hostServed_of_step (h : 5 ≤ s.mgmt.step) : hostServed s = true := decide_eq_true h
theorem not_hostServed_of_step (h : s.mgmt.step < 5) : hostServed s = false := decide_eq_false (Nat.not_le.2 h)

/-- A change of the partition of the input, which exists. -/
theorem onPart_eq_some {p : Part} (hp : s.part? s.input.part = some p) (f : Part → Part) :
    onPart s f = some (s.updPart s.input.part f) := by
  rw [onPart, hp, Option.map_some]

/-! ## Writes, reads and atomics of an open channel (R300, R306, R380, R381) -/

section
variable (hs : hostServed s = true) (hc : channelOpen s s.input.port = true)
include hs hc

section
variable (h1 : s.input.op ≠ 1) (h2 : s.input.op ≠ 2)
include h1 h2

theorem execHostWrite_home (hr : inRanges s s.input.part s.input.addr s.input.bytes.length = true) :
    exec .hostWrite s = .next (hostWriteNow s s.input) := by
  change execHostWrite s = _
  refine event_eq_next ?_
  simp only [if_neg h1, if_neg h2, hs, hc, hr, Bool.not_true, Bool.or_self, Bool.false_eq_true, if_false]
theorem execHostWrite_placed (hr : inRanges s s.input.part s.input.addr s.input.bytes.length = true)
    (hd : homeAll (fromHost s.input.port) hostWho (byLine (cellsAt s.input.addr s.input.bytes)) s = .done u) :
    exec .hostWrite s = .next (leavePlaces u (.host s.input.port)) := by
  rw [execHostWrite_home hs hc h1 h2 hr, hostWriteNow, hd]
  rfl
theorem execHostWrite_held (hr : inRanges s s.input.part s.input.addr s.input.bytes.length = true) {k : Nat}
    (hd : homeAll (fromHost s.input.port) hostWho (byLine (cellsAt s.input.addr s.input.bytes)) s = .noRoom k u) :
    let v := exhaust (leavePlaces u (.host s.input.port)) k
    exec .hostWrite s = .next { v with hostHeld := v.hostHeld.set s.input.port (0, s.input) } := by
  rw [execHostWrite_home hs hc h1 h2 hr, hostWriteNow, hd]
  rfl
theorem execHostWrite_outside (hr : inRanges s s.input.part s.input.addr s.input.bytes.length = false) :
    exec .hostWrite s = .next (logError (s.updPart s.input.part (fun p => { p with dropped := p.dropped + 1 })) s.input.part 8 0 0 none
      (homeDie s.input.addr) s.input.addr 0) := by
  change execHostWrite s = _
  refine event_eq_next ?_
  simp only [if_neg h1, if_neg h2, hs, hc, hr, Bool.not_true, Bool.not_false, Bool.or_self, Bool.false_eq_true, if_false, if_true]

/-- A read of memory that no home slice holds answers its bytes, or that their check failed (R104, R110). -/
theorem execHostRead_memory (h3 : s.input.op ≠ 3) (hr : inRanges s s.input.part s.input.addr s.input.len = true)
    (hw : ∀ k < s.input.len, homeWaits (fromHost s.input.port) s (s.input.addr + k) false = none) :
    let v := leavePlaces s (.host s.input.port)
    let us := ((List.range s.input.len).map (fun k => memUnit (s.input.addr + k))).dedup
    (errIn v us = none → exec .hostRead s = .next (completion (countErrs v us) s.input.x (Memory.read v.mem s.input.addr s.input.len))) ∧
    (errIn v us ≠ none → exec .hostRead s = .next (errorCompletion (countErrs v us) s.input.x)) := by
  intro v us
  have hnone : (List.range s.input.len).findSome? (fun k => homeWaits (fromHost s.input.port) s (s.input.addr + k) false) = none := by
    refine List.findSome?_eq_none_iff.2 fun k hk => hw k (List.mem_range.1 hk)
  have hread : exec .hostRead s = .next (hostReadNow s s.input) := by
    change execHostRead s = _
    refine event_eq_next ?_
    simp only [if_neg h1, if_neg h2, if_neg h3, hs, hc, hr, Bool.not_true, Bool.false_eq_true, if_false]
  rw [hread, hostReadNow, hnone]
  refine ⟨fun he => ?_, fun he => ?_⟩
  · exact congrArg Host.Outcome.next (if_neg (by simp [v, us] at he; simp [he]))
  · exact congrArg Host.Outcome.next (if_pos (Option.isSome_iff_ne_none.2 he))
end

theorem execHostRead_window (h1 : s.input.op = 1) :
    exec .hostRead s = .next (completion s s.input.x (bytesOf 8 (controlRead s s.input.part s.input.idx))) := by
  have h2 : s.input.op ≠ 2 := by simp [h1]
  change execHostRead s = _
  refine event_eq_next ?_
  simp only [if_neg h2, if_pos h1, hs, hc, Bool.not_true, Bool.false_eq_true, if_false]
/-- The doorbell window answers the write pointer of a user queue of the partition (R362). -/
theorem execHostRead_doorbell {p : Part} {q : UQ} (h3 : s.input.op = 3) (hp : s.part? s.input.part = some p)
    (hq : uqNow s (s.input.addr / 8) = some q) (ha : s.input.addr % 8 = 0) (hlo : p.desc.uqlo ≤ s.input.addr / 8) (hhi : s.input.addr / 8 ≤ p.desc.uqhi) :
    exec .hostRead s = .next (completion s s.input.x (bytesOf 8 q.wr)) := by
  have h1 : s.input.op ≠ 1 := by simp [h3]
  have h2 : s.input.op ≠ 2 := by simp [h3]
  change execHostRead s = _
  refine event_eq_next ?_
  simp only [if_neg h2, if_neg h1, if_pos h3, hs, hc, hp, hq, Bool.not_true, Bool.false_eq_true, if_false]
  exact if_pos ⟨hlo, hhi, ha⟩
theorem execHostAtomic_placed {a : Acc} (ha : carriedAtom s.input.op s.input.y s.input.value.toNat = a)
    (hr : inRanges s s.input.part s.input.addr a.n = true)
    (hd : homeAt (fromHost s.input.port) hostWho s.input.addr
      (((atomNew a (Memory.le s.mem s.input.addr a.n)).map (fun v => cellsAt s.input.addr (bytesOf a.n v))).getD []) s = .done u) :
    exec .hostAtomic s =
      .next (completion (leavePlaces u (.host s.input.port)) s.input.x (bytesOf a.n (Memory.le s.mem s.input.addr a.n))) := by
  have hn : inRanges s s.input.part s.input.addr (s.input.op / 16 % 16) = true := by
    rw [← ha] at hr
    exact hr
  have hnow : exec .hostAtomic s = .next (hostAtomicNow s s.input) := by
    change execHostAtomic s = _
    refine event_eq_next ?_
    simp only [hs, hc, hn, Bool.not_true, Bool.false_eq_true, if_false]
  rw [hnow, hostAtomicNow, ha, hd]
  rfl

/-! ## Registers of the control window -/

theorem execControlWindowWrite_register {t : State} (hw : controlWrite s = some t) : exec .controlWindowWrite s = .next t := by
  change execControlWindowWrite s = _
  refine event_eq_next ?_
  simp only [hs, hc, hw, Bool.and_self, if_true]
theorem execControlWindowWrite_ridx {p : Part} (h : s.input.op = 0) (hp : s.part? s.input.part = some p) :
    exec .controlWindowWrite s = .next (s.updPart s.input.part (fun p => { p with ridx := s.input.nums.getD 0 0 })) := by
  refine execControlWindowWrite_register hs hc ?_
  simp only [controlWrite, h]
  exact onPart_eq_some hp _
theorem execControlWindowWrite_domain {p : Part} (h : s.input.op = 18) (hp : s.part? s.input.part = some p) :
    exec .controlWindowWrite s = .next (s.updPart s.input.part (fun p => { p with domain := s.input.nums })) := by
  refine execControlWindowWrite_register hs hc ?_
  simp only [controlWrite, h]
  exact onPart_eq_some hp _
end

/-! ## Before step 5, and the boot status word (R388) -/

theorem execHostRead_early (hs : hostServed s = false) (h2 : s.input.op ≠ 2) : exec .hostRead s = .next (errorCompletion s s.input.x) := by
  change execHostRead s = _
  refine event_eq_next ?_
  simp only [if_neg h2, hs, Bool.not_false, if_true]
theorem execHostAtomic_early (hs : hostServed s = false) : exec .hostAtomic s = .next (errorCompletion s s.input.x) := by
  change execHostAtomic s = _
  refine event_eq_next ?_
  simp only [hs, Bool.not_false, if_true]
theorem execHostRead_status (h2 : s.input.op = 2) :
    exec .hostRead s = .next (completion s s.input.x (bytesOf 8 (s.mgmt.step + 256 * s.mgmt.failure))) := by
  change execHostRead s = _
  refine event_eq_next ?_
  simp only [if_pos h2]

/-! ## Resets, vectors and host memory (R383, R386) -/

section
variable {p : Part} (hp : s.part? s.input.part = some p)
include hp

theorem execPartitionReset_begins (h : p.resetting = false) : exec .partitionReset s = .next (resetPartition s s.input.part) := by
  change execPartitionReset s = _
  refine event_eq_next ?_
  simp only [hp, Option.map_some, h, Bool.false_eq_true, if_false]
theorem execPartitionReset_ends (h : p.resetting = true) : exec .partitionReset s = .next (finishReset s s.input.part) := by
  change execPartitionReset s = _
  refine event_eq_next ?_
  simp only [hp, Option.map_some, h, if_true]
theorem execVectorPendingSend_sends {ctl : Nat} (hctl : Memory.le s.mem (vectorAt s s.input.part (s.input.idx % 64) + 12) 4 = ctl)
    (h0 : bit ctl 0 = true) (h1 : bit ctl 1 = true) (hf : bit p.inflight (s.input.idx % 64) = false) (hw : hostPending s s.input.part = false) :
    exec .vectorPendingSend s = .next (sendVector (s.putOwn (cellsAt (vectorAt s s.input.part (s.input.idx % 64) + 12)
      (bytesOf 4 (setBit ctl 1 false)))) s.input.part (s.input.idx % 64)) := by
  change execVectorPendingSend s = _
  refine event_eq_next ?_
  simp only [hp, Option.bind_some, hctl, h0, h1, hf, hw, Bool.not_false, Bool.and_self, if_true]
end

theorem execAcceptedByHostMemory_line {w : Nat × Nat × Nat} (hw : s.hostWrites.find? (fun h => h.1 == s.input.x) = some w) (hl : w.2.1 < 10 ^ 6) :
    let t : State := { s with hostWrites := s.hostWrites.filter (fun x => x.1 != w.1) }
    exec .acceptedByHostMemory s = .next (if isHbm w.2.2 then t else updL2 t (w.2.2 / 256) (fun l => { l with dirty := 0 })) := by
  intro t
  change execAcceptedByHostMemory s = _
  refine event_eq_next ?_
  rw [hw, Option.map_some]
  dsimp only
  rw [if_neg (fun h => absurd h.1 (Nat.not_le.2 hl))]
end

/-- Settles O49: what is performed, held, refused or answered, by the step of start-up, the channel and the ranges. -/
theorem hostAccesses : Obligations.HostAccesses := by
  intro s u p q w
  refine ⟨fun hstep => ?served, fun hstep => ?early, execHostRead_status, fun hp => ⟨execPartitionReset_begins hp, execPartitionReset_ends hp⟩,
    fun hp => execVectorPendingSend_sends hp rfl, execAcceptedByHostMemory_line⟩
  case served =>
    have hs := hostServed_of_step hstep
    exact ⟨fun h1 h2 hc hr => ⟨execHostWrite_placed hs hc h1 h2 hr, fun _ => execHostWrite_held hs hc h1 h2 hr⟩,
      fun h1 h2 hc => execHostWrite_outside hs hc h1 h2, fun h1 h2 h3 hc => execHostRead_memory hs hc h1 h2 h3,
      fun h1 hc => execHostRead_window hs hc h1, fun h3 hc hp => execHostRead_doorbell hs hc h3 hp, fun hc => execHostAtomic_placed hs hc rfl,
      fun hc => execControlWindowWrite_ridx hs hc, fun hc => execControlWindowWrite_domain hs hc⟩
  case early =>
    have hs := not_hostServed_of_step hstep
    exact ⟨execHostRead_early hs, execHostAtomic_early hs⟩

end Sys2Proof.Machine
end

section
/-! O50: what a debugger asks of a block, and the sample of a core. -/

namespace Sys2Proof.Machine
open Bits

section
variable {s : State}

theorem execDbgen_sets {p : Part} (hp : s.part? s.input.part = some p) :
    exec .dbgen s = .next (s.updPart s.input.part (fun p => { p with dbgen := s.input.value.getLsbD 0 })) := by
  change execDbgen s = _
  refine event_some ?_
  rw [onPart, hp, Option.map_some]
  rfl

/-! ## Stops, resumes, dumps and steps (R392, R393) -/

section
variable {x : Block} {b : Nat} (hb : s.input.core % 384 * 8 + s.input.slot % 8 = b) (hx : s.block? b = some x) (hpart : partOfBlock s b = s.input.part)
include hb hx hpart

/-- The named group of a stopped block. -/
theorem execDebugStep_steps (hs : x.stopped = true) (hg : s.input.idx ∈ x.groups) :
    exec .debugStep s = .next (s.updGroup (b / 8) s.input.idx (fun g => { g with stepOne := true })) := by
  change execDebugStep s = _
  refine event_some ?_
  simp only [hb, hx, Option.bind_some, hs, hpart, List.contains_iff_mem.2 hg, Bool.not_true, ne_eq, not_true_eq_false, decide_false,
    Bool.or_self, Bool.false_eq_true, if_false]

variable (hone : s.input.ok = false)
include hone

/-- A command without the bit NBHD concerns the one block that it names. -/
theorem debugBlocks_one : debugBlocks s = some [b] := by
  simp only [debugBlocks, hb, hx, Option.bind_some, hpart, hone, ne_eq, not_true_eq_false, Bool.false_eq_true, if_false]
theorem execDebugStop_one :
    exec .debugStop s = .next (s.updBlock b (fun x => if x.stopped then x else { x with stopped := true, dumped := false, cause := 0 })) := by
  change execDebugStop s = _
  refine event_some ?_
  rw [debugBlocks_one hb hx hpart hone]
  rfl
theorem execDebugResume_one :
    exec .debugResume s = .next (x.groups.foldl (fun s sl => s.updGroup (b / 8) sl (fun g => { g with stepOne := false }))
      (s.updBlock b (fun x => { x with stopped := false, dumped := false, cause := 0 }))) := by
  have hgroups : (s.updBlock b (fun x => { x with stopped := false, dumped := false, cause := 0 })).block? b =
      some { x with stopped := false, dumped := false, cause := 0 } := by
    simp only [State.block?] at hx
    simp only [State.block?, updBlock_blocks, get?_modify, hx, Option.map_some]
  change execDebugResume s = _
  refine event_some ?_
  rw [debugBlocks_one hb hx hpart hone, Option.map_some, List.foldl_cons, List.foldl_nil]
  dsimp only
  rw [hgroups]
  rfl
/-- The dump of a block without a sequencer whose streams have stopped. -/
theorem execStopDump_one (hs : x.stopped = true) (hd : x.dumped = false) (hq : x.seq = none)
    (hg : x.groups.all (fun sl => ((s.group? (b / 8) sl).map (fun g =>
      g.prod.isEmpty && !((s.core (b / 8)).loads.any (fun y => y.slot == sl)))).getD true) = true) :
    exec .stopDump s = .next ((s.updPart s.input.part (fun p => { p with dumps := p.dumps ++ [(b, dumpBytes s b x)] })).updBlock b
      (fun x => { x with dumped := true })) := by
  have hdue {f : Nat → Bool} (hf : ∀ sl, f sl = ((s.group? (b / 8) sl).map (fun g =>
      g.prod.isEmpty && !((s.core (b / 8)).loads.any (fun y => y.slot == sl)))).getD true) : x.groups.all f = true :=
    (congrArg x.groups.all (funext hf)).trans hg
  change execStopDump s = _
  refine event_some ?_
  rw [debugBlocks_one hb hx hpart hone, Option.bind_some]
  simp only [List.all_cons, List.all_nil, List.foldl_cons, List.foldl_nil, hx, hs, hd, hq]
  rw [hdue (fun sl => by cases s.group? (b / 8) sl <;> rfl)]
  rfl
end

/-! ## Samples (R395) -/

/-- A ring that is full counts the record as lost, and one with room takes it at its write index. -/
theorem ringPut_full {r : Ring} {rec : List Byte} (h : r.size ≤ r.w - r.r) :
    ringPut s r rec = (s, { r with lost := min (r.lost + 1) (2 ^ 32 - 1) }) := if_pos h
theorem ringPut_room {r : Ring} {rec : List Byte} (h : r.w - r.r < r.size) :
    ringPut s r rec = (s.putOwn (cellsAt (r.base + rec.length * (r.w % r.size)) rec), { r with w := r.w + 1 }) := if_neg (Nat.not_le.2 h)

section
variable {n : Nat} {p : Part} {c : Nat} (hc : s.input.core % 384 = c)
  (hp : s.parts.findV (fun _ p => (partCores p).contains c) = some (n, p)) (hperiod : p.period ≠ 0)
  (hdue : (s.core c).samples < (s.clock - p.sampleStart) / p.period)
include hc hp hperiod hdue

/-- A core without streams. -/
theorem execStallSample_idle (hr : rotation s c = []) :
    exec .stallSample s = .next (s.updCore c (fun k => { k with samples := k.samples + 1 })) := by
  change execStallSample s = _
  refine event_some ?_
  dsimp only
  rw [hc, hp, Option.bind_some]
  dsimp only
  rw [if_neg (not_or.2 ⟨hperiod, Nat.not_le.2 hdue⟩), hr]
  rfl

variable {m : Nat} (hm : ((rotation s c).find? (fun m => decide ((s.core c).sampleIdx ≤ m))).or (rotation s c).head? = some m)
include hm

/-- The record of the next member of the rotation goes to the partition's ring. -/
theorem execStallSample_member :
    let z := memberSample s c m
    let id := identity s c z.2.1 (some z.2.2)
    let rec' := bytesOf 8 (p.sampleStart + ((s.core c).samples + 1) * p.period) ++ bytesOf 4 z.1.1 ++ bytesOf 2 id.2.2.2.1 ++ bytesOf 1 z.1.2.1 ++ bytesOf 1 z.1.2.2 ++
      bytesOf 4 id.2.2.2.2.1 ++ bytesOf 4 id.2.2.2.2.2 ++ bytesOf 2 id.1 ++ bytesOf 1 id.2.1 ++ bytesOf 1 id.2.2.1 ++ bytesOf 4 p.sample.lost
    let t := ringPut s p.sample rec'
    exec .stallSample s = .next ((t.1.updPart n (fun q =>
      { q with sample := if decide (p.sample.size ≤ p.sample.w - p.sample.r) then t.2 else { t.2 with lost := 0 } })).updCore c (fun k =>
        { k with samples := k.samples + 1, sampleIdx := m + 1 })) := by
  intro z id rec' t
  change execStallSample s = _
  refine event_some ?_
  dsimp only
  rw [hc, hp, Option.bind_some]
  dsimp only
  rw [if_neg (not_or.2 ⟨hperiod, Nat.not_le.2 hdue⟩), hm]
end
end

/-- Settles O50: each command by the block that it names, and a sample by the rotation of its core and the room of the ring. -/
theorem debugEvents : Obligations.DebugEvents := by
  intro s p x i b
  refine ⟨execDbgen_sets, fun hx hpart => ⟨fun hone => ?_, execDebugStep_steps rfl hx hpart⟩, fun n hp hperiod hdue => execStallSample_idle rfl hp hperiod hdue,
    ?sample⟩
  · exact ⟨execDebugStop_one rfl hx hpart hone, execDebugResume_one rfl hx hpart hone, fun hs hd hg hq => execStopDump_one rfl hx hpart hone hs hd hq hg⟩
  case sample =>
    intro n m hp hperiod c k hdue hm z id rec' taken
    have hsample := execStallSample_member rfl hp hperiod hdue hm
    refine ⟨fun hfull => ?_, fun hroom => ?_⟩
    · simp only [ringPut_full hfull, decide_eq_true hfull, if_true] at hsample
      exact hsample
    · simp only [ringPut_room hroom, decide_eq_false (Nat.not_le.2 hroom), Bool.false_eq_true, if_false] at hsample
      exact hsample

end Sys2Proof.Machine
end

section
/-! O51: Geyser's queues, commands and steals, and the rounds that end a graph. -/

namespace Sys2Proof.Machine
open Bits

section
variable {s : State}

/-! ## Doorbells (R363, R386, R390) -/

section
variable (hstep : 5 ≤ s.mgmt.step) (hopen : channelOpen s s.input.port = true) {q : UQ} (hq : uqNow s (s.input.idx % 1024) = some q)
  {p : Nat × Part} (hp : uqPart s (s.input.idx % 1024) = some p)
include hstep hopen hq hp

theorem execDoorbell_discarded (h : p.2.resetting = true ∨ p.2.halted = true) :
    exec .doorbell s = .next (s.updPart p.1 (fun p => { p with bells := p.bells + 1 })) := by
  have hnow : ¬(decide (s.mgmt.step < 5) || !channelOpen s s.input.port) = true := by simp [hopen, hstep]
  change execDoorbell s = _
  refine event_some ?_
  rw [if_neg hnow, doorbell, hq, Option.bind_some, hp, Option.map_some, if_pos (by simpa using h)]
theorem execDoorbell_rings (hr : p.2.resetting = false) (hh : p.2.halted = false) :
    let rung (m : State) : State := if !isMapped m q.die (s.input.idx % 1024) && s.input.value.toNat != q.rd then setPending m q.die (s.input.idx % 1024) else m
    exec .doorbell s = .next (geyser (rung (putWr s (s.input.idx % 1024) s.input.value.toNat)) q.die) := by
  intro rung
  have hnow : ¬(decide (s.mgmt.step < 5) || !channelOpen s s.input.port) = true := by simp [hopen, hstep]
  change execDoorbell s = _
  refine event_some ?_
  rw [if_neg hnow, doorbell, hq, Option.bind_some, hp, Option.map_some, if_neg (by simp [hr, hh])]
end

/-! ## Commands (R359, R362) -/

section
variable {h : HSlot} (hh : (s.die (s.input.die % 8)).hs.get? (s.input.idx % 4) = some h) {q : UQ} (hq : uqNow s h.uq = some q) {p : Nat × Part}
  (hp : uqPart s h.uq = some p) (hrun : q.stopped = false) (hrd : q.rd < q.wr)
include hh hq hp hrun hrd

/-- What the head of a mapped queue does: a malformed command stops it, one whose counters are reached starts, and another waits. -/
theorem execCommandStart_head {bs : List Byte} (hbs : cmdBytes s q q.rd = bs) :
    exec .commandStart s = .next (
      if cmdBad s p.1 bs then stopUq s p.1 h.uq q 7
      else if depsMet s p.1 (hostCmd bs) then geyser (startCmd s p.1 h.uq q p.2 (hostCmd bs)) (s.input.die % 8)
      else s) := by
  have hready : ¬(q.stopped || decide (q.wr ≤ q.rd)) = true := by simp [hrun, hrd]
  change execCommandStart s = _
  simp only [execCommandStart, event, hh, hq, hp, Option.bind_some, if_neg hready, hbs]
  cases cmdBad s p.1 bs with
  | true => rfl
  | false => cases depsMet s p.1 (hostCmd bs) <;> rfl
end

section
variable {c : Cmd} (hc : s.cmds.find? (fun c => c.id == s.input.x && c.left == 0) = some c)
include hc

/-- A command that has completed leaves; a SIGNAL raises vector 2. -/
def cmdEnded (c : Cmd) (s : State) : State :=
  if c.opc = 4 then raiseVector { s with cmds := s.cmds.filter (fun x => x.id != c.id) } c.part 2
  else { s with cmds := s.cmds.filter (fun x => x.id != c.id) }
theorem execCommandComplete_uncounted (h : c.comp = 2 ^ 32 - 1) : exec .commandComplete s = .next (cmdEnded c s) := by
  change execCommandComplete s = _
  refine event_some ?_
  rw [hc, Option.map_some]
  dsimp only
  rw [if_pos h]
  rfl
theorem execCommandComplete_counted (h : c.comp ≠ 2 ^ 32 - 1) {a : Nat} (ha : counterAt s c.part c.comp = some a) :
    exec .commandComplete s = .next (
      if (partRelease s c.part).1 then
        cmdEnded c (deposit (counterAdd (partRelease s c.part).2 { agent := 1 } a 1) a (partSig (partRelease s c.part).2 c.part))
      else (partRelease s c.part).2) := by
  change execCommandComplete s = _
  refine event_some ?_
  rw [hc, Option.map_some]
  dsimp only
  rw [if_neg h, ha]
  rfl
end

/-! ## The steal ring (R365) -/

section
variable {d : Nat} (hd : s.input.die % 8 = d)
include hd

theorem execStealReqSend_asks (hhs : (s.die d).hs = []) (hpend : (s.die d).pend = [])
    (hlast : ∀ t, (s.die d).lastSteal = some t → t + 120000 ≤ s.clock) :
    exec .stealReqSend s = .next ((s.updDie d (fun x => { x with lastSteal := some s.clock })).updDie ((d + 1) % 8) (fun x =>
      { x with steal := x.steal ++ [d] })) := by
  have hlate : ((s.die d).lastSteal.map (fun t => decide (s.clock < t + 120000))).getD false = false := by
    cases ht : (s.die d).lastSteal with
    | none => rfl
    | some t => exact decide_eq_false (Nat.not_lt.2 (hlast t ht))
  change execStealReqSend s = _
  refine event_some ?_
  simp only [hd, hhs, hpend, hlate, List.isEmpty_nil, Bool.not_true, Bool.or_self, Bool.false_eq_true, if_false]

section
variable {k : Nat} {rest : List Nat} (hsteal : (s.die d).steal = k :: rest)
include hsteal

theorem execStealReq_back (hk : k = d) : exec .stealReq s = .next (s.updDie d (fun x => { x with steal := rest })) := by
  change execStealReq s = _
  refine event_some ?_
  simp only [hd, hsteal, if_pos hk]
theorem execStealReq_passes (hk : k ≠ d) (hnone : stolen (s.updDie d (fun x => { x with steal := rest })) d k = none) :
    exec .stealReq s = .next ((s.updDie d (fun x => { x with steal := rest })).updDie ((d + 1) % 8) (fun x => { x with steal := x.steal ++ [k] })) := by
  change execStealReq s = _
  refine event_some ?_
  simp only [hd, hsteal, if_neg hk, hnone]
end

section
variable {u : Nat} {rest : List Nat} (hgrants : (s.die d).grants = u :: rest) {t : State} (ht : s.updDie d (fun x => { x with grants := rest }) = t)
include hgrants ht

theorem execStealGrant_mapped (hm : isMapped t d u = true) : exec .stealGrant s = .next t := by
  change execStealGrant s = _
  refine event_some ?_
  simp only [hd, hgrants, ht, hm, if_true]
theorem execStealGrant_maps (hm : isMapped t d u = false) {k : Nat} (hk : freeHs t d u = some k) : exec .stealGrant s = .next (mapUq t d k u) := by
  change execStealGrant s = _
  refine event_some ?_
  simp only [hd, hgrants, ht, hm, hk, Bool.false_eq_true, if_false]
theorem execStealGrant_pends (hm : isMapped t d u = false) (hk : freeHs t d u = none) : exec .stealGrant s = .next (setPending t d u) := by
  change execStealGrant s = _
  refine event_some ?_
  simp only [hd, hgrants, ht, hm, hk, Bool.false_eq_true, if_false]
end
end

/-! ## Termination rounds (R358) -/

/-- A round that has heard every other device, of a graph that has begun. -/
theorem execTerminationRound_heard {g : Graph} {p : Part} (hg : s.graphs.get? s.input.x = some g) (hp : s.part? g.part = some p)
    (hheard : ∀ e ∈ p.domain, e = s.devnum.toNat ∨ ∃ r ∈ s.input.reports, r.dev = e) (hbegun : g.begun = true ∨ followersStarted s g = true) {sent : Nat}
    (hsent : s.input.reports.foldl (fun n r => n + r.sent) g.sent = sent) {quiet : Bool}
    (hquiet : (graphQuiet s g p && s.input.reports.all (·.quiet) && sent == s.input.reports.foldl (fun n r => n + r.received) g.recvd) = quiet) :
    exec .terminationRound s = .next (if quiet && g.quiet == some sent then endGraph s s.input.x g
      else { s with graphs := s.graphs.set s.input.x { g with begun := true, quiet := if quiet then some sent else none } }) := by
  have hall : p.domain.all (fun d => d == s.devnum.toNat || s.input.reports.any (fun r => r.dev == d)) = true := by
    simpa [List.all_eq_true] using hheard
  have hgo : ¬(!p.domain.all (fun d => d == s.devnum.toNat || s.input.reports.any (fun r => r.dev == d)) || (!g.begun && !followersStarted s g)) = true := by
    rw [hall]
    rcases hbegun with h | h <;> simp [h]
  change execTerminationRound s = _
  refine event_some ?_
  rw [hg, Option.bind_some, hp, Option.bind_some]
  dsimp only
  rw [if_neg hgo, hsent, hquiet, apply_ite some]
end

/-- Settles O51: each event by what it finds of its queue, its command, its die or its graph. -/
theorem geyserEvents : Obligations.GeyserEvents := by
  intro s q p h c k u rest g pt i d rung
  refine ⟨fun hstep hopen hq hp => ⟨execDoorbell_discarded hstep hopen hq hp, execDoorbell_rings hstep hopen hq hp⟩, rfl,
    fun hh hq hp hrun hrd => ?start, fun hc => ?complete, execStealReqSend_asks rfl, fun hsteal => execStealReq_back rfl hsteal rfl,
    execStealReq_passes rfl, fun hgrants => ⟨execStealGrant_mapped rfl hgrants rfl, fun hm hk => execStealGrant_maps rfl hgrants rfl hm hk, execStealGrant_pends rfl hgrants rfl⟩,
    fun hg hp hheard hbegun => ?round⟩
  case start =>
    have hstart := execCommandStart_head hh hq hp hrun hrd rfl
    refine ⟨fun hbad => ?_, fun hbad hdeps => ?_, fun hbad hdeps => ?_⟩
    · rwa [if_pos hbad] at hstart
    · rwa [if_neg (by simp [hbad]), if_pos hdeps] at hstart
    · rwa [if_neg (by simp [hbad]), if_neg (by simp [hdeps])] at hstart
  case complete =>
    refine ⟨execCommandComplete_uncounted hc, fun hcomp a ha => ?_⟩
    have hcounted := execCommandComplete_counted hc hcomp ha
    refine ⟨fun hdone => ?_, fun hleft => ?_⟩
    · rw [if_pos hdone] at hcounted
      exact hcounted
    · rwa [if_neg (by simp [hleft])] at hcounted
  case round =>
    intro sent quiet
    refine ⟨fun hq hsame => ?_, fun hq hother => ?_, fun hq => ?_⟩
    · rw [execTerminationRound_heard hg hp hheard hbegun (sent := sent) rfl hq, if_pos (by simp [hsame])]
    · rw [execTerminationRound_heard hg hp hheard hbegun (sent := sent) rfl hq, if_neg (by simp [hother])]
      rfl
    · rw [execTerminationRound_heard hg hp hheard hbegun (sent := sent) rfl hq]
      rfl

end Sys2Proof.Machine
end

section
/-! O52: a partition's descriptor, the steps of start-up, attestation, and power. -/

namespace Sys2Proof.Machine
open Bits

/-- A table of which a test keeps no entry. -/
theorem keep_eq_nil {α : Type} {f : Nat → α → Bool} {m : NMap α} (h : ∀ x ∈ m, f x.1 x.2 = false) : m.keep f = [] := by
  induction m with
  | nil => rfl
  | cons x m ih =>
    rw [NMap.keep, h x List.mem_cons_self, if_neg Bool.false_ne_true]
    exact ih fun y hy => h y (List.mem_cons_of_mem _ hy)

section
variable {s : State}

/-- A descriptor of a partition that has no agents yet (R382). -/
theorem execPartitionDescriptorWrite_taken (hstep : 6 ≤ s.mgmt.step) (hpart : s.input.part < s.mgmt.parts) (hrun : partRuns s s.input.part = false)
    (hbad : descBad s s.input.part s.input.bytes = false) (hp : s.part? s.input.part = none)
    (hagent : ∀ n ∈ s.nbhds, (n.2.part == s.input.part && n.2.agent) = false) :
    exec .partitionDescriptorWrite s =
      .next (startAgents { s with parts := s.parts.set s.input.part { desc := descOf s.input.bytes } } s.input.part) := by
  have hnone : s.nbhds.keep (fun _ n => n.part == s.input.part && n.agent) = [] :=
    keep_eq_nil hagent
  have hok : ¬(s.mgmt.step < 6 ∨ s.mgmt.parts ≤ s.input.part ∨ partRuns s s.input.part = true ∨
      ((s.part? s.input.part).map (·.resetting)).getD false = true ∨ descBad s s.input.part s.input.bytes = true) := by
    simp [hrun, hbad, hp, hstep, hpart]
  change execPartitionDescriptorWrite s = _
  refine event_some ?_
  dsimp only
  rw [if_neg hok, hnone]
  simp only [NMap.keys, List.map_nil, List.foldl_nil, hp]

/-! ## Start-up (R387, R388) -/

/-- What the next step of start-up does, where none has failed. -/
def powerStep (s : State) : Option State :=
  match s.mgmt.step with
  | 0 => some (startFirmware s s.input.bytes)
  | 1 => some (startBlob s s.input.bytes)
  | 2 => some (if s.input.ok then stepDone { s with tags := [] } 3 else startFails s (if s.input.op = 0 then 3 else 4))
  | 3 => some (startImage s s.input.bytes s.input.nums (s.input.idx == 0))
  | 4 => some (if s.input.ok then startLinks s s.input.nums s.input.len else startFails s 3)
  | 5 => some (stepDone { s with mgmt := { s.mgmt with tree := treeOf s.input.nums } } 6)
  | _ => none
theorem execPowerOn_step (hf : s.mgmt.failure = 0) {t : State} (ht : powerStep s = some t) : exec .powerOn s = .next t := by
  change execPowerOn s = _
  refine event_some ?_
  dsimp only
  rw [if_neg (not_not.2 hf)]
  exact ht

/-! ## Attestation (R389) -/

theorem spdm_answers (h : s.mgmt.spdm ≠ 4) (f : State → State) : spdm f s = .next (f s) := event_some (if_neg h)

/-! ## Power (R390) -/

theorem execPowerMeasurement_due (h : (s.die (s.input.die % 8)).powerAt + 1200000 ≤ s.clock) :
    exec .powerMeasurement s = .next (s.updDie (s.input.die % 8) (fun d => { d with
      duty := if d.cap < s.input.x then d.duty - 1 else if 100 * s.input.x ≤ 95 * d.cap ∧ d.duty < 16 then d.duty + 1 else d.duty, powerAt := s.clock })) := by
  change execPowerMeasurement s = _
  exact event_some (if_neg (Nat.not_lt.2 h))
end

/-- Settles O52: each step of start-up by its number, and each request by the state of the session. -/
theorem managementEvents : Obligations.ManagementEvents := by
  intro s i m c tells
  refine ⟨execPartitionDescriptorWrite_taken, fun hf => ?steps, rfl, fun hspdm => ?session, execPowerMeasurement_due, rfl⟩
  case steps =>
    refine ⟨fun h => ?_, fun h => ?_, fun h hok => ?_, fun h hok => ?_, fun h => ?_, fun h hok => ?_, fun h => ?_⟩ <;>
      refine execPowerOn_step hf ?_
    · simp only [powerStep, show s.mgmt.step = 0 from h, i]
    · simp only [powerStep, show s.mgmt.step = 1 from h, i]
    · simp only [powerStep, show s.mgmt.step = 2 from h, show s.input.ok = true from hok, if_true]
    · simp only [powerStep, show s.mgmt.step = 2 from h, show s.input.ok = false from hok, Bool.false_eq_true, if_false, i]
    · simp only [powerStep, show s.mgmt.step = 3 from h, i]
    · simp only [powerStep, show s.mgmt.step = 4 from h, show s.input.ok = true from hok, if_true, i]
    · simp only [powerStep, show s.mgmt.step = 5 from h, i]
      rfl
  case session =>
    refine ⟨?capabilities, fun hop => ?chosen, fun hop => ?ended, ?digests, ?certificate, ?challenge, fun hok => ?measurements, ?unsupported⟩
    case capabilities => exact (show execSpdmGetCapabilities s = _ from spdm_answers hspdm _)
    case chosen => exact (show execSpdmNegotiateAlgorithms s = _ from (spdm_answers hspdm _).trans (congrArg Host.Outcome.next (if_neg hop)))
    case ended => exact (show execSpdmNegotiateAlgorithms s = _ from (spdm_answers hspdm _).trans (congrArg Host.Outcome.next (if_pos hop)))
    case digests => exact (show execSpdmGetDigests s = _ from spdm_answers hspdm _)
    case certificate => exact (show execSpdmGetCertificate s = _ from spdm_answers hspdm _)
    case challenge => exact (show execSpdmChallenge s = _ from spdm_answers hspdm _)
    case measurements =>
      have hplain : s.input.ok = false := hok
      refine (show execSpdmGetMeasurements s = _ from spdm_answers hspdm _).trans ?_
      simp only [hplain, Bool.false_eq_true, if_false]
      rfl
    case unsupported => exact (show execSpdmUnsupportedRequest s = _ from spdm_answers hspdm _)

end Sys2Proof.Machine
end

section
/-! O46: runs and records at their queues, the ports that forward them, and summaries. -/

namespace Sys2Proof.Machine
open Bits

/-! ## Appending (R347) -/

section
variable (s : State)

theorem input_putBy (w : Who) (l : List (Nat × Byte)) : (s.putBy w l).input = s.input := input_perform ..
theorem input_putRecord (w : Who) (a : Nat × Nat) (r : BitVec 512) (stamp : Nat) : (putRecord w s a r stamp).input = s.input :=
  (input_putBy ..).trans (input_putBy ..)
theorem input_appendOne (stamp : Nat) (x : State × QHdr) (y : BitVec 512 × Who) : (appendOne stamp x y).1.input = x.1.input := by
  unfold appendOne
  dsimp only
  split <;> exact input_putRecord ..
theorem input_appendAll (stamp : Nat) (l : List (BitVec 512 × Who)) (x : State × QHdr) : (l.foldl (appendOne stamp) x).1.input = x.1.input := by
  induction l generalizing x with
  | nil => rfl
  | cons y l ih => exact (ih _).trans (input_appendOne ..)

variable {s}

/-- A run that its home appends leaves the input, which the event that brings it reads on. -/
theorem input_appendRun {u : State} {hdr : Nat} {recs : List (BitVec 512)} {peer : Bool} {whos : List Who}
    (h : appendRun s hdr recs peer whos = some u) : u.input = s.input := by
  simp only [appendRun] at h
  split at h
  · cases h
  · cases h
    exact (input_putBy ..).trans (input_appendAll ..)
theorem appendRun_eq_none_iff {hdr : Nat} {recs : List (BitVec 512)} {peer : Bool} {whos : List Who} :
    appendRun s hdr recs peer whos = none ↔ (qhdr s hdr).room < recs.length := by
  simp only [appendRun]
  split
  · next h => exact iff_of_true rfl h
  · next h => exact iff_of_false (Option.some_ne_none _) h
end

section
variable {s u : State}

/-! ## Runs (R346 to R349) -/

section
variable {x : Run} (hx : s.runs.find? (fun y => y.id == s.input.x && !y.done) = some x) (hfirst : firstRun s x = true)
include hx hfirst

theorem execRunAppend_admits (h : admitRun s x = some u) : exec .runAppend s = .next (runAdmitted u x) := by
  change execRunAppend s = _
  refine event_some ?_
  rw [hx, Option.bind_some, if_pos hfirst, h, Option.map_some]

variable {q : Queue} (hq : queueOf s x.part x.queue = some q)
include hq

theorem execRunAppend_home (hh : q.here s = true) (ha : appendRun s q.hdr x.recs false x.whos = some u) :
    exec .runAppend s = .next (runAdmitted (runDeposit u q.hdr x) x) := by
  refine execRunAppend_admits hx hfirst ?_
  simp only [admitRun, hq, hh, if_true, ha, Option.map_some]
/-- A run for a queue of another device enters the outbound queue, where that has room for it. -/
theorem execRunAppend_outbound (hh : q.here s = false) (hroom : (outboundOf s x.part q.dev x.queue).recs.length + x.recs.length ≤ 4096) :
    let o := outboundOf s x.part q.dev x.queue
    let t : State := { s with outbound := s.outbound.set (outKey x.part q.dev x.queue) { o with recs := o.recs ++ outRecords s.clock x } }
    exec .runAppend s = .next (runAdmitted (match x.rel with
      | none => t
      | some c => clearSig t c) x) := by
  intro o t
  refine execRunAppend_admits hx hfirst ?_
  simp only [admitRun, hq, hh, Bool.false_eq_true, if_false, if_neg (Nat.not_lt.2 hroom)]
  rfl
end

/-! ## Records of peers, and refills (R344, R348, R350) -/

section
variable {q : Queue} (hq : queueOf s s.input.rcd.part s.input.rcd.queue = some q) (hh : q.here s = true)
include hq hh

theorem execRemoteRecordArrival_appended
    (ha : appendRun s q.hdr [pack 512 s.input.rcd.data] true [{ agent := 4, dev := some s.input.rcd.srcDev }] = some u) :
    exec .remoteRecordArrival s = .next (answer (countRecord (match s.input.rcd.rel with
      | some v => deposit u q.hdr v
      | none => u) s.input.rcd.part s.input.rcd.queue (fun g => { g with recvd := g.recvd + 1 })) s.input.rcd.srcDev 0 s.input.x 0 []) := by
  have hinput := input_appendRun ha
  change execRemoteRecordArrival s = _
  refine event_some ?_
  dsimp only
  rw [hq, Option.bind_some, hh, ha]
  cases s.input.rcd.rel with
  | none =>
    dsimp only
    rw [hinput]
    rfl
  | some v =>
    have hdeposited : (deposit u q.hdr v).input = s.input := hinput
    dsimp only
    rw [hdeposited]
    rfl
theorem execRemoteRecordArrival_retried
    (ha : appendRun s q.hdr [pack 512 s.input.rcd.data] true [{ agent := 4, dev := some s.input.rcd.srcDev }] = none) :
    exec .remoteRecordArrival s = .next (answer s s.input.rcd.srcDev 2 s.input.x 0 []) := by
  change execRemoteRecordArrival s = _
  refine event_some ?_
  dsimp only
  rw [hq, Option.bind_some, hh, ha]
  rfl
end

section
variable {p : Part} (hp : s.part? s.input.part = some p)
include hp

theorem execRefillMove_moves {q : Queue} (hq : p.queues.get? s.input.x = some q) (hh : q.here s = true) {h : QHdr} (hhdr : qhdr s q.hdr = h)
    (hspill : h.rtail < h.tail) (hring : h.rtail - h.head < 2 ^ h.log2)
    (hwhy : bit h.flags 2 = true ∨ h.rtail - h.head < 2 ^ (h.log2 - 1) ∨ dequeueStarved s p q = true) :
    let more := decide (h.rtail + 1 < h.tail) && decide (h.rtail - h.head + 1 < 2 ^ h.log2)
    exec .refillMove s = .next ((putHdr unitWho (putRecord unitWho s (h.ringAt h.rtail) (pack 512 (Memory.read s.mem (h.spillAt h.rtail).1 64))
      (Memory.le s.mem (h.spillAt h.rtail).2 8)) q.hdr { h with rtail := h.rtail + 1 }).putBy unitWho
        [(q.hdr + 45, BitVec.ofNat 8 (setBit h.flags 2 more))]) := by
  intro more
  have hcan : ¬(!(q.here s) || decide (h.tail ≤ h.rtail) || decide (2 ^ h.log2 ≤ h.rtail - h.head)) = true := by
    simp [hh, hspill, hring]
  have hdue : (bit h.flags 2 || decide (h.rtail - h.head < 2 ^ (h.log2 - 1)) || dequeueStarved s p q) = true := by
    simpa [or_assoc] using hwhy
  change execRefillMove s = _
  refine event_some ?_
  rw [hp, Option.bind_some, hq, Option.bind_some]
  dsimp only
  rw [hhdr, if_neg hcan, if_pos hdue]
theorem execSummarySend_sends : exec .summarySend s = .next (onDies s s.input.part (fun d => { d with
    summaries := ((p.queues.filter (fun q => q.2.here s)).map (fun q => (s.input.part * 65536 + q.1, homeSummary s p q.2))).foldl (fun m x =>
      m.set x.1 x.2) d.summaries
    reports := (ownReports s s.input.part p).foldl (fun m x => m.set x.1 x.2) d.reports })) := by
  change execSummarySend s = _
  refine event_some ?_
  rw [hp, Option.map_some]
end

/-! ## Ports (R102) -/

/-- The request that carries a record to its queue. -/
def recordRequest (s : State) (o : Outbound) (r : Nat × BitVec 512 × Option (BitVec 512)) : Request :=
  { id := s.newId.1, kind := 6, dev := o.dev, core := 0, slot := 50, addr := o.queue, key := o.part, bytes := cellsAt 0 (unpack r.2.1), since := s.clock,
    rel := r.2.2.isSome, sig := r.2.2.getD 0, routed := true }
theorem execPortForward_sends {l : Link} (hl : s.links.get? s.input.port = some l) (hup : l.up = true) (hx : bit l.xoff 3 = false)
    (hturn : decidedAfter s s.input.port = false) {d : Int} {key : Nat} {o : Outbound} (hpick : pickOutbound s s.input.port l = some (d, key, o))
    {r : Nat × BitVec 512 × Option (BitVec 512)} {rest : List (Nat × BitVec 512 × Option (BitVec 512))} (hr : o.recs = r :: rest) :
    let m := recordRequest s o r
    let f (l : Link) : Link := { l with fwd := l.fwd.set key (l.fwd.getD key 0 + 1), decided := some s.clock }
    let t : State := { s.newId.2 with
      outbound := s.outbound.set key { o with recs := rest }
      links := s.links.modify f s.input.port
      requests := s.requests ++ [m] }
    exec .portForward s = .next (countRecord (pushPacket t s.input.port (packetOf m)) o.part o.queue (fun g => { g with sent := g.sent + 1 })) := by
  intro m f t
  have hfree : ¬(!l.up || bit l.xoff 3 || decidedAfter s s.input.port) = true := by simp [hup, hx, hturn]
  change execPortForward s = _
  refine event_some ?_
  rw [hl, Option.bind_some, if_neg hfree, hpick, Option.bind_some]
  dsimp only
  rw [hr]
  rfl

/-! ## Messages of peers (R336, R357) -/

theorem execSummaryReceive_summary (hop : s.input.op = 0) {q : Queue} (hq : queueOf s s.input.summary.part s.input.summary.queue = some q)
    (hh : q.here s = false) (hdev : q.dev = s.input.summary.dev) : exec .summaryReceive s = .next (takeSummary s s.input.summary) := by
  change execSummaryReceive s = _
  refine event_some ?_
  simp only [hop, hq, Option.bind_some, hh, hdev, bne_self_eq_false, Bool.or_self, Bool.false_eq_true, if_false]
theorem execSummaryReceive_stage (hop : s.input.op = 1) :
    exec .summaryReceive s = .next (takeReport s s.input.part 0 (s.input.x % 65536) (s.input.y % 16384) s.input.idx) := by
  change execSummaryReceive s = _
  refine event_some ?_
  simp only [hop]
theorem execSummaryReceive_queue (hop : s.input.op = 2) :
    exec .summaryReceive s = .next (takeReport s s.input.part 1 (s.input.x % 65536) (s.input.y % 16384) s.input.idx) := by
  change execSummaryReceive s = _
  refine event_some ?_
  simp only [hop]
theorem execSummaryReceive_barrier (hop : s.input.op = 3) (he : (barEntry s s.input.part (barKey 4 0 (s.input.idx % 64))).expect ≠ 0) :
    exec .summaryReceive s = .next (barArrive s s.input.part (barKey 4 0 (s.input.idx % 64)) 0) := by
  change execSummaryReceive s = _
  refine event_some ?_
  simp only [hop, podArrival, if_neg he]
end

/-- Settles O46: each event by the room at its queue, the choice of its port or the kind of its message. -/
theorem queueEvents : Obligations.QueueEvents := by
  intro s u x q p l d key o r rest i
  refine ⟨fun _ _ _ _ => appendRun_eq_none_iff, fun hx hfirst hq => ⟨execRunAppend_home hx hfirst hq, execRunAppend_outbound hx hfirst hq⟩,
    fun hq hh => ⟨execRemoteRecordArrival_appended hq hh, execRemoteRecordArrival_retried hq hh⟩, fun hp hq hh => execRefillMove_moves hp hq hh rfl,
    fun hl hup hx hturn hpick hr => execPortForward_sends hl hup hx hturn hpick hr, execSummarySend_sends, fun hop hq => execSummaryReceive_summary hop hq, execSummaryReceive_stage,
    execSummaryReceive_queue, execSummaryReceive_barrier⟩

end Sys2Proof.Machine
end
